-- ==== Sys2Proof/Word.lean ====
section
/-! DEFINITION. The word types: a byte, a register word (R8), and the two masters (R9). -/

namespace Sys2Proof

/-- One byte of memory, of a packet, a flit or a frame. -/
abbrev Byte := BitVec 8

/-- One 32-bit register word (R8). -/
abbrev Word := BitVec 32

end Sys2Proof
end

