-- ==== Sys2Proof/Syntax.lean ====
section
/-! DEFINITION. The commands of the block: `Instr`, one constructor for every row of spec/opcode_table.json, and the
small types their operands need. Each constructor's docstring names its row and the rule the row names. A row whose
effect is a pin's takes the pin stream whose front latched pin it executes; a row that receives a packet, a flit or a
frame takes its bytes; a register row takes the master that writes or reads. -/

namespace Sys2Proof

/-- The two masters (R9): the host, and management through Igvaelo. -/
inductive Master where
  | host
  | mgmt
  deriving DecidableEq, Repr

/-- An uncorrectable memory error met while a pin works (R473): the memory code of R461 and the word address. -/
structure MemErr where
  /-- Slice (or station, for memory 4) that holds the memory. -/
  unit : Nat
  /-- Memory code of R461. -/
  memory : Nat
  /-- Word address, or in HBM the byte address. -/
  address : Nat
  deriving DecidableEq, Repr

/-- What a port timestamps of an IEEE 1588 message (R391, R392). Times are in units of 1/192 tick (1/32 core cycle). -/
structure PtpMsg where
  /-- Carriage port (32 to 35) at which the message arrived. -/
  port : Nat
  /-- PTP domainNumber. -/
  domain : Nat
  /-- sequenceId. -/
  seq : Nat
  /-- The origin, precise-origin or receive timestamp the message carries. -/
  time : Int
  /-- correctionField. -/
  correction : Int
  /-- Hardware timestamp of the message at this engine's port (R335). -/
  stamp : Int
  /-- Two-step flag of a Sync. -/
  twoStep : Bool
  /-- Packed coordinate of the sender, or of the requester that a Delay_Resp answers. -/
  peer : Nat
  deriving DecidableEq, Repr

/-- How 802.3dj lane training ended (R336). -/
inductive PmdOutcome where
  | trained
  | noSignal
  | timeout
  deriving DecidableEq, Repr

/-- Key of a message-tracker entry (R362). -/
structure TrackKey where
  src : Nat
  sq : Nat
  seq : Nat
  /-- Responses to a read, rather than writes. -/
  resp : Bool
  deriving DecidableEq, Repr

/-- The reset kinds of the Igvaelo RESET command (Table 12-11). -/
inductive ResetKind where
  | core
  | mgmt
  | port (p : Nat)
  deriving DecidableEq, Repr

/-- The numeric sensors of R447. -/
inductive NumSensor where
  | coreRail (die : Nat)
  | dieTemp (die : Nat)
  | power
  deriving DecidableEq, Repr

/-- The state sensors of R447. -/
inductive StateSensor where
  | globalState
  | belayState
  | owner
  deriving DecidableEq, Repr

/-- The state effecters of R447. -/
inductive Effecter where
  | bride (pair : Nat)
  | fence (slice : Nat)
  deriving DecidableEq, Repr

/-- The commands. -/
inductive Instr where
  /-- STANDBY_POWER_ON (R456). -/
  | standbyPowerOn
  /-- STANDBY_SUPPLY_LOSS (R454). -/
  | standbySupplyLoss
  /-- CORE_RAIL_UP (R433). -/
  | coreRailUp
  /-- HBM_READY (R430). -/
  | hbmReady
  /-- LOAD_PHASE_TIMEOUT (R430). -/
  | loadPhaseTimeout (phase : Nat)
  /-- CORE_RAIL_WARNING_DIP (R453). -/
  | coreRailWarningDip (die mv : Nat)
  /-- SUPPLY_WARNING_CLEAR (R452). -/
  | supplyWarningClear (die : Nat)
  /-- CORE_RAIL_RESET_LEVEL (R454). -/
  | coreRailResetLevel (die mv : Nat)
  /-- CORE_RESET (R456). -/
  | coreReset
  /-- MANAGEMENT_RESTART (R456). -/
  | managementRestart
  /-- FIRMWARE_WATCHDOG (R456). -/
  | firmwareWatchdog
  /-- BELAY_TICK (R20). -/
  | belayTick
  /-- STEP_ORIGIN (R196). -/
  | stepOrigin
  /-- BIVOUAC_QUEUES_QUIET (R450). -/
  | bivouacQueuesQuiet
  /-- LAUNCH_COUNT_REACHED (R400). -/
  | launchCountReached
  /-- WAKE_BEGIN (R451). -/
  | wakeBegin
  /-- WAKE_FAILED (R451). -/
  | wakeFailed
  /-- WAKE_COMPLETE (R451). -/
  | wakeComplete
  /-- NOP (R165). -/
  | nop (stream : Nat)
  /-- SEND_DATA (R169). -/
  | sendData (stream : Nat)
  /-- SEND_FORWARD_WINDOW (R131). -/
  | sendForwardWindow (stream : Nat)
  /-- SEND_PRUSIK_ANSWER_WINDOW (R184). -/
  | sendPrusikAnswerWindow (stream : Nat)
  /-- SEND_ARM_GROUND_QUEUE (R186). -/
  | sendArmGroundQueue (stream : Nat)
  /-- MEMORY_SOURCED_SEND (R295). -/
  | memorySourcedSend (stream : Nat)
  /-- EXPECT (R176). -/
  | expect (stream : Nat)
  /-- REDUCE (R148). -/
  | reduce (stream : Nat)
  /-- REQUANT (R58). -/
  | requant (stream : Nat)
  /-- DELIVER_TO_STATION (R277). -/
  | deliverToStation (stream : Nat)
  /-- DELIVER_TO_HBM (R160). -/
  | deliverToHbm (stream : Nat)
  /-- DELIVER_TO_COMPUTE_SCRATCH (R160). -/
  | deliverToComputeScratch (stream : Nat)
  /-- DELIVER_TO_HEAT_TABLE (R171). -/
  | deliverToHeatTable (stream : Nat)
  /-- DELIVER_COPY (R186). -/
  | deliverCopy (stream : Nat)
  /-- SELECT (R103). -/
  | select (stream : Nat)
  /-- SELECT_WIDE (R168). -/
  | selectWide (stream : Nat)
  /-- HEAT (R93). -/
  | heat (stream : Nat)
  /-- HEAT_SETTLE (R99). -/
  | heatSettle (stream : Nat)
  /-- SURVEY (R228). -/
  | survey (stream : Nat)
  /-- SURVEY_CARRIED (R224). -/
  | surveyCarried (stream : Nat)
  /-- ENCODE (R222). -/
  | encode (stream : Nat)
  /-- DECODE (R230). -/
  | decode (stream : Nat)
  /-- PICOT_L0_ROUND (R132). -/
  | picotL0Round (stream : Nat)
  /-- PICOT_PACKAGE_ROUND (R145). -/
  | picotPackageRound (stream : Nat)
  /-- ROUTE_PASS (R245). -/
  | routePass (stream : Nat)
  /-- FORWARD_SEND (R255). -/
  | forwardSend (stream : Nat)
  /-- BACKWARD_SEND (R262). -/
  | backwardSend (stream : Nat)
  /-- RETURN (R261). -/
  | returnPin (stream : Nat)
  /-- UPDATE (R288). -/
  | update (stream : Nat)
  /-- OPEN (R187). -/
  | openPin (stream : Nat)
  /-- GATE (R192). -/
  | gate (stream : Nat)
  /-- SEAL (R405). -/
  | seal (stream : Nat)
  /-- PIN_COMPLETION (R176). -/
  | pinCompletion (err : Option MemErr)
  /-- SEAL_COMPLETION (R407). -/
  | sealCompletion
  /-- DECISION_TICK (R176). -/
  | decisionTick (slice unit : Nat)
  /-- PITCH_CUTOFF (R183). -/
  | pitchCutoff (pitch : Nat)
  /-- PRUSIK_CUTOFF (R149). -/
  | prusikCutoff (pitch : Nat)
  /-- TOKEN_WINDOW_CUTOFF (R259). -/
  | tokenWindowCutoff (pitch : Nat)
  /-- RETURN_CUTOFF (R261). -/
  | returnCutoff (pitch : Nat)
  /-- GATE_WAIT_TIMEOUT (R193). -/
  | gateWaitTimeout (stream : Nat)
  /-- GATED_PIN_READY (R193). -/
  | gatedPinReady (stream : Nat)
  /-- GRADIENT_TILE (R81). -/
  | gradientTile (port : Nat) (header : BitVec 128) (payload : List Byte)
  /-- TOKEN_TILE (R243). -/
  | tokenTile (port : Nat) (header : BitVec 128) (payload : List Byte)
  /-- FLIT (R306). -/
  | flit (port : Nat) (bytes : List Byte) (corrected uncorrectable : Nat)
  /-- NAK_RESEND_TIMER (R306). -/
  | nakResendTimer (port : Nat)
  /-- REPLAY_ON_SILENCE (R307). -/
  | replayOnSilence (port : Nat)
  /-- LINK_CORR_WINDOW (R460). -/
  | linkCorrWindow (port : Nat)
  /-- BELAY_MARKER_SEND (R311). -/
  | belayMarkerSend (port : Nat)
  /-- BELAY_MARKER (R389). -/
  | belayMarker (port : Nat) (instant : Nat)
  /-- CHUNK (R136). -/
  | chunk (port : Nat) (packet : List Byte)
  /-- PRUSIK_REQ (R150). -/
  | prusikReq (port : Nat) (packet : List Byte)
  /-- PRUSIK_REQUEST_SEND (R323). -/
  | prusikRequestSend (port : Nat)
  /-- TOKENS (R258). -/
  | tokens (port : Nat) (packet : List Byte)
  /-- IDENT (R337). -/
  | ident (port : Nat) (packet : List Byte)
  /-- MEASURE (R338). -/
  | measure (port : Nat) (packet : List Byte) (held : Nat)
  /-- MEASURE_REPLY (R338). -/
  | measureReply (port : Nat) (packet : List Byte) (cycle : Nat)
  /-- BELAY (R312). -/
  | belay (port : Nat) (packet : List Byte)
  /-- BELAY_PACKET_SEND (R312). -/
  | belayPacketSend (port : Nat)
  /-- CREDIT (R325). -/
  | credit (port : Nat) (packet : List Byte)
  /-- CREDIT_SEND (R325). -/
  | creditSend (port : Nat)
  /-- GROUND_PACKET_SEND (R330). -/
  | groundPacketSend (port : Nat)
  /-- CARRIAGE_FRAME (R334). -/
  | carriageFrame (port : Nat) (bytes : List Byte)
  /-- ACKONLY_SEND (R334). -/
  | ackonlySend (port peerW : Nat)
  /-- SYNC_SEND (R392). -/
  | syncSend (port : Nat)
  /-- DELAY_REQ_SEND (R392). -/
  | delayReqSend (port : Nat)
  /-- SYNC (R392). -/
  | sync (msg : PtpMsg)
  /-- FOLLOW_UP (R391). -/
  | followUp (msg : PtpMsg)
  /-- DELAY_REQ (R392). -/
  | delayReq (msg : PtpMsg)
  /-- DELAY_RESP (R392). -/
  | delayResp (msg : PtpMsg)
  /-- PMD_TRAINING_DONE (R336). -/
  | pmdTrainingDone (port : Nat) (outcome : PmdOutcome)
  /-- FLIT_LOCK (R336). -/
  | flitLock (port : Nat) (locked : Bool)
  /-- LOSS_OF_LOCK (R339). -/
  | lossOfLock (port : Nat)
  /-- LOSS_OF_SIGNAL (R339). -/
  | lossOfSignal (port : Nat)
  /-- PORT_FAILED_RETRY (R336). -/
  | portFailedRetry (port peerW : Nat)
  /-- BRIDE_CLOSE (R341). -/
  | brideClose (pair : Nat)
  /-- BRIDE_OPEN (R341). -/
  | brideOpen (pair : Nat)
  /-- BRIDE_PASS_FLIT (R342). -/
  | bridePassFlit (pair : Nat) (fromOdd : Bool) (bytes : List Byte)
  /-- BELAY_HOLDOVER (R394). -/
  | belayHoldover
  /-- BELAY_STALL (R394). -/
  | belayStall
  /-- BELAY_ACQUIRE_LOCK (R394). -/
  | belayAcquireLock (upstream : Nat)
  /-- BELAY_RELOCK (R397). -/
  | belayRelock (candidate upstream : Nat)
  /-- BELAY_STALL_RESUME (R397). -/
  | belayStallResume (upstream : Nat)
  /-- BELAY_CANDIDATE_CHANGE (R388). -/
  | belayCandidateChange (upstream : Nat)
  /-- REFERENCE_INPUT_LOST (R396). -/
  | referenceInputLost
  /-- REFERENCE_INPUT_PRESENT (R396). -/
  | referenceInputPresent
  /-- FORMATION_EXCHANGE_DONE (R121). -/
  | formationExchangeDone (group : Nat) (maxima : List Nat)
  /-- FORMATION_TIMEOUT (R121). -/
  | formationTimeout (group : Nat)
  /-- WRITE (R363). -/
  | write (port : Nat) (packet : List Byte)
  /-- READ_REQ (R370). -/
  | readReq (port : Nat) (packet : List Byte)
  /-- READ_RESPONDER_SERVE (R370). -/
  | readResponderServe (slice : Nat)
  /-- READ_RESP (R371). -/
  | readResp (port : Nat) (packet : List Byte)
  /-- ACK (R367). -/
  | ack (port : Nat) (packet : List Byte)
  /-- MESSAGE_SEND (R376). -/
  | messageSend (queue : Nat)
  /-- RTO_EXPIRY (R367). -/
  | rtoExpiry (queue seq : Nat)
  /-- BACKOFF_EXPIRY (R367). -/
  | backoffExpiry (queue seq : Nat)
  /-- LIFE_EXPIRY (R368). -/
  | lifeExpiry (queue seq : Nat)
  /-- TRACKER_HOLD_EXPIRY (R363). -/
  | trackerHoldExpiry (key : TrackKey)
  /-- TRACKER_AGE_EXPIRY (R362). -/
  | trackerAgeExpiry (key : TrackKey)
  /-- ANCHOR_OPERATION_DONE (R350). -/
  | anchorOperationDone
  /-- FENCE_CLEAR_REINIT_DONE (R476). -/
  | fenceClearReinitDone (slice : Nat) (clean : Bool)
  /-- COALESCING_WINDOW_CLOSE (R465). -/
  | coalescingWindowClose (cls source : Nat)
  /-- CAIRN_ENTRY (R467). -/
  | cairnEntry
  /-- STAGING_COMPLETE (R436). -/
  | stagingComplete
  /-- PREPARATION_COMPLETE (R438). -/
  | preparationComplete
  /-- REGISTER_WRITE (R9). -/
  | registerWrite (m : Master) (offset size : Nat) (value : Word)
  /-- GLB_CTL_LAUNCH (R400). -/
  | glbCtlLaunch (m : Master) (replay : Bool)
  /-- GLB_CTL_CANCEL (R400). -/
  | glbCtlCancel (m : Master)
  /-- GLB_CTL_STOP (R434). -/
  | glbCtlStop (m : Master)
  /-- GLB_CTL_BIVOUAC (R449). -/
  | glbCtlBivouac (m : Master)
  /-- GLB_CTL_WAKE (R449). -/
  | glbCtlWake (m : Master)
  /-- GLB_CTL_RESET_CORE (R456). -/
  | glbCtlResetCore (m : Master)
  /-- GLB_CTL_MGT_RESTART (R444). -/
  | glbCtlMgtRestart (m : Master)
  /-- GLB_OWN_CLAIM (R441). -/
  | glbOwnClaim (m : Master)
  /-- GLB_OWN_RELEASE (R441). -/
  | glbOwnRelease (m : Master)
  /-- GLB_HB (R442). -/
  | glbHb (m : Master)
  /-- GLB_FENCE_WRITE (R25). -/
  | glbFenceWrite (m : Master) (mask : Nat)
  /-- GLB_STEP_DB (R192). -/
  | glbStepDb (m : Master)
  /-- GLB_DPQ_DB (R189). -/
  | glbDpqDb (m : Master) (tail : Word)
  /-- GLB_DPQ_CTL_DISABLE (R477). -/
  | glbDpqCtlDisable (m : Master) (disable : Bool)
  /-- GLB_IRQ_STAT_CLEAR (R489). -/
  | glbIrqStatClear (m : Master) (mask : Word)
  /-- GLB_IRQ_EN_WRITE (R489). -/
  | glbIrqEnWrite (m : Master) (mask : Word)
  /-- ANC_FLAG_POP (R490). -/
  | ancFlagPop (m : Master)
  /-- GRQ_IRQ_POP (R490). -/
  | grqIrqPop (m : Master)
  /-- GQ_CTL_ARM (R120). -/
  | gqCtlArm (m : Master) (group : Nat)
  /-- GQ_CTL_DISARM (R120). -/
  | gqCtlDisarm (m : Master) (group : Nat)
  /-- GRQ_CTL_ARM (R379). -/
  | grqCtlArm (m : Master) (queue : Nat)
  /-- GRQ_CTL_DISABLE (R380). -/
  | grqCtlDisable (m : Master) (queue : Nat)
  /-- GRQ_CTL_SUSPEND (R379). -/
  | grqCtlSuspend (m : Master) (queue : Nat)
  /-- GRQ_CTL_RESUME (R379). -/
  | grqCtlResume (m : Master) (queue : Nat)
  /-- GRQ_CTL_RETRY (R379). -/
  | grqCtlRetry (m : Master) (queue : Nat)
  /-- GRQ_CTL_SKIP (R379). -/
  | grqCtlSkip (m : Master) (queue : Nat)
  /-- GRQ_CTL_RESET (R379). -/
  | grqCtlReset (m : Master) (queue : Nat)
  /-- GRQ_DB (R374). -/
  | grqDb (m : Master) (queue : Nat) (tail : Nat)
  /-- GRQ_DESC_WRITE (R492): a descriptor word, or GRQ_SEQ as word 8. -/
  | grqDescWrite (m : Master) (queue word : Nat) (value : Word)
  /-- SLC_CODE_CTL_DISABLE (R477). -/
  | slcCodeCtlDisable (m : Master) (slice ctx : Nat) (disable : Bool)
  /-- PRT_CTL_RETRAIN (R339). -/
  | prtCtlRetrain (m : Master) (port : Nat)
  /-- PRT_CTL_DISABLE (R477). -/
  | prtCtlDisable (m : Master) (port : Nat) (disable : Bool)
  /-- PRT_BRIDE_CTL_WRITE (R341). -/
  | prtBrideCtlWrite (m : Master) (pair reg : Nat) (value : Word)
  /-- ANC_CTL_ARM (R350). -/
  | ancCtlArm (m : Master)
  /-- ANC_CTL_REVOKE (R350). -/
  | ancCtlRevoke (m : Master)
  /-- ANC_CTL_DISARM (R350). -/
  | ancCtlDisarm (m : Master)
  /-- ANC_E_WRITE (R349). -/
  | ancEWrite (m : Master) (word : Nat) (value : Word)
  /-- UPS_CTL_DISABLE (R477). -/
  | upsCtlDisable (m : Master) (station : Nat) (disable : Bool)
  /-- CRN_RD_WRITE (R472). -/
  | crnRdWrite (m : Master) (value : Word)
  /-- CRN_CTL_OVF_CLR (R468). -/
  | crnCtlOvfClr (m : Master)
  /-- CRN_CTL_CLEAR (R470). -/
  | crnCtlClear (m : Master)
  /-- CRN_CTL_CNT_CLR (R497). -/
  | crnCtlCntClr (m : Master)
  /-- CRN_FEC_CLR (R464). -/
  | crnFecClr (m : Master) (mask : Word)
  /-- MGT_OWN_CTL_SEIZE (R441). -/
  | mgtOwnCtlSeize (m : Master)
  /-- MGT_OWN_CTL_RETURN (R441). -/
  | mgtOwnCtlReturn (m : Master)
  /-- MGT_UNFENCE (R476). -/
  | mgtUnfence (m : Master) (mask : Nat)
  /-- MGT_HB (R442). -/
  | mgtHb (m : Master)
  /-- IMG_CTL_LOAD (R432). -/
  | imgCtlLoad (m : Master) (copy : Nat)
  /-- IMG_CTL_RECOVER (R432). -/
  | imgCtlRecover (m : Master)
  /-- IMG_CTL_STAGE (R435). -/
  | imgCtlStage (m : Master)
  /-- IMG_CTL_ABORT (R437). -/
  | imgCtlAbort (m : Master)
  /-- IMG_CTL_PREPARE (R438). -/
  | imgCtlPrepare (m : Master)
  /-- IMG_CTL_RETHREAD (R439). -/
  | imgCtlRethread (m : Master)
  /-- IMG_CTL_CANCEL (R439). -/
  | imgCtlCancel (m : Master)
  /-- REG_READ (R448). -/
  | regRead (offset count : Nat)
  /-- REG_WRITE (R448). -/
  | regWrite (offset : Nat) (value : Word)
  /-- SEIZE (R441). -/
  | seize
  /-- IGVAELO_RETURN (R441). -/
  | igvaeloReturn
  /-- FENCE (R25). -/
  | fence (mask : Nat)
  /-- UNFENCE (R476). -/
  | unfence (mask : Nat)
  /-- BRIDE (R341). -/
  | bride (pair : Nat) (open_ : Bool) (count : Nat)
  /-- BIVOUAC (R449). -/
  | bivouac (step wake : Nat)
  /-- WAKE (R449). -/
  | wake (wake : Nat)
  /-- RESET (R456). -/
  | reset (kind : ResetKind)
  /-- LOG_READ (R468). -/
  | logRead (first count : Nat)
  /-- STAGE_BEGIN (R435). -/
  | stageBegin (length : Nat)
  /-- STAGE_DATA (R435). -/
  | stageData (offset : Nat) (bytes : List Byte)
  /-- STAGE_END (R436). -/
  | stageEnd
  /-- STAGE_ABORT (R437). -/
  | stageAbort
  /-- LOAD (R429). -/
  | load (copy : Nat)
  /-- ENROLL_KEY (R427). -/
  | enrollKey (record : List Byte)
  /-- STATUS (R448). -/
  | status
  /-- SET_ENDPOINT_ID (R446). -/
  | setEndpointId (eid : Nat)
  /-- GET_ENDPOINT_ID (R446). -/
  | getEndpointId
  /-- GET_ENDPOINT_UUID (R446). -/
  | getEndpointUuid
  /-- GET_MCTP_VERSION_SUPPORT (R446). -/
  | getMctpVersionSupport
  /-- GET_MESSAGE_TYPE_SUPPORT (R446). -/
  | getMessageTypeSupport
  /-- GET_VENDOR_DEFINED_MESSAGE_SUPPORT (R446). -/
  | getVendorDefinedMessageSupport
  /-- GET_TID (R447). -/
  | getTid
  /-- SET_TID (R447). -/
  | setTid (tid : Nat)
  /-- GET_PLDM_VERSION (R447). -/
  | getPldmVersion (type : Nat)
  /-- GET_PLDM_TYPES (R447). -/
  | getPldmTypes
  /-- GET_PLDM_COMMANDS (R447). -/
  | getPldmCommands (type : Nat)
  /-- GET_PDR_REPOSITORY_INFO (R447). -/
  | getPdrRepositoryInfo
  /-- GET_PDR (R447). -/
  | getPdr (record : Nat)
  /-- GET_SENSOR_READING (R447). -/
  | getSensorReading (sensor : NumSensor)
  /-- GET_STATE_SENSOR_READINGS (R447). -/
  | getStateSensorReadings (sensor : StateSensor)
  /-- SET_STATE_EFFECTER_STATES (R447). -/
  | setStateEffecterStates (effecter : Effecter) (on : Bool)
  /-- SET_EVENT_RECEIVER (R447). -/
  | setEventReceiver (receiver : Nat)
  /-- ENEC (R445). -/
  | enec (mask : Byte)
  /-- DISEC (R445). -/
  | disec (mask : Byte)
  /-- RSTDAA (R445). -/
  | rstdaa
  /-- ENTDAA (R445). -/
  | entdaa (address : Nat)
  /-- SETDASA (R445). -/
  | setdasa (static address : Nat)
  /-- SETMWL (R445). -/
  | setmwl (length : Nat)
  /-- SETMRL (R445). -/
  | setmrl (length : Nat)
  /-- GETMWL (R445). -/
  | getmwl
  /-- GETMRL (R445). -/
  | getmrl
  /-- GETPID (R445). -/
  | getpid
  /-- GETBCR (R445). -/
  | getbcr
  /-- GETDCR (R445). -/
  | getdcr
  /-- GETSTATUS (R445). -/
  | getstatus
  /-- RSTACT (R445). -/
  | rstact (action : Byte)
  /-- REGISTER_READ (R483). -/
  | registerRead (m : Master) (offset size : Nat)
  /-- DIE_TO_DIE_LINK_DOWN (R474). -/
  | dieToDieLinkDown (slice cause : Nat)
  deriving DecidableEq, Repr

end Sys2Proof
end

