-- ==== Sys2Proof/WellFormed.lean ====
section
/-! DEFINITION. Well-formed commands: operands name things the machine has (Tables 1-1 to 1-4, R6, R162, R166). A command
outside these ranges still runs: the meanings say what an absent stream, port or queue does (nothing). -/

namespace Sys2Proof

/-- A pin stream: 0 to 7 the slices, 8 the stations, 9 the engine (R162). -/
def streamOk (st : Nat) : Bool := st < 10

/-- A port by its PORTQ code: 0 to 31 native, 32 to 35 carriage (R166). -/
def portOk (p : Nat) : Bool := p < 36

/-- A slice, or an exchange die. -/
def sliceOk (s : Nat) : Bool := s < 8

/-- A ground queue (R373). -/
def queueOk (q : Nat) : Bool := q < 1024

/-- A register offset within the 16 MiB window, at a word (R481). -/
def offsetOk (o : Nat) : Bool := o < 2 ^ 24 && o % 4 == 0

/-- A packet: its 32-byte header, an extension of 16, at most 4,096 bytes of payload (R313). -/
def packetOk (bs : List Byte) : Bool := 32 ≤ bs.length && bs.length ≤ 4144

/-- The command's operands are in range. -/
def Instr.wf : Instr → Bool
  | .coreRailWarningDip die mv | .coreRailResetLevel die mv => sliceOk die && mv < 4096
  | .supplyWarningClear die => sliceOk die
  | .loadPhaseTimeout phase => 1 ≤ phase && phase ≤ 7
  | .nop st | .sendData st | .sendForwardWindow st | .sendPrusikAnswerWindow st | .sendArmGroundQueue st
  | .memorySourcedSend st | .expect st | .reduce st | .requant st | .deliverToStation st | .deliverToHbm st
  | .deliverToComputeScratch st | .deliverToHeatTable st | .deliverCopy st | .select st | .selectWide st | .heat st
  | .heatSettle st | .survey st | .surveyCarried st | .encode st | .decode st | .picotL0Round st
  | .picotPackageRound st | .routePass st | .forwardSend st | .backwardSend st | .returnPin st | .update st
  | .openPin st | .gate st | .seal st | .gateWaitTimeout st | .gatedPinReady st => streamOk st
  | .pinCompletion (some e) => e.unit < 24 && e.memory < 12
  | .decisionTick s u => sliceOk s && u < 6144
  | .pitchCutoff p | .prusikCutoff p | .tokenWindowCutoff p | .returnCutoff p => p < 2 ^ 16
  | .gradientTile p _ pay | .tokenTile p _ pay => sliceOk p && pay.length % 64 == 0
  | .flit p bs _ _ => p < 32 && bs.length == 256
  | .nakResendTimer p | .replayOnSilence p | .linkCorrWindow p | .belayMarkerSend p | .prusikRequestSend p
  | .belayPacketSend p | .creditSend p | .groundPacketSend p | .syncSend p | .delayReqSend p | .lossOfLock p
  | .lossOfSignal p | .pmdTrainingDone p _ | .flitLock p _ | .belayMarker p _ => portOk p
  | .chunk p bs | .prusikReq p bs | .tokens p bs | .ident p bs | .measure p bs _ | .measureReply p bs _ | .belay p bs
  | .credit p bs | .write p bs | .readReq p bs | .readResp p bs | .ack p bs => portOk p && packetOk bs
  | .carriageFrame p bs => 32 ≤ p && portOk p && 60 ≤ bs.length
  | .ackonlySend p w | .portFailedRetry p w => portOk p && w < 32
  | .sync msg | .followUp msg | .delayReq msg | .delayResp msg => 32 ≤ msg.port && portOk msg.port
  | .brideClose r | .brideOpen r | .bridePassFlit r _ _ => r < 8
  | .belayRelock c _ => c < 36
  | .formationExchangeDone g ms => g < 256 && ms.length == 6
  | .formationTimeout g => g < 256
  | .readResponderServe s => sliceOk s
  | .messageSend q | .rtoExpiry q _ | .backoffExpiry q _ | .lifeExpiry q _ => queueOk q
  | .fenceClearReinitDone s _ | .dieToDieLinkDown s _ => sliceOk s
  | .coalescingWindowClose c s => 1 ≤ c && c ≤ 22 && s < 2 ^ 16
  | .registerWrite _ o n _ | .registerRead _ o n => offsetOk o && n == 4
  | .gqCtlArm _ g | .gqCtlDisarm _ g => g < 256
  | .grqCtlArm _ q | .grqCtlDisable _ q | .grqCtlSuspend _ q | .grqCtlResume _ q | .grqCtlRetry _ q | .grqCtlSkip _ q
  | .grqCtlReset _ q => queueOk q
  | .grqDb _ q t => queueOk q && t < 2 ^ 16
  | .grqDescWrite _ q w _ => queueOk q && w < 9
  | .slcCodeCtlDisable _ s c _ => sliceOk s && c < 128
  | .prtCtlRetrain _ p | .prtCtlDisable _ p _ => portOk p
  | .prtBrideCtlWrite _ r _ _ => r < 8
  | .ancEWrite _ w _ => w < 8
  | .upsCtlDisable _ k _ => k < 24
  | .imgCtlLoad _ c | .load c => c < 3
  | .regRead o n => offsetOk o && 1 ≤ n && n ≤ 16
  | .regWrite o _ => offsetOk o
  | .glbFenceWrite _ m | .mgtUnfence _ m | .fence m | .unfence m => m < 256
  | .bride r _ _ => r < 8
  | .logRead _ n => 1 ≤ n && n ≤ 120
  | .stageData _ bs => 1 ≤ bs.length && bs.length ≤ 4000
  | .enrollKey r => r.length == 4096
  | .reset (.port p) => portOk p
  | _ => true

end Sys2Proof
end

