-- ==== Sys2Proof/Machine/Bits.lean ====
section
/-! DEFINITION. Bit fields, sign extension, byte order (R4, R5), the check codes of the engine (CRC-32C of R142, CRC-8
of R209), and the list helpers that the rest of the machine is written with. Numbers that the manual adds and compares
as counts are naturals; a word is a `BitVec 32` only where software sees it. -/

namespace Sys2Proof.Machine

/-- Number of bits of `n` without leading zeros; `bitlen 0 = 0` (R46). -/
def bitlen (n : Nat) : Nat := if n = 0 then 0 else n.log2 + 1

/-- The field `[hi:lo]` of `w` (R4). -/
def field (w hi lo : Nat) : Nat := (w >>> lo) % 2 ^ (hi - lo + 1)

/-- The single bit `[i]` of `w` (R4). -/
def flag (w i : Nat) : Bool := (w >>> i) % 2 == 1

/-- A Boolean as the bit it is stored as. -/
def ofBool (b : Bool) : Nat := if b then 1 else 0

/-- The `bits`-wide two's complement value that `v` encodes (R5). -/
def sext (bits v : Nat) : Int :=
  let u := v % 2 ^ bits
  if u < 2 ^ (bits - 1) then (u : Int) else (u : Int) - 2 ^ bits

/-- The `bits`-wide two's complement encoding of `i`. -/
def twos (bits : Nat) (i : Int) : Nat := (i % (2 ^ bits : Int)).toNat

/-- `⌈a ÷ b⌉`. -/
def ceilDiv (a b : Nat) : Nat := (a + b - 1) / b

/-- `a` rounded up to a multiple of `b`. -/
def roundUp (a b : Nat) : Nat := ceilDiv a b * b

/-- The number whose little-endian bytes are given (R5). -/
def leNat : List Byte → Nat
  | [] => 0
  | b :: bs => b.toNat + 256 * leNat bs

/-- The `n` little-endian bytes of `v` (R5). -/
def leBytes : Nat → Nat → List Byte
  | 0, _ => []
  | n + 1, v => BitVec.ofNat 8 v :: leBytes n (v / 256)

/-- The number whose most-significant-byte-first bytes are given (signatures, digests). -/
def beNat (bs : List Byte) : Nat := leNat bs.reverse

/-- The `n` most-significant-first bytes of `v`. -/
def beBytes (n v : Nat) : List Byte := (leBytes n v).reverse

/-- Bytes `[hi:lo]` of a structure as a little-endian number. -/
def bytesAt (bs : List Byte) (lo len : Nat) : Nat := leNat ((bs.drop lo).take len)

/-- `n` zero bytes. -/
def zeros (n : Nat) : List Byte := List.replicate n 0#8

/-- `bs` padded with zero bytes to a multiple of `m`. -/
def padTo (m : Nat) (bs : List Byte) : List Byte := bs ++ zeros (roundUp bs.length m - bs.length)

/-- All the bytes are zero. -/
def allZero (bs : List Byte) : Bool := bs.all (· == 0#8)

/-- The list cut into pieces of `n`, `fuel` pieces at most. -/
def piecesFuel {α : Type} (n : Nat) : Nat → List α → List (List α)
  | 0, _ => []
  | _, [] => []
  | fuel + 1, xs => xs.take n :: piecesFuel n fuel (xs.drop n)

/-- The list cut into pieces of `n` elements, the last one shorter. -/
def pieces {α : Type} (n : Nat) (xs : List α) : List (List α) := piecesFuel n xs.length xs

/-- The items of a list, each with its index. -/
def indexed {α : Type} (xs : List α) : List (Nat × α) := (List.range xs.length).zip xs

/-- Element `i` of a list replaced; a list that has no element `i` is unchanged. -/
def setAt {α : Type} (xs : List α) (i : Nat) (x : α) : List α := xs.set i x

/-- Element `i` of a list changed by `f`; a list that has no element `i` is unchanged. -/
def modifyAt {α : Type} (xs : List α) (i : Nat) (f : α → α) : List α := xs.modify i f

/-- Element `i` of a list, or `d` where the list has none. -/
def nth {α : Type} (xs : List α) (i : Nat) (d : α) : α := xs.getD i d

/-- The sum of a list of naturals. -/
def sumNat (xs : List Nat) : Nat := xs.foldl (· + ·) 0

/-- The largest of a list of naturals, 0 for none. -/
def maxNat (xs : List Nat) : Nat := xs.foldl Nat.max 0

/-- A counter that sticks at `2^32 - 1` (R77). -/
def stick32 (n : Nat) : Nat := Nat.min n 0xFFFFFFFF

/-! ### Check codes -/

/-- One bit of the reflected CRC-32C shift (R142). -/
def crcShift (c : Nat) : Nat := if c % 2 = 1 then (c / 2) ^^^ 0x82F63B78 else c / 2

/-- One byte taken into a CRC-32C register (R142). -/
def crcByte (c : Nat) (b : Byte) : Nat :=
  crcShift (crcShift (crcShift (crcShift (crcShift (crcShift (crcShift (crcShift (c ^^^ b.toNat))))))))

/-- CRC-32C of a byte string (R142): reflected, initial value and final XOR all ones. -/
def crc32c (bs : List Byte) : Nat := (bs.foldl crcByte 0xFFFFFFFF) ^^^ 0xFFFFFFFF

/-- One bit of the CRC-8 shift (R209). -/
def crc8Shift (c : Nat) : Nat := if c ≥ 128 then ((c * 2) % 256) ^^^ 0x07 else c * 2

/-- CRC-8 of a byte string (R209): polynomial 0x07, initial value 0, no reflection. -/
def crc8 (bs : List Byte) : Nat :=
  bs.foldl (fun c b =>
    crc8Shift (crc8Shift (crc8Shift (crc8Shift (crc8Shift (crc8Shift (crc8Shift (crc8Shift (c ^^^ b.toNat)))))))))
    0

/-- One bit of the reflected CRC-32 shift of IEEE 802.3, the frame check sequence of a carriage frame (R331). -/
def fcsShift (c : Nat) : Nat := if c % 2 = 1 then (c / 2) ^^^ 0xEDB88320 else c / 2

/-- The frame check sequence of IEEE 802.3 (R331, R334). -/
def fcs (bs : List Byte) : Nat :=
  (bs.foldl (fun c b =>
    fcsShift (fcsShift (fcsShift (fcsShift (fcsShift (fcsShift (fcsShift (fcsShift (c ^^^ b.toNat)))))))))
    0xFFFFFFFF) ^^^ 0xFFFFFFFF

/-! ### Sparse tables -/

/-- A table with a default: the entries that differ from it or were written, by rising key. -/
abbrev Tab (β : Type) := List (Nat × β)

/-- The entry of key `k`, or `d` where the table lists none. -/
def Tab.get {β : Type} (d : β) : Tab β → Nat → β
  | [], _ => d
  | (k', v) :: t, k => if k = k' then v else Tab.get d t k

/-- The table with the entry of key `k` set to `v`. -/
def Tab.put {β : Type} (t : Tab β) (k : Nat) (v : β) : Tab β :=
  match t with
  | [] => [(k, v)]
  | (k', v') :: t' =>
    if k < k' then (k, v) :: (k', v') :: t'
    else if k = k' then (k, v) :: t'
    else (k', v') :: Tab.put t' k v

/-- The table without an entry of key `k`. -/
def Tab.del {β : Type} (t : Tab β) (k : Nat) : Tab β := t.filter (fun e => e.1 ≠ k)

/-- The entry of key `k`, if the table lists one. -/
def Tab.find {β : Type} (t : Tab β) (k : Nat) : Option β := (t.find? (fun e => e.1 = k)).map (·.2)

end Sys2Proof.Machine
end

