-- ==== Sys2Proof/Machine/Float.lean ====
section
/-! DEFINITION. The binary arithmetic of 02_exchange_numerics: exact dyadic numbers, binary32 and bfloat16 with rounding
to nearest even (Table 2-3), stochastic rounding (R53), the exponent procedure (R46), quantisation (R50), norm registers
(R65 to R69) and the MX blocks of the moments (R73 to R75). A binary32 pattern is a natural below 2^32. -/

namespace Sys2Proof.Machine

/-- An exact dyadic number `m · 2^e`. -/
structure Dy where
  m : Int
  e : Int
  deriving DecidableEq, Repr

/-- What a binary floating-point pattern stands for. -/
inductive FVal where
  | nan
  | inf (neg : Bool)
  | fin (neg : Bool) (m : Nat) (e : Int)
  deriving DecidableEq, Repr

/-- The quiet NaN pattern the machine's arithmetic gives where an operation has no value. -/
def f32NaN : Nat := 0x7FC00000

/-- The largest finite binary32 magnitude, `2^128 - 2^104` (R52). -/
def f32Max : Nat := 0x7F7FFFFF

/-- The value of a binary32 pattern. -/
def f32Val (b : Nat) : FVal :=
  let s := flag b 31
  let ex := field b 30 23
  let fr := field b 22 0
  if ex = 255 then (if fr = 0 then .inf s else .nan)
  else if ex = 0 then .fin s fr (-149)
  else .fin s (fr + 2 ^ 23) ((ex : Int) - 150)

/-- The binary32 pattern is a NaN or an infinity. -/
def f32NonFinite (b : Nat) : Bool := field b 30 23 == 255

/-- The magnitude bits of a binary32 pattern. -/
def f32Abs (b : Nat) : Nat := b % 2 ^ 31

/-- The exact value of a finite binary32 pattern, 0 for a non-finite one. -/
def f32Dy (b : Nat) : Dy :=
  match f32Val b with
  | .fin s m e => ⟨if s then -(m : Int) else m, e⟩
  | _ => ⟨0, 0⟩

/-- `m ÷ 2^k` rounded to nearest even. -/
def rneShift (m k : Nat) : Nat :=
  if k = 0 then m
  else
    let q := m / 2 ^ k
    let r := m % 2 ^ k
    let h := 2 ^ (k - 1)
    if r > h ∨ (r = h ∧ q % 2 = 1) then q + 1 else q

/-- The magnitude bits, in a format of `p` significand bits with least exponent `emin`, of `m · 2^e` rounded to nearest
even; overflow runs past the largest finite pattern. -/
def packMag (p : Nat) (emin : Int) (m : Nat) (e : Int) : Nat :=
  if m = 0 then 0
  else
    let ulp := max ((bitlen m : Int) - 1 + e - (p - 1)) emin
    let sh := ulp - e
    let mant := if sh ≤ 0 then m * 2 ^ (-sh).toNat else rneShift m sh.toNat
    (ulp - emin).toNat * 2 ^ (p - 1) + mant

/-- `± m · 2^e` rounded to nearest even to binary32, overflow to infinity. -/
def f32Pack (neg : Bool) (m : Nat) (e : Int) : Nat :=
  ofBool neg * 2 ^ 31 + Nat.min (packMag 24 (-149) m e) 0x7F800000

/-- A dyadic number rounded to nearest even to binary32, overflow to infinity; zero is positive. -/
def Dy.toF32 (d : Dy) : Nat := f32Pack (d.m < 0) d.m.natAbs d.e

/-- A binary32 result saturated at the largest finite magnitude, and whether it was (R52, R60). -/
def f32Sat (b : Nat) : Nat × Bool :=
  if f32Abs b ≥ 0x7F800000 then ((b / 2 ^ 31) * 2 ^ 31 + f32Max, true) else (b, false)

/-- The sum of two dyadic numbers, exact. -/
def Dy.add (a b : Dy) : Dy :=
  let e := min a.e b.e
  ⟨a.m * 2 ^ (a.e - e).toNat + b.m * 2 ^ (b.e - e).toNat, e⟩

/-- The negated dyadic number. -/
def Dy.neg (a : Dy) : Dy := ⟨-a.m, a.e⟩

/-- The product of two dyadic numbers, exact. -/
def Dy.mul (a b : Dy) : Dy := ⟨a.m * b.m, a.e + b.e⟩

/-- `⌊d⌋` of a non-negative dyadic, or of its magnitude: truncation toward zero. -/
def Dy.trunc (d : Dy) : Int :=
  let q : Nat := if d.e ≥ 0 then d.m.natAbs * 2 ^ d.e.toNat else d.m.natAbs / 2 ^ (-d.e).toNat
  if d.m < 0 then -(q : Int) else q

/-- `a > b` on dyadic numbers. -/
def Dy.gt (a b : Dy) : Bool := (Dy.add a (Dy.neg b)).m > 0

/-! ### IEEE 754 binary32 operations, nearest even, unfused (R288) -/

/-- `x + y`. -/
def fadd (x y : Nat) : Nat :=
  match f32Val x, f32Val y with
  | .nan, _ => f32NaN
  | _, .nan => f32NaN
  | .inf a, .inf b => if a = b then x else f32NaN
  | .inf _, _ => x
  | _, .inf _ => y
  | .fin a _ _, .fin b _ _ =>
    let d := Dy.add (f32Dy x) (f32Dy y)
    if d.m = 0 then ofBool (a && b) * 2 ^ 31 else d.toF32

/-- `-x`. -/
def fneg (x : Nat) : Nat := if x < 2 ^ 31 then x + 2 ^ 31 else x - 2 ^ 31

/-- `x - y`. -/
def fsub (x y : Nat) : Nat := fadd x (fneg y)

/-- `x × y`. -/
def fmul (x y : Nat) : Nat :=
  match f32Val x, f32Val y with
  | .nan, _ => f32NaN
  | _, .nan => f32NaN
  | .inf a, .inf b => ofBool (a != b) * 2 ^ 31 + 0x7F800000
  | .inf a, .fin b m _ => if m = 0 then f32NaN else ofBool (a != b) * 2 ^ 31 + 0x7F800000
  | .fin a m _, .inf b => if m = 0 then f32NaN else ofBool (a != b) * 2 ^ 31 + 0x7F800000
  | .fin a m e, .fin b n f => f32Pack (a != b) (m * n) (e + f)

/-- `x ÷ y`. The quotient is formed to 64 bits below the divisor and its remainder kept as a sticky bit. -/
def fdiv (x y : Nat) : Nat :=
  match f32Val x, f32Val y with
  | .nan, _ => f32NaN
  | _, .nan => f32NaN
  | .inf _, .inf _ => f32NaN
  | .inf a, .fin b _ _ => ofBool (a != b) * 2 ^ 31 + 0x7F800000
  | .fin a _ _, .inf b => ofBool (a != b) * 2 ^ 31
  | .fin a m e, .fin b n f =>
    if n = 0 then (if m = 0 then f32NaN else ofBool (a != b) * 2 ^ 31 + 0x7F800000)
    else
      let num := m * 2 ^ 64
      let q := num / n
      f32Pack (a != b) (2 * q + ofBool (num % n != 0)) (e - f - 65)

/-- The integer square root of `n`, one result bit a turn from bit `k - 1` down. -/
def isqrtFrom (n : Nat) : Nat → Nat → Nat
  | 0, r => r
  | k + 1, r =>
    let c := r + 2 ^ k
    if c * c ≤ n then isqrtFrom n k c else isqrtFrom n k r

/-- `⌊√n⌋`. -/
def isqrt (n : Nat) : Nat := isqrtFrom n (bitlen n / 2 + 1) 0

/-- The square root of `m · 2^e`, nearest even, as a non-negative binary32 pattern. -/
def sqrtDy (m : Nat) (e : Int) : Nat :=
  let (m', e') := if e % 2 = 0 then (m, e) else (2 * m, e - 1)
  let n := m' * 2 ^ 64
  let r := isqrt n
  f32Pack false (2 * r + ofBool (r * r != n)) (e' / 2 - 33)

/-- `√x`; the square root of a negative number is NaN, of a negative zero itself. -/
def fsqrt (x : Nat) : Nat :=
  match f32Val x with
  | .nan => f32NaN
  | .inf s => if s then f32NaN else x
  | .fin s m e => if m = 0 then x else if s then f32NaN else sqrtDy m e

/-- `x > y` on binary32 patterns; false if either is NaN. -/
def fgt (x y : Nat) : Bool :=
  match f32Val x, f32Val y with
  | .nan, _ => false
  | _, .nan => false
  | .inf a, .inf b => !a && b
  | .inf a, _ => !a
  | _, .inf b => b
  | .fin .., .fin .. => Dy.gt (f32Dy x) (f32Dy y)

/-! ### bfloat16 and the ingress formats (R38, R39) -/

/-- A bfloat16 pattern widened to binary32. -/
def bf16Widen (b : Nat) : Nat := (b % 2 ^ 16) * 2 ^ 16

/-- A binary32 pattern rounded to nearest even to bfloat16, overflow to infinity. -/
def bf16Round (x : Nat) : Nat :=
  match f32Val x with
  | .nan => 0x7FC0
  | .inf s => ofBool s * 2 ^ 15 + 0x7F80
  | .fin s m e => ofBool s * 2 ^ 15 + Nat.min (packMag 8 (-133) m e) 0x7F80

/-- The value of an 8-bit floating code with `eb` exponent bits, bias `bias` and `fb` fraction bits, as binary32. -/
def f8Widen (eb fb bias : Nat) (c : Nat) : Nat :=
  let ex := (c >>> fb) % 2 ^ eb
  let fr := c % 2 ^ fb
  let s := flag c 7
  if ex = 0 then f32Pack s fr (1 - (bias : Int) - fb)
  else f32Pack s (fr + 2 ^ fb) ((ex : Int) - bias - fb)

/-- Bytes of one ingress element of a format code (Table 2-1); a reserved code takes 4 (R38). -/
def ingressBytes (fmt : Nat) : Nat :=
  match fmt with
  | 1 => 2
  | 2 => 1
  | 3 => 1
  | _ => 4

/-- One ingress element widened exactly to binary32, or `none` where its encoding is non-finite (Table 2-1, R39). -/
def ingressWiden (fmt v : Nat) : Option Nat :=
  match fmt with
  | 0 => if f32NonFinite v then none else some v
  | 1 => if f32NonFinite (bf16Widen v) then none else some (bf16Widen v)
  | 2 => if v % 128 = 127 then none else some (f8Widen 4 3 7 v)
  | 3 => if field v 6 2 = 31 then none else some (f8Widen 5 2 15 v)
  | _ => none

/-- Negative zero is treated as zero everywhere (R39). -/
def plusZero (b : Nat) : Nat := if b = 2 ^ 31 then 0 else b

/-! ### Scales, quantisation and residual (R46, R50, R51) -/

/-- `ceil_log2_f32` of R46. -/
def ceilLog2F32 (b : Nat) : Int :=
  let ex := field b 30 23
  let fr := field b 22 0
  if ex = 0 ∧ fr = 0 then -149
  else if ex = 0 then -149 + bitlen (fr - 1)
  else if fr = 0 then (ex : Int) - 127
  else (ex : Int) - 126

/-- The shared exponent of a scaling unit from its history maximum (R46). -/
def scaleExp (maxBits margin q : Nat) : Int := ceilLog2F32 maxBits + margin - ((q : Int) - 1)

/-- `quantise` of R50: the code sent and whether it saturated. -/
def quantise (x : Nat) (e : Int) (q : Nat) : Int × Bool :=
  let d := f32Dy x
  let k := Dy.trunc ⟨d.m, d.e - e⟩
  let lim : Int := 2 ^ (q - 1) - 1
  if k > lim then (lim, true) else if k < -lim then (-lim, true) else (k, false)

/-- The residual `x - k · 2^e` of R51, nearest even, saturated as R52, and whether it saturated. -/
def residualOf (x : Nat) (k : Int) (e : Int) : Nat × Bool :=
  f32Sat (Dy.toF32 (Dy.add (f32Dy x) ⟨-k, e⟩))

/-- `r + g` of the residual store: nearest even, saturating (R52, R88). -/
def residualAdd (r g : Nat) : Nat × Bool := f32Sat (plusZero (Dy.toF32 (Dy.add (f32Dy r) (f32Dy g))))

/-- `S · 2^e` to binary32, nearest even, saturating (R60). -/
def dequantise (v : Int) (e : Int) : Nat × Bool := f32Sat (Dy.toF32 ⟨v, e⟩)

/-- The level scale of R58: `max(0, bitlen(mz - 1) + m - 7)`, 0 where `mz` is 0. -/
def levelShift (mz margin : Nat) : Nat := if mz = 0 then 0 else bitlen (mz - 1) + margin - 7

/-- A 48-bit signed sum saturated at `±(2^47 - 1)`, and whether it was (R56, R59). -/
def satTo (bits : Nat) (v : Int) : Int × Bool :=
  let lim : Int := 2 ^ (bits - 1) - 1
  if v > lim then (lim, true) else if v < -lim then (-lim, true) else (v, false)

/-- Requantisation of one element at the level boundary (R58): the code, the new level residual, saturation. -/
def requantise (z : Int) (s : Nat) : Int × Int × Bool :=
  let q : Int := (z.natAbs / 2 ^ s : Nat)
  let k := satTo 8 (if z < 0 then -q else q)
  (k.1, z - k.1 * 2 ^ s, k.2)

/-- A carried partial's element rescaled by `d = e_old - e_new` (R153): the value, saturation, and bits lost. -/
def rescale (v : Int) (d : Int) : Int × Bool × Bool :=
  if d ≥ 0 then
    let r := satTo 32 (v * 2 ^ d.toNat)
    (r.1, r.2, false)
  else
    let q : Nat := v.natAbs / 2 ^ (-d).toNat
    (if v < 0 then -(q : Int) else q, false, v.natAbs % 2 ^ (-d).toNat != 0)

/-! ### Heat (R93, R95, R97, R104) -/

/-- `heat_code` of R97. -/
def heatCode (g : Nat) : Nat :=
  let n := bitlen g
  if n ≤ 11 then g else (n - 11) * 2 ^ 11 + (g / 2 ^ (n - 12) - 2 ^ 11)

/-- `heat_value` of R97. -/
def heatValue (c : Nat) : Nat :=
  if c < 2 ^ 12 then c else (c % 2 ^ 11 + 2 ^ 11) * 2 ^ (c / 2 ^ 11 - 1)

/-- The exact sum of the squares of finite binary32 values, in units of `2^-300` (R66). -/
def squareUnits (x : Nat) : Nat :=
  match f32Val x with
  | .fin _ m e => m * m * 2 ^ (2 * e + 300).toNat
  | _ => 0

/-- The local heat `trunc(Σ x² · 2^-eh)` clamped to 32,767, and whether it was clamped (R93). -/
def localHeat (sumUnits : Nat) (eh : Int) : Nat × Bool :=
  let h := (Dy.trunc ⟨sumUnits, -300 - eh⟩).toNat
  if h > 32767 then (32767, true) else (h, false)

/-- The SIGN scale of a block (R104) from its heat code, the heat exponent and log2 of the group size; and whether the
block counts as a heat overflow. -/
def signScale (code : Nat) (eh : Int) (g : Nat) : Nat × Bool :=
  let v := heatValue code
  let e := eh - g - 10
  if v = 0 then (0, false)
  else
    let top := (bitlen v : Int) - 1 + e
    if top < -126 then (0, false)
    else if top > 127 then (f32Max, true)
    else (sqrtDy v e, false)

/-! ### Stochastic rounding (R53) -/

/-- Stochastic rounding of the magnitude `m · 2^e` to a grid of spacing `2^u` with the 16-bit draw `w`: the magnitude
in grid steps. -/
def stochSteps (m : Nat) (e u : Int) (w : Nat) : Nat :=
  if e ≥ u then m * 2 ^ (e - u).toNat
  else
    let k := (u - e).toNat
    let a := m / 2 ^ k
    let t := (m % 2 ^ k) * 2 ^ 16 / 2 ^ k
    if w < t then a + 1 else a

/-- Stochastic rounding to a format of `p` significand bits, least exponent `emin` and largest magnitude pattern `top`
(R53): the magnitude pattern and whether it saturated. -/
def stochMag (p : Nat) (emin : Int) (top : Nat) (m : Nat) (e : Int) (w : Nat) : Nat × Bool :=
  if m = 0 then (0, false)
  else
    let u := max ((bitlen m : Int) - 1 + e - (p - 1)) emin
    let r := (u - emin).toNat * 2 ^ (p - 1) + stochSteps m e u w
    if r > top then (top, true) else (r, false)

/-- A binary32 pattern stochastically rounded to bfloat16 (R72): the pattern and whether it saturated. -/
def bf16Stoch (x w : Nat) : Nat × Bool :=
  match f32Val x with
  | .fin s m e =>
    let r := stochMag 8 (-133) 0x7F7F m e w
    (ofBool s * 2 ^ 15 + r.1, r.2)
  | .inf s => (ofBool s * 2 ^ 15 + 0x7F7F, true)
  | .nan => (0, true)

/-! ### Norm registers (R65 to R69) -/

/-- A norm register: its value in units of `2^-300`, and the mark that it saturated (R65, R67). -/
structure Norm where
  units : Int
  sat : Bool
  deriving DecidableEq, Repr

/-- The empty norm register. -/
def Norm.zero : Norm := ⟨0, false⟩

/-- Saturation of a norm register: at `2^299 - 2^-300`, for a sum that reaches `2^299` or is negative (R67). -/
def Norm.clamp (u : Int) (sat : Bool) : Norm :=
  if sat || u ≥ 2 ^ 599 || u < 0 then ⟨2 ^ 599 - 1, true⟩ else ⟨u, false⟩

/-- A square added into a norm register (R66). -/
def Norm.addSquare (n : Norm) (x : Nat) : Norm := Norm.clamp (n.units + squareUnits x) n.sat

/-- Limb `i` of a norm register for a PICOT SUM (R68): limbs 0 to 18 unsigned, limb 19 signed. -/
def Norm.limb (n : Norm) (i : Nat) : Int :=
  if i < 19 then (n.units / 2 ^ (31 * i)) % 2 ^ 31 else n.units / 2 ^ (31 * 19)

/-- Limbs recombined after the picot, with R67 applied (R68). -/
def Norm.ofLimbs (limbs : List Int) : Norm :=
  Norm.clamp ((limbs.zipIdx).foldl (fun a p => a + p.1 * 2 ^ (31 * p.2)) 0) false

/-- A norm register to binary32 (R69): nearest even, 0 below `2^-149`, the largest finite value above the range. -/
def Norm.toF32 (n : Norm) : Nat :=
  if n.units < 2 ^ 151 then 0 else (f32Sat (f32Pack false n.units.natAbs (-300))).1

/-! ### MX blocks (R73 to R75) -/

/-- The block exponent for elements whose largest magnitude is `amax`: MXINT8 (`top` 0, bound 127/64) or E4M3 (`top` 8,
bound 448); and whether the floor -127 was met with a nonzero block (R74, R75). -/
def mxExp (int8 : Bool) (amax : Nat) : Int × Bool :=
  match f32Val amax with
  | .fin _ m e =>
    if m = 0 then (-127, false)
    else
      let top : Int := if int8 then 0 else 8
      let k := (bitlen m : Int) - 1 + e - top
      let lim : Dy := if int8 then ⟨127, -6⟩ else ⟨448, 0⟩
      let k' := if Dy.gt ⟨m, e - k⟩ lim then k + 1 else k
      if k' < -127 then (-127, true) else (min k' 127, false)
  | _ => (127, false)

/-- One MXINT8 element (R74): the two's complement code of `a · 2^-k` in steps of `2^-6`. -/
def mxInt8Elem (a : Nat) (k : Int) (w : Nat) : Nat :=
  match f32Val a with
  | .fin s m e =>
    let n := Nat.min (stochSteps m (e - k) (-6) w) 127
    twos 8 (if s then -(n : Int) else n)
  | _ => 0

/-- One E4M3 element (R74): the code of `a · 2^-k`, between 0 and 448, with subnormals kept. -/
def mxE4M3Elem (a : Nat) (k : Int) (w : Nat) : Nat :=
  match f32Val a with
  | .fin _ m e => (stochMag 4 (-9) 0x7E m (e - k) w).1
  | _ => 0

/-- A moment block written (R73, R74): the scale byte before its elements; whether the floor was met. -/
def mxWrite (int8 : Bool) (xs ws : List Nat) : List Byte × Bool :=
  let k := mxExp int8 (maxNat (xs.map f32Abs))
  let el := fun p : Nat × Nat => BitVec.ofNat 8 (if int8 then mxInt8Elem p.1 k.1 p.2 else mxE4M3Elem p.1 k.1 p.2)
  (BitVec.ofInt 8 (k.1 + 127) :: (xs.zip ws).map el, k.2)

/-- A moment block read (R73, R75): its elements as binary32, and whether it was unreadable (then all zero). -/
def mxRead (int8 : Bool) (bs : List Byte) : List Nat × Bool :=
  match bs with
  | [] => ([], false)
  | sc :: es =>
    let bad := sc = 0xFF#8 || (!int8 && es.any (fun b => b.toNat % 128 = 127))
    if bad then (es.map (fun _ => 0), true)
    else
      let k : Int := (sc.toNat : Int) - 127
      (es.map (fun b =>
        if int8 then Dy.toF32 ⟨sext 8 b.toNat, k - 6⟩
        else
          let d := f32Dy (f8Widen 4 3 7 b.toNat)
          Dy.toF32 ⟨d.m, d.e + k⟩), false)

/-! ### Compensated parameters (R70, R71) -/

/-- The compensated add of R71: new `hi`, `lo`, and whether it saturated. -/
def compensatedAdd (hi lo d : Nat) : Nat × Nat × Bool :=
  let p := fadd (bf16Widen hi) (bf16Widen lo)
  let p2 := fadd p d
  let h := bf16Round p2
  if h % 2 ^ 15 ≥ 0x7F80 then ((h / 2 ^ 15) * 2 ^ 15 + 0x7F7F, 0, true)
  else (h, bf16Round (fsub p2 (bf16Widen h)), false)

end Sys2Proof.Machine
end

