-- ==== Sys2Proof/Machine/Daiviril.lean ====
section
/-! DEFINITION. Daiviril, the engine's lossless coding (06_daiviril_coding): splits, code construction, table records,
block headers, and the block coder and decoder with the validity rows of Table 6-8. Byte for byte, as R206 to R216 and
R230 give them. -/

namespace Sys2Proof.Machine

/-- Element width in bytes of a split code (Table 6-1), 0 for a reserved code. -/
def splitWidth (split : Nat) : Nat :=
  match split with
  | 0 => 1
  | 1 => 1
  | 2 => 2
  | 3 => 4
  | 4 => 2
  | 5 => 4
  | _ => 0

/-- Codes a split uses (R216). -/
def splitCodes (split : Nat) : Nat := if split = 2 then 2 else if split = 3 then 4 else 1

/-- The split is one of the integer splits I8, I16, I32. -/
def splitIsInt (split : Nat) : Bool := 1 ≤ split && split ≤ 3

/-- The elements of a block as unsigned numbers of the split's width. -/
def splitElems (split : Nat) (bs : List Byte) : List Nat := (pieces (splitWidth split) bs).map leNat

/-- The magnitude of an element of an integer split (R213). -/
def intMag (split v : Nat) : Nat := (sext (8 * splitWidth split) v).natAbs

/-- The coded planes of a block, code index 0 first (R206, R212). -/
def codedPlanes (split : Nat) (bs : List Byte) : List (List Nat) :=
  let es := splitElems split bs
  match split with
  | 4 => [es.map (fun v => field v 14 7)]
  | 5 => [es.map (fun v => field v 30 23)]
  | _ =>
    if splitIsInt split then
      (List.range (splitCodes split)).map (fun j => es.map (fun v => (intMag split v >>> (8 * j)) % 256))
    else [es]

/-- The raw planes of a block with their field widths, in the order of Table 6-1. -/
def rawPlanes (split : Nat) (bs : List Byte) : List (Nat × List Nat) :=
  let es := splitElems split bs
  match split with
  | 4 => [(1, es.map (fun v => field v 15 15)), (7, es.map (fun v => field v 6 0))]
  | 5 => [(1, es.map (fun v => field v 31 31)), (23, es.map (fun v => field v 22 0))]
  | _ => if splitIsInt split then [(1, es.map (fun v => field v (8 * splitWidth split - 1) (8 * splitWidth split - 1)))] else []

/-- A raw plane packed: field `i` of `k` bits occupies bits `[k·i + k - 1 : k·i]` (R212). -/
def packPlane (k : Nat) (vs : List Nat) : List Byte :=
  leBytes (ceilDiv (k * vs.length) 8) (vs.foldr (fun v acc => v % 2 ^ k + acc * 2 ^ k) 0)

/-- The field widths of the raw planes of a split. -/
def rawWidths (split : Nat) : List Nat :=
  match split with
  | 4 => [1, 7]
  | 5 => [1, 23]
  | _ => if splitIsInt split then [1] else []

/-- Byte count of the raw planes of a block of `n` elements (R211). -/
def rawBytes (split n : Nat) : Nat := sumNat ((rawWidths split).map (fun k => ceilDiv (k * n) 8))

/-! ### Code construction (R214, R215) -/

/-- A node of the code tree: weight, key, and the depth of each leaf under it. -/
structure CodeNode where
  weight : Nat
  key : Nat
  leaves : List (Nat × Nat)
  deriving DecidableEq, Repr

/-- The node of least (weight, key). -/
def leastNode (n : CodeNode) (ns : List CodeNode) : CodeNode :=
  ns.foldl (fun a b => if b.weight < a.weight ∨ (b.weight = a.weight ∧ b.key < a.key) then b else a) n

/-- `fuel` merges of the two least nodes (R214). -/
def mergeNodes : Nat → Nat → List CodeNode → List CodeNode
  | 0, _, ns => ns
  | fuel + 1, n, ns =>
    match ns with
    | [] => []
    | [x] => [x]
    | x :: xs =>
      let a := leastNode x xs
      let rest := ns.filter (fun c => c.key ≠ a.key)
      match rest with
      | [] => ns
      | y :: ys =>
        let b := leastNode y ys
        let rest' := rest.filter (fun c => c.key ≠ b.key)
        mergeNodes fuel (n + 1)
          (⟨a.weight + b.weight, 256 + n, (a.leaves ++ b.leaves).map (fun l => (l.1, l.2 + 1))⟩ :: rest')

/-- The Kraft sum in units of `2^-15`. -/
def kraft (ls : List Nat) : Nat := sumNat (ls.map (fun l => 2 ^ (15 - l)))

/-- The lengthen loop of R214. -/
def lengthen : Nat → List Nat → List Nat
  | 0, ls => ls
  | fuel + 1, ls =>
    if kraft ls ≤ 2 ^ 15 then ls
    else
      let best := (indexed ls).foldl
        (fun (a : Option (Nat × Nat)) p =>
          if p.2 < 15 then
            match a with
            | none => some p
            | some q => if p.2 ≥ q.2 then some p else a
          else a) none
      match best with
      | none => ls
      | some p => lengthen fuel (setAt ls p.1 (p.2 + 1))

/-- The give-back loop of R214. -/
def giveBack (ws : List Nat) : Nat → List Nat → List Nat
  | 0, ls => ls
  | fuel + 1, ls =>
    let k := kraft ls
    let best := (indexed (ls.zip ws)).foldl
      (fun (a : Option (Nat × Nat × Nat)) p =>
        if p.2.1 > 1 ∧ k + 2 ^ (15 - p.2.1) ≤ 2 ^ 15 then
          match a with
          | none => some (p.1, p.2.1, p.2.2)
          | some q => if p.2.2 > q.2.2 then some (p.1, p.2.1, p.2.2) else a
        else a) none
    match best with
    | none => ls
    | some q => giveBack ws fuel (setAt ls q.1 (q.2.1 - 1))

/-- `build_lengths` of R214: the 256 codeword lengths of a histogram. -/
def buildLengths (hist : List Nat) : List Nat :=
  let ws := (List.range 256).map (fun s => nth hist s 0 + 1)
  let leaves := (indexed ws).map (fun p => (⟨p.2, p.1, [(p.1, 0)]⟩ : CodeNode))
  let tree := mergeNodes 256 0 leaves
  let depths := tree.flatMap (·.leaves)
  let l0 := (List.range 256).map (fun s => Nat.min (Tab.get 0 depths s) 15)
  giveBack ws 4096 (lengthen 4096 l0)

/-- One codeword: symbol, length, code (R215). -/
structure Codeword where
  sym : Nat
  len : Nat
  code : Nat
  deriving DecidableEq, Repr

/-- Canonical codewords from the lengths, in ascending (length, symbol) (R215). -/
def canonical (ls : List Nat) : List Codeword :=
  let order := (List.range 16).flatMap (fun l => (indexed ls).filter (fun p => p.2 = l && l ≠ 0))
  (order.foldl (fun (acc : List Codeword × Nat × Nat) p =>
    let c := acc.2.1 * 2 ^ (p.2 - acc.2.2)
    (⟨p.1, p.2, c⟩ :: acc.1, c + 1, p.2)) ([], 0, 0)).1.reverse

/-! ### Table records (R216) -/

/-- A table record: generation, split and the lengths of its codes. -/
structure TableRec where
  gen : Nat
  split : Nat
  codes : List (List Nat)
  deriving DecidableEq, Repr, Inhabited

/-- The 128 bytes of one code's lengths: even symbols in the low half of a byte. -/
def packLengths (ls : List Nat) : List Byte :=
  (List.range 128).map (fun i => BitVec.ofNat 8 (nth ls (2 * i) 0 % 16 + 16 * (nth ls (2 * i + 1) 0 % 16)))

/-- The 520 bytes of a table record (Table 6-4). -/
def TableRec.bytes (t : TableRec) : List Byte :=
  let body := (List.range 4).flatMap (fun c => packLengths (nth t.codes c []))
  leBytes 4 (t.gen % 64 + t.split % 16 * 2 ^ 8 + (splitCodes t.split - 1) * 2 ^ 12) ++ leBytes 4 (crc32c body) ++ body

/-- The lengths that 128 bytes hold. -/
def unpackLengths (bs : List Byte) : List Nat := bs.flatMap (fun b => [b.toNat % 16, b.toNat / 16])

/-- A table record read from 520 bytes, if it is valid (R216). -/
def TableRec.parse (bs : List Byte) : Option TableRec :=
  let w0 := bytesAt bs 0 4
  let body := (bs.drop 8).take 512
  let split := field w0 11 8
  let n := field w0 13 12 + 1
  let codes := (List.range 4).map (fun c => unpackLengths ((body.drop (128 * c)).take 128))
  let ok := bs.length = 520 && bytesAt bs 4 4 = crc32c body && field w0 31 14 = 0 && field w0 7 6 = 0 &&
    splitWidth split ≠ 0 && n = splitCodes split &&
    (indexed codes).all (fun p =>
      if p.1 < n then p.2.all (fun l => 1 ≤ l) && kraft p.2 ≤ 2 ^ 15
      else p.2.all (· = 0))
  if ok then some ⟨field w0 5 0, split, codes.take n⟩ else none

/-- The flat table of R229: every length 8. -/
def flatTable (gen split : Nat) : TableRec := ⟨gen, split, List.replicate (splitCodes split) (List.replicate 256 8)⟩

/-! ### Block headers (R208 to R210) -/

/-- A block header (Table 6-3). -/
structure BlockHead where
  bank : Nat
  gen : Nat
  split : Nat
  raw : Bool
  clen : Nat
  ulen : Nat
  deriving DecidableEq, Repr

/-- The 8 bytes of a block header, its HCRC over the first seven (R209). -/
def BlockHead.bytes (h : BlockHead) : List Byte :=
  let w := h.ulen % 2 ^ 13 * 2 ^ 17 + h.clen % 2 ^ 13 * 2 ^ 30 + ofBool h.raw * 2 ^ 43 + h.split % 16 * 2 ^ 44 +
    h.gen % 64 * 2 ^ 48 + h.bank % 4 * 2 ^ 54
  let b7 := leBytes 7 w
  b7 ++ [BitVec.ofNat 8 (crc8 b7)]

/-- A block header read from 8 bytes: the header, and whether HCRC and the reserved bits are good. -/
def BlockHead.parse (bs : List Byte) : BlockHead × Bool :=
  let w := bytesAt bs 0 8
  (⟨field w 55 54, field w 53 48, field w 47 44, flag w 43, field w 42 30, field w 29 17⟩,
   bs.length = 8 && field w 63 56 = crc8 (bs.take 7) && field w 16 0 = 0)

/-! ### Coding one block (R211, R212, R222) -/

/-- Bits packed into bytes from bit 7 down, the last byte padded with zero bits (R212). -/
def packBits (bits : List Bool) : List Byte :=
  (pieces 8 bits).map (fun bs =>
    BitVec.ofNat 8 (((List.range 8).map (fun i => ofBool (nth bs i false) * 2 ^ (7 - i))).foldl (· + ·) 0))

/-- The bits of a codeword, most significant first. -/
def codeBits (w : Codeword) : List Bool := (List.range w.len).map (fun i => flag w.code (w.len - 1 - i))

/-- The codeword of a symbol. -/
def codeOf (cs : List Codeword) (s : Nat) : Codeword := (cs.find? (fun w => w.sym = s)).getD ⟨s, 0, 0⟩

/-- The symbols of a block with the index of the code that each uses: plane order, then element order (R212). -/
def blockSymbols (split : Nat) (bs : List Byte) : List (Nat × Nat) :=
  (indexed (codedPlanes split bs)).flatMap (fun p => p.2.map (fun s => (p.1, s)))

/-- The symbols of lane `i`: every sixteenth from `i` on. -/
def laneOf {α : Type} (i : Nat) (xs : List α) : List α :=
  ((indexed xs).filter (fun p => p.1 % 16 = i)).map (·.2)

/-- The sixteen lanes of a block as bit streams. -/
def blockLanes (t : TableRec) (bs : List Byte) : List (List Bool) :=
  let cs := t.codes.map canonical
  let sy := blockSymbols t.split bs
  (List.range 16).map (fun i => (laneOf i sy).flatMap (fun p => codeBits (codeOf (nth cs p.1 []) p.2)))

/-- The payload of the coded form of a block (R211). -/
def codedPayload (t : TableRec) (bs : List Byte) : List Byte :=
  let lanes := (blockLanes t bs).map packBits
  (lanes.take 15).flatMap (fun l => leBytes 2 l.length) ++ lanes.flatten ++
    (rawPlanes t.split bs).flatMap (fun p => packPlane p.1 p.2)

/-- Encoder cycles of a block (R232). -/
def encodeCycles (t : TableRec) (bs : List Byte) : Nat :=
  let sy := blockSymbols t.split bs
  let ls := blockLanes t bs
  2 + maxNat ((List.range 16).map (fun i => Nat.max (ceilDiv (laneOf i sy).length 4) (ceilDiv (nth ls i []).length 32)))

/-- The raw form of a block (R210); `gen` is 0 in a carried stream and the object's in a stored object. -/
def rawBlock (split gen : Nat) (bs : List Byte) : List Byte :=
  (⟨0, gen, split, true, bs.length, bs.length⟩ : BlockHead).bytes ++ bs

/-- The coded form of a block, or `none` where it would not be shorter (R222). -/
def codedBlock (t : TableRec) (bank : Nat) (bs : List Byte) : Option (List Byte) :=
  let p := codedPayload t bs
  if p.length < bs.length then some ((⟨bank, t.gen, t.split, false, p.length, bs.length⟩ : BlockHead).bytes ++ p) else none

/-- The histogram of a block for each code of its split, added to `hist` with 32-bit saturation (R214, R224). -/
def addHistogram (split : Nat) (hist : List (List Nat)) (bs : List Byte) : List (List Nat) :=
  let planes := codedPlanes split bs
  (List.range (splitCodes split)).map (fun c =>
    (nth planes c []).foldl (fun h s => modifyAt h s (fun n => stick32 (n + 1)))
      (nth hist c (List.replicate 256 0)))

/-! ### Decoding (R230, Table 6-8) -/

/-- Why a block fails: the error class of Table 6-8. -/
inductive CodeFault where
  | malformed
  | tableGen
  deriving DecidableEq, Repr

/-- One symbol from a bit stream: at most 15 bits taken; `none` for no codeword, `some none` for a stream run short. -/
def decodeSym (cs : List Codeword) : Nat → Nat → Nat → List Bool → Option (Option (Nat × List Bool))
  | 0, _, _, _ => none
  | _ + 1, _, _, [] => some none
  | fuel + 1, len, code, b :: bits =>
    let len' := len + 1
    let code' := code * 2 + ofBool b
    match cs.find? (fun w => w.len = len' && w.code = code') with
    | some w => some (some (w.sym, bits))
    | none => decodeSym cs fuel len' code' bits

/-- The symbols of one lane, each with its own code; rows 5, 6, 7 and 8 of Table 6-8. -/
def decodeLane (codes : List (List Codeword)) : List Nat → List Bool → Option (List Nat)
  | [], bits => if bits.length < 8 && bits.all (fun b => !b) then some [] else none
  | c :: cs, bits =>
    match decodeSym (nth codes c []) 15 0 0 bits with
    | some (some (s, rest)) => (decodeLane codes cs rest).map (fun ss => s :: ss)
    | _ => none

/-- The bits of a byte string, bit 7 of each byte first. -/
def bytesBits (bs : List Byte) : List Bool := bs.flatMap (fun b => (List.range 8).map (fun i => flag b.toNat (7 - i)))

/-- The fields of a raw plane, and whether its padding bits are zero (row 8). -/
def unpackPlane (k n : Nat) (bs : List Byte) : List Nat × Bool :=
  let v := leNat bs
  ((List.range n).map (fun i => (v >>> (k * i)) % 2 ^ k), v >>> (k * n) = 0)

/-- The cut lengths of the lanes of a coded payload: lanes 0 to 14 from the directory, lane 15 the rest. -/
def laneLengths (payload : List Byte) (r : Nat) : List Nat :=
  let d := (List.range 15).map (fun i => bytesAt payload (2 * i) 2)
  d ++ [payload.length - 30 - r - sumNat d]

/-- A list cut at the given lengths. -/
def cutAt {α : Type} : List Nat → List α → List (List α)
  | [], _ => []
  | n :: ns, xs => xs.take n :: cutAt ns (xs.drop n)

/-- Element `i` rebuilt from its symbols and raw fields, or `none` where row 9 of Table 6-8 refuses it. -/
def joinElem (split : Nat) (syms raws : List Nat) : Option Nat :=
  let w := 8 * splitWidth split
  match split with
  | 4 => some (nth raws 1 0 + nth syms 0 0 * 2 ^ 7 + nth raws 0 0 * 2 ^ 15)
  | 5 => some (nth raws 1 0 + nth syms 0 0 * 2 ^ 23 + nth raws 0 0 * 2 ^ 31)
  | _ =>
    if splitIsInt split then
      let mag := (syms.zipIdx).foldl (fun a p => a + p.1 * 2 ^ (8 * p.2)) 0
      if nth raws 0 0 = 1 then
        (if mag = 0 || mag > 2 ^ (w - 1) then none else some (2 ^ w - mag))
      else if mag ≥ 2 ^ (w - 1) then none else some mag
    else some (nth syms 0 0)

/-- The bytes of a coded payload of `ulen` uncoded bytes (rows 4 to 9 of Table 6-8). -/
def decodePayload (t : TableRec) (ulen : Nat) (p : List Byte) : Except CodeFault (List Byte) :=
  let width := splitWidth t.split
  let n := ulen / width
  let r := rawBytes t.split n
  let dir := sumNat ((List.range 15).map (fun i => bytesAt p (2 * i) 2))
  if p.length < 30 + r || dir > p.length - 30 - r then .error .malformed
  else
    let lens := laneLengths p r
    let lanes := cutAt lens (p.drop 30)
    let codes := t.codes.map canonical
    let nc := splitCodes t.split
    let idx := (List.range nc).flatMap (fun c => List.replicate n c)
    let decoded := (indexed lanes).map (fun l => decodeLane codes (laneOf l.1 idx) (bytesBits l.2))
    if decoded.any (·.isNone) then .error .malformed
    else
      let ls := decoded.map (fun o => o.getD [])
      let sym := fun j => nth (nth ls (j % 16) []) (j / 16) 0
      let widths := rawWidths t.split
      let planes := (widths.zip (cutAt (widths.map (fun k => ceilDiv (k * n) 8)) (p.drop (p.length - r)))).map
        (fun q => unpackPlane q.1 n q.2)
      if planes.any (fun q => !q.2) then .error .malformed
      else
        let es := (List.range n).map (fun i =>
          joinElem t.split ((List.range nc).map (fun c => sym (c * n + i))) (planes.map (fun q => nth q.1 i 0)))
        if es.any (·.isNone) then .error .malformed
        else .ok (es.flatMap (fun e => leBytes width (e.getD 0)))

/-- The blocks of a coded chunk decoded in order (R230). `bankOf` gives the table of a bank and generation. -/
def decodeBlocks (split : Nat) (bankOf : Nat → Nat → Option TableRec) :
    Nat → List Byte → Except CodeFault (List Byte)
  | 0, bs => if bs = [] then .ok [] else .error .malformed
  | fuel + 1, bs =>
    if bs = [] then .ok []
    else
      let hp := BlockHead.parse (bs.take 8)
      let h := hp.1
      let rest := bs.drop 8
      let more := rest.length > h.clen
      if !hp.2 || h.split ≠ split then .error .malformed
      else if h.ulen = 0 || h.ulen > 4096 || (h.ulen ≠ 4096 && more) || h.ulen % splitWidth split ≠ 0 ||
          (if h.raw then h.clen ≠ h.ulen else h.clen = 0 || h.clen ≥ h.ulen) || h.clen > rest.length then
        .error .malformed
      else
        let p := rest.take h.clen
        let one : Except CodeFault (List Byte) :=
          if h.raw then .ok p
          else
            match bankOf h.bank h.gen with
            | none => .error .tableGen
            | some t => decodePayload t h.ulen p
        match one with
        | .error e => .error e
        | .ok u =>
          match decodeBlocks split bankOf fuel (rest.drop h.clen) with
          | .error e => .error e
          | .ok us => .ok (u ++ us)

/-- A coded chunk decoded to exactly `u` bytes (row 10 of Table 6-8), or its first failure. -/
def decodeChunk (split u : Nat) (bankOf : Nat → Nat → Option TableRec) (bs : List Byte) : Except CodeFault (List Byte) :=
  match decodeBlocks split bankOf (bs.length / 8 + 1) bs with
  | .error e => .error e
  | .ok out => if out.length = u then .ok out else .error .malformed

/-! ### Stored objects (R227) -/

/-- The header, table record, index and blocks of a stored object. -/
structure StoredObject where
  ulen : Nat
  nblocks : Nat
  dataLen : Nat
  table : TableRec
  index : List (Nat × Nat)
  deriving DecidableEq, Repr

/-- The OCRC of a stored object: header bytes [11:0] and [63:16], the table record, the index (Table 6-6). -/
def objectCrc (head table index : List Byte) : Nat := crc32c (head.take 12 ++ (head.drop 16).take 48 ++ table ++ index)

/-- The 64 header bytes of a stored object, from its lengths, table and index. -/
def objectHeader (ulen nblocks dataLen : Nat) (table index : List Byte) : List Byte :=
  let h := leBytes 8 ulen ++ leBytes 4 nblocks ++ leBytes 4 0 ++ leBytes 8 dataLen ++ zeros 40
  leBytes 8 ulen ++ leBytes 4 nblocks ++ leBytes 4 (objectCrc h table index) ++ leBytes 8 dataLen ++ zeros 40

/-- The uncoded bytes of a stored object held whole in `bs`, if it is valid (R227, Table 6-8). -/
def readObject (bs : List Byte) : Option (List Byte) :=
  let head := bs.take 64
  let tb := (bs.drop 64).take 520
  let n := bytesAt head 8 3
  let ulen := bytesAt head 0 5
  let idx := (bs.drop 1024).take (8 * n)
  let dl := bytesAt head 16 5
  let blocks := (bs.drop (1024 + 8 * n)).take dl
  match TableRec.parse tb with
  | none => none
  | some t =>
    if bytesAt head 12 4 = objectCrc head tb idx && bytesAt head 5 3 = 0 && bytesAt head 11 1 = 0 && n = ceilDiv ulen 4096 then
      match decodeChunk t.split ulen (fun b g => if b = 0 && g = t.gen then some t else none) blocks with
      | .ok u => some u
      | .error _ => none
    else none

end Sys2Proof.Machine
end

