-- ==== Sys2Proof/Machine/Pricking.lean ====
section
/-! DEFINITION. The pricking (chapter The Pricking: Schedule Contract): its header, pitch table, prusik table, open pitch
table, memory descriptors, payload map and pins, as the engine decodes them from the byte string of R505. -/

namespace Sys2Proof.Machine

/-- The pricking header (R163, Table 5-1). -/
structure PricHead where
  format : Nat
  lStep : Nat
  lEval : Nat
  nEval : Nat
  nCkpt : Nat
  lCkpt : Nat
  hN : Nat
  hXY : Nat
  hW : Nat
  hAux : Nat
  nPitch : Nat
  nOpen : Nat
  aSlice : List Nat
  aStation : List Nat
  nPrusik : Nat
  nPmap : Nat
  nMdesc : Nat
  resv : Nat
  deriving DecidableEq, Repr, Inhabited

/-- A pin (R166, Table 5-2). -/
structure Pin where
  tick : Nat
  op : Nat
  slice : Nat
  portq : Nat
  aux : Bool
  wide : Bool
  coded : Bool
  release : Bool
  group : Nat
  pitch : Nat
  chunk : Nat
  buf : Nat
  arg : Nat
  deriving DecidableEq, Repr, Inhabited

/-- A pitch record (R170, Table 5-4). -/
structure Pitch where
  group : Nat
  axis : Nat
  round : Nat
  kind : Nat
  format : Nat
  owidth : Nat
  csize : Nat
  routed : Bool
  carry : Bool
  coded : Bool
  cutoff : Nat
  prusikCutoff : Nat
  guard : Nat
  hops : Nat
  ageMax : Nat
  chunks : Nat
  prusikFirst : Nat
  prusikCount : Nat
  root : Nat
  resv : Nat
  deriving DecidableEq, Repr, Inhabited

/-- A prusik table entry (R171). -/
structure PrusikEnt where
  chunk : Nat
  rank : Nat
  coord : Nat
  spitch : Nat
  schunk : Nat
  resv : Nat
  deriving DecidableEq, Repr, Inhabited

/-- An open pitch record (R187, Table 5-10). -/
structure OpenRec where
  length : Nat
  slices : Nat
  vcs : Nat
  portsLo : Nat
  portsHi : Nat
  bufFirst : Nat
  bufCount : Nat
  memBytes : Nat
  coderTicks : Nat
  maxPins : Nat
  resv : Nat
  deriving DecidableEq, Repr, Inhabited

/-- A memory descriptor (R171). -/
structure MDesc where
  base : Nat
  length : Nat
  kind : Nat
  resv : Nat
  deriving DecidableEq, Repr, Inhabited

/-- A payload map entry (R503). -/
structure PMapEnt where
  first : Nat
  count : Nat
  pitch : Nat
  tensor : Nat
  unit : Nat
  set : Nat
  resv : Nat
  deriving DecidableEq, Repr, Inhabited

/-- A pricking (R162): header, tables, and the 30 streams in directory order (section by section, ten streams each),
with the byte string they were read from. -/
structure Pricking where
  head : PricHead
  pitches : List Pitch
  prusiks : List PrusikEnt
  opens : List OpenRec
  mdescs : List MDesc
  pmap : List PMapEnt
  streams : List (List Pin)
  bytes : List Byte
  deriving DecidableEq, Repr, Inhabited

/-- "No buffer" in a BUF or ARG field (R166). -/
def noBuffer : Nat := 0x1FFF

/-- Bits `[hi:lo]` of the little-endian structure `w`, beyond 32 bits (R4, R5). -/
def words (n k : Nat) (bs : List Byte) : List Nat := (List.range k).map (fun i => bytesAt bs (n * i) n)

/-- The header read from its 128 bytes (Table 5-1). -/
def PricHead.parse (bs : List Byte) : PricHead :=
  { format := bytesAt bs 0 4, lStep := bytesAt bs 4 4, lEval := bytesAt bs 8 4, nEval := bytesAt bs 12 2,
    nCkpt := bytesAt bs 14 2, lCkpt := bytesAt bs 16 4, hN := bytesAt bs 20 2, hXY := bytesAt bs 22 2,
    hW := bytesAt bs 24 2, hAux := bytesAt bs 26 2, nPitch := bytesAt bs 28 2, nOpen := bytesAt bs 30 1,
    aSlice := words 2 8 (bs.drop 32), aStation := words 2 24 (bs.drop 48), nPrusik := bytesAt bs 96 4,
    nPmap := bytesAt bs 100 4, nMdesc := bytesAt bs 104 2, resv := bytesAt bs 31 1 + bytesAt bs 106 22 }

/-- A pin read from the little-endian number of its 16 bytes (Table 5-2). -/
def Pin.ofNat (w : Nat) : Pin :=
  { tick := field w 31 0, op := field w 36 32, slice := field w 39 37, portq := field w 49 40, aux := flag w 50,
    wide := flag w 51, coded := flag w 52, release := flag w 53, group := field w 61 54, pitch := field w 77 62,
    chunk := field w 101 78, buf := field w 114 102, arg := field w 127 115 }

/-- The 128-bit number of a pin (Table 5-2). -/
def Pin.toNat (p : Pin) : Nat :=
  p.tick + p.op * 2 ^ 32 + p.slice * 2 ^ 37 + p.portq * 2 ^ 40 + ofBool p.aux * 2 ^ 50 + ofBool p.wide * 2 ^ 51
    + ofBool p.coded * 2 ^ 52 + ofBool p.release * 2 ^ 53 + p.group * 2 ^ 54 + p.pitch * 2 ^ 62
    + p.chunk * 2 ^ 78 + p.buf * 2 ^ 102 + p.arg * 2 ^ 115

/-- The group in whose queue a pin is counted (R491): that of an opcode that names a pitch, and of HEAT. -/
def Pin.groupOf (p : Pin) : Option Nat :=
  if (1 ≤ p.op ∧ p.op ≤ 4) ∨ (p.op = 5 ∧ !p.aux) ∨ p.op = 7 ∨ (9 ≤ p.op ∧ p.op ≤ 13) then some p.group else none

/-- A pitch record read from its 32 bytes (Table 5-4). -/
def Pitch.parse (bs : List Byte) : Pitch :=
  let w := fun i => bytesAt bs (4 * i) 4
  { group := field (w 0) 31 24, axis := field (w 0) 23 21, round := field (w 0) 20 18, kind := field (w 0) 17 15,
    format := field (w 0) 14 11, owidth := field (w 0) 10 7, csize := field (w 0) 6 3, routed := flag (w 0) 2,
    carry := flag (w 0) 1, coded := flag (w 0) 0, cutoff := w 1, prusikCutoff := w 2, guard := field (w 3) 31 16,
    hops := field (w 3) 15 8, ageMax := field (w 3) 1 0, chunks := field (w 4) 23 0, prusikFirst := w 5,
    prusikCount := field (w 6) 15 0, root := field (w 7) 15 0,
    resv := field (w 3) 7 2 + field (w 4) 31 24 + field (w 6) 31 16 + field (w 7) 31 16 }

/-- A prusik table entry read from its number (R171). -/
def PrusikEnt.ofNat (w : Nat) : PrusikEnt :=
  ⟨field w 23 0, field w 39 24, field w 55 40, field w 71 56, field w 95 72, field w 127 96⟩

/-- An open pitch record read from its 32 bytes (Table 5-10). -/
def OpenRec.parse (bs : List Byte) : OpenRec :=
  let w := fun i => bytesAt bs (4 * i) 4
  { length := w 0, slices := field (w 1) 7 0, vcs := field (w 1) 11 8, portsLo := w 2, portsHi := field (w 3) 3 0,
    bufFirst := field (w 4) 12 0, bufCount := field (w 4) 25 13, memBytes := w 5, coderTicks := field (w 6) 15 0,
    maxPins := field (w 6) 27 16,
    resv := ofBool (flag (w 1) 11) + field (w 1) 31 12 + field (w 3) 31 4 + field (w 4) 31 26 + field (w 6) 31 28 + w 7 }

/-- A memory descriptor read from its number (R171). -/
def MDesc.ofNat (w : Nat) : MDesc := ⟨field w 43 0, field w 95 64, field w 97 96, field w 63 44 + field w 127 98⟩

/-- A payload map entry read from its number (R503). -/
def PMapEnt.ofNat (w : Nat) : PMapEnt :=
  ⟨field w 23 0, field w 47 24, field w 63 48, field w 83 64, field w 109 84, field w 111 110, field w 127 112⟩

/-- The records of a table of `n` records of `k` bytes that starts at `off`. -/
def tableAt {α : Type} (f : List Byte → α) (bs : List Byte) (off k n : Nat) : List α :=
  (List.range n).map (fun i => f ((bs.drop (off + k * i)).take k))

/-- The directory's 30 offsets and counts name streams that follow one another from `off` on; answers their end (R505). -/
def directoryEnd : Nat → List (Nat × Nat) → Option Nat
  | off, [] => some off
  | off, (o, n) :: rest => if 16 * o = off then directoryEnd (off + 16 * n) rest else none

/-- The pricking read from its byte string, or none where the layout of R505 is broken. -/
def Pricking.parse (bs : List Byte) : Option Pricking :=
  let h := PricHead.parse (bs.take 128)
  let dir := tableAt (fun e => (bytesAt e 0 4, bytesAt e 4 4)) bs 128 8 30
  let pit := 368
  let pru := pit + 32 * h.nPitch
  let opn := pru + 16 * h.nPrusik
  let mds := opn + 32 * h.nOpen
  let pmp := mds + 16 * h.nMdesc
  let str := pmp + 16 * h.nPmap
  match directoryEnd str dir with
  | none => none
  | some e =>
    if e ≠ bs.length then none
    else some
      { head := h, pitches := tableAt Pitch.parse bs pit 32 h.nPitch,
        prusiks := tableAt (fun x => PrusikEnt.ofNat (leNat x)) bs pru 16 h.nPrusik,
        opens := tableAt OpenRec.parse bs opn 32 h.nOpen,
        mdescs := tableAt (fun x => MDesc.ofNat (leNat x)) bs mds 16 h.nMdesc,
        pmap := tableAt (fun x => PMapEnt.ofNat (leNat x)) bs pmp 16 h.nPmap,
        streams := dir.map (fun d => tableAt (fun x => Pin.ofNat (leNat x)) bs (16 * d.1) 16 d.2), bytes := bs }

/-- The stream `st` (0 to 7 slices, 8 station, 9 engine) of section `sec` (0 step, 1 eval, 2 checkpoint) (R163). -/
def Pricking.stream (p : Pricking) (sec st : Nat) : List Pin := p.streams.getD (10 * sec + st) []

/-- The length in ticks of a section (Table 5-1). -/
def Pricking.length (p : Pricking) (sec : Nat) : Nat :=
  if sec = 0 then p.head.lStep else if sec = 1 then p.head.lEval else p.head.lCkpt

/-- The pitch record of number `n`. -/
def Pricking.pitchAt (p : Pricking) (n : Nat) : Pitch := p.pitches.getD n default

/-- The memory descriptor of number `n`. -/
def Pricking.mdescAt (p : Pricking) (n : Nat) : MDesc := p.mdescs.getD n default

/-- The payload map entry of a chunk of a scatter pitch (R503). -/
def Pricking.payload (p : Pricking) (pitch chunk : Nat) : Option PMapEnt :=
  p.pmap.find? (fun e => e.pitch = pitch && e.first ≤ chunk && chunk < e.first + e.count)

/-- The prusik entries of a pitch (R171). -/
def Pricking.prusiksOf (p : Pricking) (r : Pitch) : List PrusikEnt := (p.prusiks.drop r.prusikFirst).take r.prusikCount

/-- The prusik entry of an input slot (R149). -/
def Pricking.prusikAt (p : Pricking) (r : Pitch) (chunk rank : Nat) : Option PrusikEnt :=
  (p.prusiksOf r).find? (fun e => e.chunk = chunk && e.rank = rank)

/-! ### Published latencies (R172 to R174) -/

/-- The nominal chunk size C of a pitch in bytes (Table 5-4). -/
def Pitch.bytes (r : Pitch) : Nat := 2 ^ (r.csize + 12)

/-- Bits of one element in wire format `f` (Table 2-2): 1 Q16, 2 Q8, 3 S1, 8 W8, 9 W16, 0xA W24, 0xB W32. Other codes
count as bytes, the raw and picot chunks. -/
def formatBits (f : Nat) : Nat :=
  if f = 3 then 1 else if f = 1 then 16 else if f = 9 then 16 else if f = 10 then 24 else if f = 11 then 32 else 8

/-- E, the elements of a chunk of the pitch (Table 5-5). -/
def Pitch.elems (r : Pitch) : Nat := 8 * r.bytes / formatBits r.format

/-- B, the bytes of a chunk on the wire (Table 5-5). -/
def Pitch.wireBytes (r : Pitch) (coded : Bool) : Nat := if coded then r.bytes + r.bytes / 512 + 32 else r.bytes + 32

/-- W_p for `b` bytes on port `p` (Table 5-5). -/
def wireTicks (port b : Nat) : Nat :=
  if port = 36 then ceilDiv b 3000 else if port < 32 then ceilDiv b 750 else ceilDiv b 700

/-- The slice that carries a port (R31, Table 1-8). -/
def portSlice (p : Nat) : Nat := if p < 32 then p / 4 else p - 32

/-- x of Table 5-5: 6 for one die-to-die crossing. -/
def crossing (slice port : Nat) : Nat := if port = 36 then 6 else if portSlice port = slice then 0 else 6

/-- h_class of an axis (Table 5-5). -/
def PricHead.hop (h : PricHead) (axis : Nat) : Nat :=
  if axis = 1 then h.hN else if axis = 2 ∨ axis = 3 then h.hXY else if axis = 4 then h.hW else if axis = 5 then h.hAux else 0

/-- h_class of the port on which a window stands. -/
def PricHead.portHop (h : PricHead) (port : Nat) : Nat :=
  if port = 36 then 0 else if port ≥ 32 then h.hW else if port ≥ 30 then h.hAux
  else if port % 4 ≥ 2 then h.hN else h.hXY

/-- Path latency h over `hops` hops of `axis` (Table 5-5). -/
def PricHead.path (h : PricHead) (axis hops : Nat) : Nat := if axis = 0 then 0 else hops * h.hop axis + 12 * (hops - 1)

/-- The lane rate r of an output width (Table 5-5). -/
def laneRate (owidth : Nat) : Nat := if owidth = 8 then 6144 else 3072

/-- Memory allotment of a slice (Table 5-1). -/
def PricHead.slc (h : PricHead) (s : Nat) : Nat := h.aSlice.getD s 0

/-- Memory allotment of a station (Table 5-1). -/
def PricHead.sta (h : PricHead) (u : Nat) : Nat := h.aStation.getD u 0

end Sys2Proof.Machine
end

