-- ==== Sys2Proof/Machine/ImageTypes.lean ====
section
/-! DEFINITION. The image (Table 12-4): the sections other than the prickings, as the loader decodes them. The layouts of
the entries are those of the chapters' tables; where the manual gives a section no layout of its own, `Config` reads
it by a function without a body. -/

namespace Sys2Proof.Machine

/-- A tensor policy entry (R82, Table 3-3). `hist` is H, `mbs` is MBS, `n` derives from `elems`. -/
structure Policy where
  wideK : Nat
  margin : Nat
  hist : Nat
  unit : Nat
  mbs : Nat
  routed : Bool
  acc : Bool
  priv : Bool
  mode : Nat
  hmargin : Nat
  eInit : Int
  wideMax : Nat
  slices : Nat
  elems : Nat
  budget : Nat
  heatBase : Nat
  resBase : Nat
  histBase : Nat
  hgroup : Nat
  resv : Nat
  deriving DecidableEq, Repr, Inhabited

/-- An axis field of a group descriptor (Table 4-1). -/
structure AxisField where
  spans : Bool
  origin : Nat
  log2ext : Nat
  stride : Nat
  resv : Nat
  deriving DecidableEq, Repr, Inhabited

/-- A group descriptor (R116): its axis fields N, X, Y, W, and its 8 bytes. -/
structure GroupDesc where
  axes : List AxisField
  bytes : List Byte
  deriving DecidableEq, Repr, Inhabited

/-- An entry of the scale picot map (R49). -/
structure ScaleEnt where
  pitch : Nat
  level : Bool
  valid : Bool
  count : Nat
  tensor : Nat
  first : Nat
  resv : Nat
  deriving DecidableEq, Repr, Inhabited

/-- The belay block (R386, Table 11-1). -/
structure BelayBlock where
  role : Nat
  up : List Nat
  domain : Nat
  hold : Nat
  logDreq : Int
  logSync : Int
  refsel : Bool
  resv : Nat
  deriving DecidableEq, Repr, Inhabited

/-- The CONFIG section (Table 12-4), with the declarations that other chapters place in the image (R49, R92, R152, R373). -/
structure ConfigSec where
  /-- Step gate mode (R194). -/
  gate : Bool
  /-- Axis extents N, X, Y, W (R30). -/
  extents : List Nat
  belay : BelayBlock
  /-- Bride defaults: OPEN_EN and AT of each ring pair (R341). -/
  brides : List (Bool × Nat)
  /-- HBM stack ranges 0 to 23: base and length (R276). -/
  stackMap : List (Nat × Nat)
  /-- HBM regions that the image allocates: base and length (R29). -/
  regions : List (Nat × Nat)
  /-- RW-L fields: register offset, mask and value (R484). -/
  rwl : List (Nat × Nat × Nat)
  /-- Intake area of each slice, in staging units (R92). -/
  intake : List Nat
  /-- Capacity of each slice's carry store, in partials (R152). -/
  carry : List Nat
  /-- Scale picot map (R49). -/
  scales : List ScaleEnt
  /-- Ground queue descriptors that the image supplies: eight words each (R373). -/
  queues : Tab (List Nat)
  deriving DecidableEq, Repr, Inhabited

/-- A coding context entry (R217, Table 6-5). -/
structure CtxEnt where
  root : Nat
  csize : Nat
  init : Bool
  surveyed : Bool
  split : Nat
  tbuf : Nat
  group : Nat
  banksBase : Nat
  resv : Nat
  deriving DecidableEq, Repr, Inhabited

/-- The CODING section of one slice: contexts, the pitch map and the object map, and the initial records (R217, R226). -/
structure CodingSec where
  ctxs : List CtxEnt
  pitchMap : Tab Nat
  objectMap : Tab Nat
  initial : Tab (List Byte)
  deriving DecidableEq, Repr, Inhabited

/-- A routed-layer descriptor (R237, Table 7-1). Counts are held, not counts minus one; addresses in bytes. -/
structure Routed where
  valid : Bool
  ids : Bool
  vfmt : Nat
  k : Nat
  x : Nat
  sfmt : Nat
  group : Nat
  cap : Nat
  h : Nat
  slices : Nat
  vgroup : Nat
  tmax : Nat
  nb : Nat
  vpitch : Nat
  sbuf : Nat
  vbuf : Nat
  mbs : Nat
  bbuf : Nat
  qfIn : Nat
  qfOut : Nat
  qbIn : Nat
  qbOut : Nat
  route : Nat
  retF : Nat
  retB : Nat
  visit : Nat
  resv : Nat
  deriving DecidableEq, Repr, Inhabited

/-- The ROUTED section: descriptors, and the expert tensor map as tensor id ↦ (layer, expert) (R237, R266). -/
structure RoutedSec where
  layers : Tab Routed
  experts : Tab (Nat × Nat)
  deriving DecidableEq, Repr, Inhabited

/-- An optimiser class (R272, Table 8-2). -/
structure OptClass where
  mode : Nat
  beta1 : Nat
  beta2 : Nat
  eps : Nat
  lambda : Nat
  lrMult : Nat
  t0 : Nat
  resv : Nat
  deriving DecidableEq, Repr, Inhabited

/-- An optimiser entry (R273, Table 8-3). -/
structure OptEnt where
  valid : Bool
  form : Nat
  emptyz : Bool
  lazy : Nat
  noclip : Bool
  nodecay : Bool
  cls : Nat
  nset : Nat
  extCount : Nat
  extFirst : Nat
  resv : Nat
  deriving DecidableEq, Repr, Inhabited

/-- An extent (R274, Table 8-4). Addresses in bytes. -/
structure Extent where
  station : Nat
  first : Nat
  count : Nat
  pbase : Nat
  mbase : Nat
  resv : Nat
  deriving DecidableEq, Repr, Inhabited

/-- A norm picot map entry (R281, Table 8-5). -/
structure NormEnt where
  count : Nat
  first : Nat
  valid : Bool
  clip : Bool
  type : Nat
  pitch : Nat
  resv : Nat
  deriving DecidableEq, Repr, Inhabited

/-- The OPTIM section: header (Table 8-1), classes, entries, extents and norm picot map. -/
structure OptimSec where
  tau : Nat
  kappa : Nat
  skipNf : Bool
  spikeH : Nat
  schedBase : Nat
  schedLen : Nat
  stateBase : Nat
  hresv : Nat
  classes : Tab OptClass
  entries : Tab OptEnt
  extents : List Extent
  norms : List NormEnt
  deriving DecidableEq, Repr, Inhabited

/-- A section of a copy as its directory names it (R422). -/
structure Section where
  offset : Nat
  length : Nat
  type : Nat
  index : Nat
  scrc : Nat
  resv : Nat
  deriving DecidableEq, Repr, Inhabited

/-- An image that the loader has decoded. -/
structure Image where
  seq : Nat
  copyB : Bool
  config : ConfigSec
  prickings : List Pricking
  phash : List (List Byte)
  policy : Tab Policy
  groups : List GroupDesc
  groupBytes : List Byte
  coding : List CodingSec
  routed : RoutedSec
  optim : OptimSec
  sched : List Nat
  mgtfw : Bool
  conf : Nat
  deriving DecidableEq, Repr, Inhabited

/-! ### Readers of the entries whose layout the manual gives -/

/-- A policy entry from its 32 bytes (Table 3-3). -/
def Policy.parse (bs : List Byte) : Policy :=
  let w := fun i => bytesAt bs (4 * i) 4
  { wideK := field (w 0) 31 28, margin := field (w 0) 27 26, hist := field (w 0) 25 20 + 1, unit := field (w 0) 19 15,
    mbs := field (w 0) 14 7, routed := flag (w 0) 6, acc := flag (w 0) 5, priv := flag (w 0) 4, mode := field (w 0) 2 0,
    hmargin := field (w 1) 31 29, eInit := sext 9 (field (w 1) 28 20), wideMax := field (w 1) 19 8,
    slices := field (w 1) 7 0, elems := w 2 + field (w 3) 4 0 * 2 ^ 32, budget := field (w 3) 30 5,
    heatBase := field (w 4) 22 0, resBase := w 5 * 4096, histBase := w 6 * 4096, hgroup := field (w 7) 4 0,
    resv := field (w 0) 3 3 + field (w 3) 31 31 + field (w 4) 31 23 + field (w 7) 31 5 }

/-- An axis field from its 16 bits (Table 4-1). -/
def AxisField.ofNat (v : Nat) : AxisField := ⟨flag v 15, field v 14 10, field v 9 7, field v 6 2, field v 1 0⟩

/-- A group descriptor from its 8 bytes (R116). -/
def GroupDesc.parse (bs : List Byte) : GroupDesc :=
  ⟨(List.range 4).map (fun i => AxisField.ofNat (bytesAt bs (2 * i) 2)), bs⟩

/-- A routed-layer descriptor from its 64 bytes (Table 7-1). -/
def Routed.parse (bs : List Byte) : Routed :=
  let w := fun i => bytesAt bs (4 * i) 4
  { valid := flag (w 0) 31, ids := flag (w 0) 30, vfmt := field (w 0) 29 26, k := field (w 0) 25 23 + 1,
    x := field (w 0) 22 12, sfmt := field (w 0) 11 8, group := field (w 0) 7 0, cap := field (w 1) 31 16,
    h := field (w 1) 15 0 + 1, slices := field (w 2) 31 24, vgroup := field (w 2) 23 16, tmax := field (w 2) 11 0 + 1,
    nb := field (w 3) 31 20 + 1, vpitch := field (w 3) 15 0, sbuf := field (w 4) 25 13, vbuf := field (w 4) 12 0,
    mbs := field (w 5) 20 13 + 1, bbuf := field (w 5) 12 0, qfIn := w 6 * 4096, qfOut := w 7 * 4096,
    qbIn := w 8 * 4096, qbOut := w 9 * 4096, route := w 10 * 4096, retF := w 11 * 4096, retB := w 12 * 4096,
    visit := w 13 * 4096,
    resv := field (w 2) 15 12 + field (w 3) 19 16 + field (w 4) 31 26 + field (w 5) 31 21 + w 14 + w 15 }

/-- A coding context entry from its 16 bytes (Table 6-5). -/
def CtxEnt.parse (bs : List Byte) : CtxEnt :=
  let w := fun i => bytesAt bs (4 * i) 4
  { root := field (w 0) 31 16, csize := field (w 0) 11 8, init := flag (w 0) 5, surveyed := flag (w 0) 4,
    split := field (w 0) 3 0, tbuf := field (w 1) 20 8, group := field (w 1) 7 0, banksBase := w 2 * 4096,
    resv := field (w 0) 15 12 + field (w 0) 7 6 + field (w 1) 31 21 + w 3 }

/-- An optimiser class from its 64 bytes (Table 8-2). -/
def OptClass.parse (bs : List Byte) : OptClass :=
  let w := fun i => bytesAt bs (4 * i) 4
  { mode := field (w 0) 31 30, beta1 := w 1, beta2 := w 2, eps := w 3, lambda := w 4, lrMult := w 5,
    t0 := w 6 + field (w 7) 15 0 * 2 ^ 32,
    resv := field (w 0) 29 0 + field (w 7) 31 16 + leNat (bs.drop 32) }

/-- An optimiser entry from its 16 bytes (Table 8-3). -/
def OptEnt.parse (bs : List Byte) : OptEnt :=
  let w := fun i => bytesAt bs (4 * i) 4
  { valid := flag (w 0) 31, form := field (w 0) 30 29, emptyz := flag (w 0) 28, lazy := field (w 0) 27 26,
    noclip := flag (w 0) 25, nodecay := flag (w 0) 24, cls := field (w 0) 23 16, nset := field (w 0) 15 8,
    extCount := field (w 1) 20 16, extFirst := field (w 1) 15 0,
    resv := field (w 0) 7 0 + field (w 1) 31 21 + w 2 + w 3 }

/-- An extent from its 16 bytes (Table 8-4). -/
def Extent.parse (bs : List Byte) : Extent :=
  let w := fun i => bytesAt bs (4 * i) 4
  ⟨field (w 0) 30 26, field (w 0) 25 0, field (w 1) 25 0, w 2 * 4096, w 3 * 4096, field (w 0) 31 31 + field (w 1) 31 26⟩

/-- A norm picot map entry from its 8 bytes (Table 8-5). -/
def NormEnt.parse (bs : List Byte) : NormEnt :=
  let v := leNat (bs.take 8)
  ⟨field v 36 32, field v 31 24, flag v 19, flag v 18, field v 17 16, field v 15 0, field v 63 37 + field v 23 20⟩

/-- A scale picot map entry from its 16 bytes (R49). -/
def ScaleEnt.parse (bs : List Byte) : ScaleEnt :=
  let w := fun i => bytesAt bs (4 * i) 4
  ⟨field (w 0) 15 0, flag (w 0) 16, flag (w 0) 19, field (w 0) 28 20 + 1, field (w 1) 19 0, field (w 2) 25 0,
   field (w 0) 18 17 + field (w 0) 31 29 + field (w 1) 31 20 + field (w 2) 31 26 + w 3⟩

/-- The belay block from its 16 bytes (Table 11-1). -/
def BelayBlock.parse (bs : List Byte) : BelayBlock :=
  let w := fun i => bytesAt bs (4 * i) 4
  { role := field (w 0) 31 30, up := [field (w 0) 29 24, field (w 0) 23 18, field (w 0) 17 12, field (w 0) 11 6],
    domain := field (w 1) 31 24, hold := field (w 1) 23 0, logDreq := sext 8 (field (w 2) 15 8),
    logSync := sext 8 (field (w 2) 7 0), refsel := flag (w 3) 0,
    resv := field (w 0) 5 0 + field (w 2) 31 16 + field (w 3) 31 1 }

/-- A directory entry from its 16 bytes (R422). -/
def Section.parse (bs : List Byte) : Section :=
  ⟨bytesAt bs 0 4, bytesAt bs 4 4, bytesAt bs 8 1, bytesAt bs 9 1, bytesAt bs 12 4, bytesAt bs 10 2⟩

/-! ### Derived quantities -/

/-- Blocks of a tensor: n of R82. -/
def Policy.n (p : Policy) : Nat := ceilDiv p.elems 1024

/-- MODE OFF (Table 3-3): what an entry that the table does not list reads as. -/
def Policy.off : Policy := default

/-- The mode in which a tensor is selected: a privileged tensor runs in FULL (R83). -/
def Policy.runMode (p : Policy) : Nat := if p.priv then 1 else p.mode

/-- The slices of a mask, in ascending order. -/
def maskBits (m : Nat) : List Nat := (List.range 8).filter (fun s => flag m s)

/-- The slice that holds block `b`, and the offset of its heat entry from HEAT_BASE (R86). -/
def Policy.home (p : Policy) (b : Nat) : Nat × Nat :=
  let ss := maskBits p.slices
  (nth ss (b % ss.length) 0, b / ss.length)

/-- The block of slice `s` at heat entry offset `o` (R86), if the slice holds one there. -/
def Policy.blockAt (p : Policy) (s o : Nat) : Option Nat :=
  let ss := maskBits p.slices
  match ss.findIdx? (· = s) with
  | none => none
  | some i => if o * ss.length + i < p.n then some (o * ss.length + i) else none

/-- n_s: the blocks that slice `s` holds (R86). -/
def Policy.nS (p : Policy) (s : Nat) : Nat :=
  let ss := maskBits p.slices
  match ss.findIdx? (· = s) with
  | none => 0
  | some i => (p.n + ss.length - 1 - i) / ss.length

/-- The blocks of the tensor that slice `s` holds, ascending. -/
def Policy.blocksOf (p : Policy) (s : Nat) : List Nat := (List.range (p.nS s)).filterMap (p.blockAt s)

/-- Elements of block `b` (R82). -/
def Policy.blockElems (p : Policy) (b : Nat) : Nat := Nat.min 1024 (p.elems - 1024 * b)

/-- The scaling unit of block `b` (R85). -/
def Policy.unitOf (p : Policy) (b : Nat) : Nat := if p.unit = 31 then 0 else b / 2 ^ p.unit

/-- The policy entry of a tensor. -/
def Image.policyOf (im : Image) (t : Nat) : Policy := im.policy.get Policy.off t

/-- The pricking of a variant: 0 main, s + 1 for variant s. -/
def Image.pricking (im : Image) (v : Nat) : Pricking := im.prickings.getD v default

/-- Packed coordinate to the list N, X, Y, W (R6). -/
def coordAxes (c : Nat) : List Nat := [field c 15 13, field c 12 9, field c 8 5, field c 4 0]

/-- The coordinate with axes N, X, Y, W packed (R6). -/
def packCoord (a : List Nat) : Nat := nth a 0 0 * 2 ^ 13 + nth a 1 0 * 2 ^ 9 + nth a 2 0 * 2 ^ 5 + nth a 3 0

/-- Extent of an axis in a group: 1 where it does not span it (R118). -/
def AxisField.ext (a : AxisField) : Nat := if a.spans then 2 ^ a.log2ext else 1

/-- A coordinate is inside the span of an axis field (R117). -/
def AxisField.covers (a : AxisField) (c : Nat) : Bool := !a.spans || (a.origin ≤ c && c < a.origin + a.ext * a.stride)

/-- Axis rank (R117). -/
def AxisField.rank (a : AxisField) (c : Nat) : Nat := if a.spans then (c - a.origin) / a.stride % a.ext else 0

/-- The coordinate of the member of axis rank `j` that shares the instance of coordinate `c` (R117). -/
def AxisField.member (a : AxisField) (c j : Nat) : Nat :=
  if a.spans then a.origin + (c - a.origin) % a.stride + j * a.stride else c

/-- The package at `c` is a member of the group (R117). -/
def GroupDesc.has (g : GroupDesc) (c : Nat) : Bool :=
  (g.axes.zip (coordAxes c)).all (fun ac => ac.1.covers ac.2)

/-- Group rank of a member (R118). -/
def GroupDesc.rank (g : GroupDesc) (c : Nat) : Nat :=
  (g.axes.zip (coordAxes c)).foldl (fun r ac => r * ac.1.ext + ac.1.rank ac.2) 0

/-- Group size (R118). -/
def GroupDesc.size (g : GroupDesc) : Nat := g.axes.foldl (fun r a => r * a.ext) 1

/-- The coordinate of the member of group rank `r` in the instance of `c` (R117, R118). -/
def GroupDesc.member (g : GroupDesc) (c r : Nat) : Nat :=
  let step := fun (acc : Nat × List Nat) (ac : AxisField × Nat) =>
    (acc.1 / ac.1.ext, ac.1.member ac.2 (acc.1 % ac.1.ext) :: acc.2)
  packCoord (((g.axes.zip (coordAxes c)).reverse.foldl step (r, [])).2)

/-- The axis field of axis code 1 to 4 (Table 5-4). -/
def GroupDesc.axis (g : GroupDesc) (axis : Nat) : AxisField := nth g.axes (axis - 1) default

/-- The group descriptor of a group id. -/
def Image.group (im : Image) (g : Nat) : GroupDesc := im.groups.getD g default

end Sys2Proof.Machine
end

