-- ==== Sys2Proof/Machine/Memory.lean ====
section
/-! DEFINITION. Byte memory in one canonical form: addresses strictly rising, no entry equal to what an unlisted
address reads as. The engine has two such memories: HBM, whose unlisted bytes read 0, and the pattern store, whose
unlisted (erased) bytes read 0xFF. Neither value is the manual's: see notes/assumptions/3.md. -/

namespace Sys2Proof.Machine

/-- A byte memory: the cells that differ from the memory's unlisted byte. -/
abbrev Memory := List Host.Cell

/-- What a byte of HBM that nothing has written reads as. DESIGN CHOICE (log 3). -/
def hbmBlank : Byte := 0#8

/-- What an erased byte of the pattern store reads as. DESIGN CHOICE (log 3). -/
def storeBlank : Byte := 0xFF#8

/-- The byte at address `a`, `d` where the memory lists none. -/
def Memory.read (d : Byte) : Memory → Nat → Byte
  | [], _ => d
  | (a', b) :: m, a => if a = a' then b else Memory.read d m a

/-- The memory with byte `b` at address `a`, in canonical form. -/
def Memory.write (d : Byte) (m : Memory) (a : Nat) (b : Byte) : Memory :=
  match m with
  | [] => if b = d then [] else [(a, b)]
  | (a', b') :: m' =>
    if a < a' then (if b = d then (a', b') :: m' else (a, b) :: (a', b') :: m')
    else if a = a' then (if b = d then m' else (a, b) :: m')
    else (a', b') :: Memory.write d m' a b

/-- The canonical form: strictly rising addresses, no cell equal to the unlisted byte. -/
abbrev Memory.wf (d : Byte) (m : Memory) : Prop :=
  m.Pairwise (fun x y => x.1 < y.1) ∧ ∀ c ∈ m, c.2 ≠ d

/-- `n` bytes from address `a` on. -/
def Memory.readN (d : Byte) (m : Memory) : Nat → Nat → List Byte
  | _, 0 => []
  | a, n + 1 => m.read d a :: Memory.readN d m (a + 1) n

/-- The bytes written from address `a` on. -/
def Memory.writeN (d : Byte) : Memory → Nat → List Byte → Memory
  | m, _, [] => m
  | m, a, b :: bs => Memory.writeN d (m.write d a b) (a + 1) bs

/-- Every byte of `[a, a + n)` back to the unlisted byte: an erase, or a clear to zero. -/
def Memory.blank (m : Memory) (a n : Nat) : Memory :=
  m.filter (fun c => c.1 < a || a + n ≤ c.1)

end Sys2Proof.Machine
end

