-- ==== Sys2Proof/Machine/EngineTypes.lean ====
section
/-! DEFINITION. State of the data and control planes as plain data: staging buffers, open accumulations, intake, coder,
token exchange, stations, the sequencers, and the pins in flight. -/

namespace Sys2Proof.Machine

/-! ### Chunks and staging (chapters Exact Reduction, The Pricking) -/

/-- A chunk as a buffer holds it: the fields of its trailer (Table 4-5) other than those that name its place, and its
payload. `step` is the full number of the step whose data it holds. -/
structure Chunk where
  kind : Nat
  fmt : Nat
  exp : Int
  null : Bool
  dev : Bool
  carried : Bool
  prusik : Bool
  wide : Bool
  result : Bool
  routed : Bool
  coded : Bool
  elems : Nat
  step : Nat
  /-- CORDONNET of its uncoded elements (R63). -/
  cord : Nat
  data : List Byte
  deriving DecidableEq, Repr, Inhabited

/-- States of a staging buffer; a unit that no buffer of the table covers is FREE (R176). -/
inductive BufSt where
  | filling | ready | missing
  deriving DecidableEq, Repr, Inhabited

/-- A staging buffer, keyed by its first unit (R176). -/
structure Buf where
  units : Nat
  st : BufSt
  chunk : Chunk
  /-- After a void ENCODE, the raw source buffer that stands in (R169). -/
  rawOf : Option Nat
  /-- A prusik answer window names the buffer until this tick (R150, R176). -/
  holdUntil : Nat
  /-- A release waits for the end of that window. -/
  releaseDue : Bool
  deriving DecidableEq, Repr, Inhabited

/-- An input accepted into an open accumulation, or a carried partial added to it. -/
structure Input where
  rank : Nat
  crc : Nat
  chunk : Chunk
  carried : Bool
  deriving DecidableEq, Repr, Inhabited

/-- An input slot that waits for its prusik copy (Table 4-6): what has been accepted for it since the REDUCE, and the check
that its input failed before (cause and DETAIL). -/
structure InSlot where
  rank : Nat
  copy : Option Input
  original : Option Input
  fail : Option (Nat × Nat)
  deriving DecidableEq, Repr, Inhabited

/-- A chunk that an EXPECT has opened (R176, R178). It stays until the next EXPECT of the same pitch and chunk, so that an
input of its own step that comes late is still judged (Table 4-6, log 21). -/
structure Opening where
  pitch : Nat
  chunk : Nat
  buf : Nat
  /-- The step of the EXPECT. -/
  step : Nat
  /-- Arrival ports (R127). -/
  ports : List Nat
  coded : Bool
  /-- A scatter chunk accumulates; any other is received whole. -/
  scatter : Bool
  /-- Own contribution loaded, and whether its buffer was MISSING. -/
  own : Option Chunk
  ownMissing : Bool
  /-- ARG named a buffer of the engine's own contribution. -/
  loaded : Bool
  inputs : List Input
  /-- Inputs of the step that failed a check of R136: rank, deviation cause and DETAIL. -/
  fails : List (Nat × Nat × Nat)
  slots : List InSlot
  /-- The EXPECT ran void (Table 5-13). -/
  void : Bool
  /-- The REDUCE has issued, or the gather chunk has been judged; and its output is formed. -/
  reduced : Bool
  final : Bool
  deriving DecidableEq, Repr, Inhabited

/-- A partial in a slice's carry store (R152). -/
structure Carried where
  pitch : Nat
  chunk : Nat
  input : Input
  deriving DecidableEq, Repr, Inhabited

/-- A prusik request held at its source (R150). -/
structure PrusikHeld where
  pitch : Nat
  chunk : Nat
  from_ : Nat
  rpitch : Nat
  rchunk : Nat
  group : Nat
  /-- An answer window has carried the copy. -/
  answered : Bool
  deriving DecidableEq, Repr, Inhabited

/-- An ACC = 0 tile staged in the intake area (R87, R92): its elements widened to binary32. -/
structure Tile where
  tensor : Nat
  block : Nat
  data : List Nat
  deriving DecidableEq, Repr, Inhabited

/-- What the slice keeps of a block for the step (R90, R91, R110). -/
structure BlockSt where
  j : Nat
  complete : Bool
  outOfOrder : Bool
  window : Bool
  late : Bool
  selected : Bool
  deriving DecidableEq, Repr, Inhabited

/-- What the heat settle of a tensor fixed on a slice (R98 to R101): the blocks of its main set and of its wide set. -/
structure Settled where
  main : List Nat
  wide : List Nat
  /-- Size of the wide set over all slices. -/
  w : Nat
  deriving DecidableEq, Repr, Inhabited

/-- What a slice keeps of a tensor for the step. -/
structure TensorSt where
  settled : Option Settled
  /-- The settle, or a HEAT of the tensor, ran void (Table 5-13). -/
  voidSettle : Bool
  /-- Main area: first unit and CSIZE (R501); side area: first unit, CSIZE and chunks (R168). -/
  main : Option (Nat × Nat)
  side : Option (Nat × Nat × Nat)
  /-- The local maximum of each scaling unit (R44), and whether the LATE cairn of the step has been raised. -/
  localMax : Tab Nat
  lateReported : Bool
  /-- The visit count read at the tensor's first SELECT of the step, for a mapped tensor (R267). -/
  visited : Option Nat
  /-- Global heats of the step seen: Gmax, and heat entries written (R95, R96). -/
  gmax : Nat
  heard : Nat
  /-- The settle issued before all of the tensor's global heat had been heard: the step sends null (R96). -/
  lacking : Bool
  /-- Blocks whose SELECT ran void: the chunks that hold them are MISSING (Table 5-13). -/
  lost : List Nat
  deriving DecidableEq, Repr, Inhabited

/-- A history entry (R45, R58, R95): the step, and its value, or none where the entry is unsettled. A settled but empty
heat entry is not kept. -/
structure HistEnt where
  step : Nat
  val : Option Int
  deriving DecidableEq, Repr, Inhabited

/-! ### Coder (chapter Daiviril) -/

/-- Progress of a surveyed object (R228, R229). -/
structure SurveySt where
  hist : List (List Nat)
  table : Option TableRec
  flat : Bool
  /-- Index entries written: offset and size of each block, and the blocks sized raw. -/
  index : List (Nat × Nat)
  rawBlocks : List Nat
  sized : Nat
  /-- A void size pin has sized every block that was left raw (R229). -/
  rest : Bool
  deriving DecidableEq, Repr, Inhabited

/-- A coding context of a slice (R217, R219). -/
structure CtxSt where
  banks : List (Option TableRec)
  cur : Option Nat
  /-- Generation that `missed` counts from; kept when NOBANK is set. -/
  gen : Nat
  pending : Option TableRec
  missed : Nat
  hist : List (List Nat)
  disable : Bool
  enableDue : Bool
  survey : SurveySt
  deriving DecidableEq, Repr, Inhabited

/-! ### Token exchange -/

/-- A token tile in a half of its staging area (R242). -/
structure TokTile where
  layer : Nat
  mb : Nat
  batch : Nat
  sub : Nat
  pass : Nat
  index : Nat
  choice : Nat
  position : Nat
  payload : List Byte
  deriving DecidableEq, Repr, Inhabited

/-- Last accepted tile of a (layer, mb, SUB, PASS): batch, INDEX, CHOICE and POSITION (Table 7-4, ORDER). -/
structure TokLast where
  layer : Nat
  mb : Nat
  sub : Nat
  pass : Nat
  batch : Nat
  index : Nat
  choice : Nat
  position : Nat
  deriving DecidableEq, Repr, Inhabited

/-- A route pass or send that has issued in the step: layer, mb, batch and ROLE (R244, R254). -/
structure TokDone where
  layer : Nat
  mb : Nat
  batch : Nat
  role : Nat
  dest : Nat
  doneAt : Nat
  void : Bool
  deriving DecidableEq, Repr, Inhabited

/-- A count chunk accepted from a source for a pass of a micro-batch (R256, R259). -/
structure TokCount where
  pitch : Nat
  layer : Nat
  mb : Nat
  pass : Nat
  src : Nat
  counts : List Nat
  deriving DecidableEq, Repr, Inhabited

/-- Token exchange of the engine in the step. -/
structure TokSt where
  tiles : List TokTile
  last : List TokLast
  done : List TokDone
  /-- n(e) of each expert, keyed by (layer × 256 + mb) × 1024 + e (R247). -/
  slots : Tab Nat
  counts : List TokCount
  /-- Sources that lost a chunk after arrival: pitch and source (LOSS of Table 7-9). -/
  losses : List (Nat × Nat)
  /-- Pitches whose landing or return has closed. -/
  closed : List Nat
  /-- Visit counts keyed by layer × 1024 + local expert (R263). -/
  visits : Tab Nat
  lateLayers : List Nat
  badPitches : List Nat
  deriving DecidableEq, Repr, Inhabited

/-! ### Update stations -/

/-- A block slot of a station's input buffer that is not EMPTY (R278). -/
structure StSlot where
  missing : Bool
  tensor : Nat
  block : Nat
  data : List Nat
  /-- The UPDATE that reads the slot has issued (Table 8-7). -/
  read : Bool
  deriving DecidableEq, Repr, Inhabited

/-- The three norm registers of a set (R280). -/
structure NormSet where
  g : Norm
  w : Norm
  d : Norm
  deriving DecidableEq, Repr

/-- An update station. -/
structure Station where
  slots : Tab StSlot
  norms : Tab NormSet
  disable : Bool
  enableDue : Bool
  deriving DecidableEq, Repr

/-! ### Slices -/

/-- A slice. -/
structure Slice where
  fenced : Bool
  clearing : Bool
  bufs : Tab Buf
  opens : List Opening
  carry : List Carried
  prusik : List PrusikHeld
  tiles : List Tile
  /-- Tiles that wait for the residual of a SELECT in progress (R107), or of one to come in replay (Table 11-12). -/
  held : List Tile
  blocks : Tab BlockSt
  heat : Tab Nat
  tensors : Tab TensorSt
  ctxs : Tab CtxSt
  ctxSel : Nat
  lastPin : Nat
  deriving DecidableEq, Repr, Inhabited

/-! ### Sequencers -/

/-- A resource of Table 5-8 other than a port window. -/
inductive Res where
  | selection (slice : Nat)
  | encoder (slice : Nat)
  | decoder (slice : Nat)
  | movers (slice : Nat)
  | egress (slice : Nat)
  | dispatch (slice : Nat)
  | station (k : Nat)
  | seal
  deriving DecidableEq, Repr, Inhabited

/-- A resource held until a tick. -/
structure Hold where
  res : Res
  start : Nat
  stop : Nat
  deriving DecidableEq, Repr, Inhabited

/-- A pin that has been latched for issue (R20, R165). -/
structure Issue where
  pin : Pin
  sec : Nat
  index : Nat
  dyn : Bool
  /-- Belay count of its tick. -/
  at_ : Nat
  /-- It is discharged: it takes effect as a void pin and raises no OVERRUN (R397). -/
  gone : Bool
  deriving DecidableEq, Repr, Inhabited

/-- A deviation entry (R410, Table 11-9). -/
structure Dev where
  cause : Nat
  detail : Nat
  unit : Nat
  object : Nat
  index : Nat
  rank : Nat
  value : Nat
  deriving DecidableEq, Repr, Inhabited

/-- A cairn before it is entered: CLASS, SOURCE, QUAL and the detail words (Table 13-3). -/
structure CairnSub where
  cls : Nat
  source : Nat
  qual : Nat
  a : Nat
  b : Nat
  deriving DecidableEq, Repr, Inhabited

/-- What a pin's completion makes visible (R172). -/
inductive Upd where
  /-- A staging buffer takes this state and content. -/
  | buf (slice unit : Nat) (st : BufSt) (c : Chunk)
  /-- A staging buffer is released (R176). -/
  | free (slice unit : Nat)
  /-- Bytes of HBM. -/
  | mem (addr : Nat) (bytes : List Byte)
  /-- The residual of a block after its SELECT: binary32 elements (R107). -/
  | resid (slice tensor block : Nat) (data : List Nat)
  /-- A heat table entry. -/
  | heat (slice entry code : Nat)
  /-- A tensor's settle on a slice. -/
  | settle (slice tensor : Nat) (st : Settled)
  /-- Global heats taken into the tensor's history: largest heat and number of entries. -/
  | heard (slice tensor gmax n : Nat)
  /-- Level residuals of a chunk (R59), and the level maximum of its unit. -/
  | level (pitch chunk : Nat) (l : List Int) (tensor unit mz : Nat)
  /-- A packet's bytes leave by a port, towards a coordinate. -/
  | send (port : Nat) (packets : List (List Byte))
  /-- A station slot is written. -/
  | slot (station slot : Nat) (s : StSlot)
  /-- A station slot becomes EMPTY. -/
  | unslot (station slot : Nat)
  /-- Squares into a norm register: station, set, which (0 G, 1 W, 2 D), the tensor they come from, units. -/
  | norm (station set which tensor : Nat) (units : Int)
  /-- Shard checksum addend (R298). -/
  | shard (v : Nat)
  /-- Counter of the counter block: offset, unit word, increment. -/
  | count (off unitw n : Nat)
  | dev (d : Dev)
  | cairn (c : CairnSub)
  /-- A coding context. -/
  | ctx (slice i : Nat) (c : CtxSt)
  /-- A table record delivered to a context's pending slot (R219, R225): none where nothing came. -/
  | install (slice i : Nat) (t : Option (List Byte))
  /-- A picot's vector after a round (R145). -/
  | picot (pitch round : Nat)
  /-- Compute scratch takes a chunk (R160). -/
  | scratch (slice pitch chunk : Nat) (bytes : List Byte)
  /-- A carry-store entry is removed (R152). -/
  | uncarry (slice pitch chunk rank : Nat)
  /-- A ground queue is armed by a pin (R186). -/
  | arm (queue : Nat)
  /-- A tensor's LATE cairn is due (R112). -/
  | late (slice tensor : Nat)
  /-- Choice status of a route record (R255, R262): layer, mb, token, choice, forward?, status. -/
  | choice (layer mb token choice : Nat) (fwd : Bool) (st : Nat)
  /-- Token chunks sent through PORTQ 36 land on this engine (R251). -/
  | land (pitch : Nat) (chunks : List (List Byte))
  /-- A chunk crosses the die-to-die links to the slice whose EXPECT waits for it (R132). -/
  | cross (pitch chunk : Nat) (whole : List Byte)
  deriving DecidableEq, Repr

/-- A pin whose result is not yet visible. -/
structure Flight where
  done : Nat
  stream : Nat
  sec : Nat
  index : Nat
  pin : Pin
  void : Bool
  start : Nat
  upds : List Upd
  deriving DecidableEq, Repr

/-- An input accepted for a round of a picot (R145). -/
structure PicotIn where
  round : Nat
  rank : Nat
  vals : List Nat
  dev : Bool
  crc : Nat
  deriving DecidableEq, Repr, Inhabited

/-- A picot in progress or ended (R145, R146): the vector at the start of the round, the vector so far, the inputs that its
pins expect and those accepted, the last round issued and the last whose pin completed. -/
structure PicotSt where
  pitch : Nat
  /-- Slice of its pins, and the buffer they name. -/
  slice : Nat
  buf : Nat
  round : Nat
  landed : Nat
  base : List Nat
  vals : List Nat
  dev : Bool
  expect : List (Nat × Nat)
  inputs : List PicotIn
  void : Bool
  done : Bool
  deriving DecidableEq, Repr, Inhabited

/-- A chunk, or a token chunk of more than one packet, of which some packets have arrived (R315, R316). -/
structure Asm where
  port : Nat
  type : Nat
  pitch : Nat
  chunk : Nat
  src : Nat
  bytes : List Byte
  deriving DecidableEq, Repr, Inhabited

/-- The sequencers. -/
structure Seq where
  /-- A step, eval or checkpoint section runs: its code and the count at its start (R164). -/
  running : Bool
  sec : Nat
  secOrigin : Nat
  /-- Step number, its origin and working origin, the variant, and the origin of the next step. -/
  step : Nat
  origin : Nat
  variant : Nat
  nextOrigin : Nat
  /-- Number of the next step to start. -/
  next : Nat
  /-- Position of each stream in the section. -/
  pos : List Nat
  /-- Latched pins of each stream (R165). -/
  issue : List (List Issue)
  /-- Ticks by which each stream runs late in step gate mode (R193). -/
  delay : List Nat
  flights : List Flight
  holds : List Hold
  /-- Pitches closed at their CUTOFF, and at their prusik cutoff (R183, R149). -/
  closed : List Nat
  pclosed : List Nat
  picots : List PicotSt
  asm : List Asm
  /-- Gather gaps recorded (R154), and what the cairns of a pitch will count, by (kind × 8 + slice) × 2^16 + pitch: kinds
  1 and 2 chunks lost MALFORMED and TABLE-GEN (R230), 3 to 5 token chunks
  discarded CHUNK-CHECK, MALFORMED and TABLE-GEN, 6 counts missing or choices LOST (R268). -/
  gaps : List (Nat × Nat)
  misses : Tab Nat
  /-- Input slots decided in the step by another row of Table 4-6 than 1 or 2: slice, slot key (R155). -/
  missed : List (Nat × Nat)
  /-- OPEN pins that have issued in the step: section, record number, tick, and whether the pin was void (R187, Table 5-11). -/
  windows : List (Nat × Nat × Nat × Bool)
  /-- Accepted dynamic pins that have not issued, in acceptance order (R190). -/
  dyn : List Pin
  dynAccepted : Nat
  /-- Doorbells latched and ignored (R192); the GATE waits. -/
  doorbells : Nat
  ignored : Nat
  gateWait : Bool
  /-- Element-adds of the reduction arrays in the current 64-tick span, per slice (Table 5-8). -/
  adds : List Nat
  /-- Pins of the section whose word in the pricking store cannot be read (R473): section, stream, index. -/
  lost : List (Nat × Nat × Nat)
  deriving DecidableEq, Repr, Inhabited

/-- A step's record (R37, R405, R408) and what its sections of the replay log will hold (Table 11-11). -/
structure StepRec where
  /-- The step under which events are recorded, its variant and its origin. -/
  step : Nat
  variant : Nat
  origin : Nat
  entries : Nat
  entrySum : Nat
  status : Nat
  stored : List Dev
  /-- Slot table: key (pitch, chunk, rank) with its CRC entries (R156). -/
  slots : List (Nat × List Nat)
  decision : Option Nat
  drow : Nat
  n : Nat
  c : Nat
  nf : Nat
  /-- Non-finite ingress elements of the step (R282). -/
  nfLocal : Nat
  lstatus : Nat
  shard : Nat
  /-- Counts of the step: offset, unit word, count (R77, R498). -/
  counts : List (Nat × Nat × Nat)
  /-- Cairns by class (R478). -/
  classes : Tab Nat
  intake : List (List Byte)
  dpins : List (List Byte)
  tokens : List (List Byte)
  host : List (List Byte)
  /-- The step seal, formed at the SEAL's issue (R405). -/
  digest : List Byte
  deriving DecidableEq, Repr, Inhabited

end Sys2Proof.Machine
end

