-- ==== Sys2Proof/Machine/Operands.lean ====
section
/-! DEFINITION. The structures that commands bring and that the engine sends: packet headers (Table 9-3), flits (Table 9-2),
chunk trailers (Table 4-5), token trailers (Table 7-8), tile headers (Tables 3-1 and 7-2), carriage frames (Tables 9-7 and
9-8), anchor extensions (Table 10-4). Each with its reader and, where the engine sends it, its writer. -/

namespace Sys2Proof.Machine

/-! ### Packets -/

/-- A packet header (R313, Table 9-3). -/
structure PktHead where
  vc : Nat
  type : Nat
  group : Nat
  pitch : Nat
  chunk : Nat
  fan : Nat
  src : Nat
  dst : Nat
  seq : Nat
  epoch : Nat
  offset : Nat
  len : Nat
  auxport : Bool
  auxdst : Bool
  dl : Bool
  ext : Bool
  last : Bool
  first : Bool
  deriving DecidableEq, Repr, Inhabited

/-- Bytes [27:0] of a header. -/
def PktHead.body (h : PktHead) : List Byte :=
  leBytes 1 (h.type % 32 + h.vc % 8 * 32) ++ leBytes 1 h.group ++ leBytes 2 h.pitch ++ leBytes 3 h.chunk ++ leBytes 1 h.fan
    ++ leBytes 2 h.src ++ leBytes 2 h.dst ++ leBytes 4 h.seq ++ leBytes 2 h.epoch ++ leBytes 3 h.offset
    ++ leBytes 2 (h.len % 2 ^ 13)
    ++ leBytes 1 (ofBool h.first + 2 * ofBool h.last + 8 * ofBool h.ext + 16 * ofBool h.dl + 32 * ofBool h.auxdst
        + 64 * ofBool h.auxport)
    ++ zeros 4

/-- The 32 bytes of a header, with HCRC. -/
def PktHead.bytes (h : PktHead) : List Byte := h.body ++ leBytes 4 (crc32c h.body)

/-- A header from its 32 bytes. -/
def PktHead.parse (bs : List Byte) : PktHead :=
  let b0 := bytesAt bs 0 1
  let f := bytesAt bs 23 1
  { vc := b0 / 32, type := b0 % 32, group := bytesAt bs 1 1, pitch := bytesAt bs 2 2, chunk := bytesAt bs 4 3,
    fan := bytesAt bs 7 1, src := bytesAt bs 8 2, dst := bytesAt bs 10 2, seq := bytesAt bs 12 4, epoch := bytesAt bs 16 2,
    offset := bytesAt bs 18 3, len := bytesAt bs 21 2 % 2 ^ 13, first := flag f 0, last := flag f 1, ext := flag f 3,
    dl := flag f 4, auxdst := flag f 5, auxport := flag f 6 }

/-- A packet's TYPE belongs to its VC (Table 9-4); reserved types and channels belong to none. -/
def typeOnVc (type vc : Nat) : Bool :=
  (type = 1 && vc ≤ 1) || (type = 2 && vc = 2) || (type = 3 && vc = 1) || (8 ≤ type && type ≤ 11 && vc = 3)
    || (0x10 ≤ type && type ≤ 0x14 && vc = 4)

/-- A packet passes R314: HCRC good, TYPE and VC known and matching, reserved bits 0. -/
def packetGood (bs : List Byte) : Bool :=
  let h := PktHead.parse bs
  bytesAt bs 28 4 = crc32c (bs.take 28) && typeOnVc h.type h.vc && field (bytesAt bs 21 2) 15 13 = 0
    && !flag (bytesAt bs 23 1) 7 && !flag (bytesAt bs 23 1) 2 && bytesAt bs 24 4 = 0

/-- Length of a packet without padding: header, extension, payload. -/
def PktHead.total (h : PktHead) : Nat := 32 + (if h.ext then 16 else 0) + h.len

/-- The payload of a packet. -/
def packetPayload (bs : List Byte) : List Byte :=
  let h := PktHead.parse bs
  (bs.drop (if h.ext then 48 else 32)).take h.len

/-- The bytes of a packet: header with LEN, extension, payload. -/
def packetBytes (h : PktHead) (ext payload : List Byte) : List Byte :=
  { h with len := payload.length, ext := ext ≠ [] }.bytes ++ ext ++ payload

/-- The anchor extension (R357, Table 10-4). -/
structure AncExt where
  flag_ : Bool
  npm1 : Nat
  sq : Nat
  moff : Nat
  key : Nat
  deriving DecidableEq, Repr, Inhabited

/-- The 16 bytes of an extension. -/
def AncExt.bytes (e : AncExt) : List Byte :=
  leBytes 16 (e.key % 2 ^ 32 + e.moff % 2 ^ 40 * 2 ^ 32 + e.sq % 2 ^ 11 * 2 ^ 72 + e.npm1 % 2 ^ 9 * 2 ^ 83 + ofBool e.flag_ * 2 ^ 92)

/-- An extension from its 16 bytes. -/
def AncExt.parse (bs : List Byte) : AncExt :=
  let v := leNat (bs.take 16)
  ⟨flag v 92, field v 91 83, field v 82 72, field v 71 32, field v 31 0⟩

/-! ### Chunks -/

/-- Bytes [7:0] and [31:12] of a chunk's trailer (Table 4-5). -/
def trailerParts (c : Chunk) (pitch chunk cord : Nat) : List Byte × List Byte :=
  (leBytes 8 cord,
   leBytes 2 (twos 16 c.exp) ++ leBytes 2 c.step ++ leBytes 2 pitch ++ leBytes 3 chunk
    ++ leBytes 1 (c.kind % 8 * 32 + ofBool c.routed * 16 + c.fmt % 16)
    ++ leBytes 1 (ofBool c.null + 2 * ofBool c.result + 4 * ofBool c.coded + 8 * ofBool c.wide + 16 * ofBool c.prusik
        + 32 * ofBool c.carried + 64 * ofBool c.dev)
    ++ zeros 1 ++ leBytes 3 c.elems ++ zeros 1 ++ leBytes 3 c.data.length ++ zeros 1)

/-- The CRC of a chunk (R142): payload, then trailer bytes [7:0], then [31:12]. -/
def chunkCrc (c : Chunk) (pitch chunk : Nat) : Nat :=
  let t := trailerParts c pitch chunk c.cord
  crc32c (c.data ++ t.1 ++ t.2)

/-- The 32-byte trailer of a chunk. -/
def trailerBytes (c : Chunk) (pitch chunk : Nat) : List Byte :=
  let t := trailerParts c pitch chunk c.cord
  t.1 ++ leBytes 4 (chunkCrc c pitch chunk) ++ t.2

/-- A trailer as it was received. -/
structure Trailer where
  cord : Nat
  crc : Nat
  exp : Int
  tag : Nat
  pitch : Nat
  chunk : Nat
  kind : Nat
  routed : Bool
  fmt : Nat
  dev : Bool
  carried : Bool
  prusik : Bool
  wide : Bool
  coded : Bool
  result : Bool
  null : Bool
  elems : Nat
  len : Nat
  resv : Nat
  deriving DecidableEq, Repr, Inhabited

/-- A trailer from its 32 bytes. -/
def Trailer.parse (bs : List Byte) : Trailer :=
  let k := bytesAt bs 21 1
  let f := bytesAt bs 22 1
  { cord := bytesAt bs 0 8, crc := bytesAt bs 8 4, exp := sext 16 (bytesAt bs 12 2), tag := bytesAt bs 14 2,
    pitch := bytesAt bs 16 2, chunk := bytesAt bs 18 3, kind := k / 32, routed := flag k 4, fmt := k % 16, dev := flag f 6,
    carried := flag f 5, prusik := flag f 4, wide := flag f 3, coded := flag f 2, result := flag f 1, null := flag f 0,
    elems := bytesAt bs 24 3, len := bytesAt bs 28 3,
    resv := ofBool (flag f 7) + bytesAt bs 23 1 + bytesAt bs 27 1 + bytesAt bs 31 1 }

/-- Element bytes of an ingress format (Table 2-1). -/
def rawElemBytes (fmt : Nat) : Nat := if fmt = 0 then 4 else if fmt = 1 then 2 else 1

/-- Bytes that `n` elements take in a chunk of a KIND and FORMAT (R504). -/
def elemBytes (kind fmt n : Nat) : Nat :=
  if kind = 0 then ceilDiv (formatBits fmt * n) 8
  else if kind = 1 then rawElemBytes fmt * n
  else if kind = 2 then 6 * n
  else n

/-- A wire element of a format as an integer (R40, R42). -/
def unpackElems (fmt : Nat) (bs : List Byte) (n : Nat) : List Int :=
  if fmt = 3 then
    (List.range n).map (fun i => if flag ((nth bs (i / 8) 0#8).toNat) (i % 8) then (-1 : Int) else 1)
  else
    let w := formatBits fmt / 8
    ((pieces w bs).take n).map (fun b => sext (8 * w) (leNat b))

/-- Integers as wire elements of a format. -/
def packElems (fmt : Nat) (xs : List Int) : List Byte :=
  if fmt = 3 then
    (pieces 8 xs).map (fun g => BitVec.ofNat 8 (sumNat ((indexed g).map (fun e => if e.2 < 0 then 2 ^ e.1 else 0))))
  else
    let w := formatBits fmt / 8
    xs.flatMap (fun x => leBytes w (twos (8 * w) x))

/-- Largest magnitude of a wire format (Table 2-2). -/
def formatMax (fmt : Nat) : Nat := if fmt = 3 then 1 else 2 ^ (formatBits fmt - 1) - 1

/-- The elements of a chunk as integers, absent elements left out (R144). -/
def Chunk.ints (c : Chunk) : List Int := if c.null then [] else unpackElems c.fmt c.data c.elems

/-- The cordonnet of integers (R63). -/
def cordonnet (xs : List Int) : Nat := twos 64 (xs.foldl (· + ·) 0)

/-- The CORDONNET field of a chunk of the elements given: of KIND 0 routed class their cordonnet, 0 otherwise (R63). -/
def cordOf (kind : Nat) (routed null : Bool) (xs : List Int) : Nat :=
  if kind = 0 ∧ routed ∧ !null then cordonnet xs else 0

/-- Values of 48 bits (KIND 2). -/
def unpack48 (bs : List Byte) : List Nat := (pieces 6 bs).map leNat

/-- Values of 48 bits written (KIND 2). -/
def pack48 (vs : List Nat) : List Byte := vs.flatMap (leBytes 6)

/-- A null chunk standing for `n` elements (R157). -/
def nullChunk (kind fmt n step : Nat) (routed wide : Bool) : Chunk :=
  { kind := kind, fmt := fmt, exp := 0, null := true, dev := false, carried := false, prusik := false, wide := wide,
    result := false, routed := routed, coded := false, elems := n, step := step, cord := 0, data := [] }

/-- The packets of a chunk (R315): payload and trailer cut into 4,096 bytes. -/
def chunkPackets (vc group src dst pitch chunk step : Nat) (whole : List Byte) : List (List Byte) :=
  let ps := pieces 4096 whole
  (indexed ps).map (fun e =>
    packetBytes { (default : PktHead) with
      vc := vc, type := 1, group := group, pitch := pitch, chunk := chunk, src := src
      dst := dst, seq := step % 2 ^ 16, offset := 4096 * e.1, first := decide (e.1 = 0), last := decide (e.1 + 1 = ps.length) } [] e.2)

/-! ### Token chunks -/

/-- A token trailer (R255, Table 7-8). -/
structure TokTrailer where
  tag : Nat
  pitch : Nat
  token : Nat
  choice : Nat
  type : Nat
  coded : Bool
  slot : Nat
  expert : Nat
  drank : Nat
  srank : Nat
  mb : Nat
  pass : Nat
  fmt : Nat
  len : Nat
  layer : Nat
  deriving DecidableEq, Repr, Inhabited

/-- Trailer bytes [31:4]. -/
def TokTrailer.body (t : TokTrailer) : List Byte :=
  leBytes 2 t.tag ++ leBytes 2 t.pitch ++ leBytes 3 t.token
    ++ leBytes 1 (t.choice % 8 * 32 + t.type % 4 * 8 + ofBool t.coded * 4) ++ leBytes 2 t.slot ++ leBytes 2 (t.expert % 1024)
    ++ leBytes 1 (t.drank % 8 * 8 + t.srank % 8) ++ leBytes 1 t.mb ++ leBytes 1 (t.pass % 2 * 16 + t.fmt % 16) ++ zeros 1
    ++ leBytes 3 t.len ++ zeros 3 ++ leBytes 2 (t.layer % 4096) ++ zeros 4

/-- A token chunk: payload and trailer. -/
def tokenChunk (t : TokTrailer) (payload : List Byte) : List Byte :=
  let b := { t with len := payload.length }.body
  payload ++ leBytes 4 (crc32c (payload ++ b)) ++ b

/-- A token trailer from its 32 bytes. -/
def TokTrailer.parse (bs : List Byte) : TokTrailer :=
  let k := bytesAt bs 11 1
  { tag := bytesAt bs 4 2, pitch := bytesAt bs 6 2, token := bytesAt bs 8 3, choice := k / 32, type := k / 8 % 4, coded := flag k 2,
    slot := bytesAt bs 12 2, expert := bytesAt bs 14 2 % 1024, drank := bytesAt bs 16 1 / 8 % 8, srank := bytesAt bs 16 1 % 8,
    mb := bytesAt bs 17 1, pass := bytesAt bs 18 1 / 16 % 2, fmt := bytesAt bs 18 1 % 16, len := bytesAt bs 20 3,
    layer := bytesAt bs 26 2 % 4096 }

/-- The reserved bits of a token trailer are 0. -/
def tokReservedZero (bs : List Byte) : Bool :=
  bytesAt bs 11 1 % 4 = 0 && bytesAt bs 14 2 / 1024 = 0 && bytesAt bs 16 1 / 64 = 0 && bytesAt bs 18 1 / 32 = 0
    && bytesAt bs 19 1 = 0 && bytesAt bs 23 3 = 0 && bytesAt bs 26 2 / 4096 = 0 && bytesAt bs 28 4 = 0

/-! ### Tiles -/

/-- A gradient tile's header (Table 3-1). -/
structure TileHead where
  tag : Nat
  nf : Nat
  count : Nat
  kind : Nat
  final : Bool
  fmt : Nat
  mb : Nat
  block : Nat
  tensor : Nat
  deriving DecidableEq, Repr, Inhabited

/-- A gradient tile's header from its bits. -/
def TileHead.parse (h : BitVec 128) : TileHead :=
  let v := h.toNat
  ⟨field v 111 96, field v 90 80, field v 74 64, field v 60 59, flag v 58, field v 57 54, field v 53 46, field v 45 20, field v 19 0⟩

/-- A token tile's header (Table 7-2). -/
structure TokHead where
  batch : Nat
  tag : Nat
  choice : Nat
  index : Nat
  count : Nat
  sub : Nat
  kind : Nat
  final : Bool
  fmt : Nat
  mb : Nat
  position : Nat
  stream : Nat
  resv : Nat
  deriving DecidableEq, Repr, Inhabited

/-- A token tile's header from its bits. -/
def TokHead.parse (h : BitVec 128) : TokHead :=
  let v := h.toNat
  { batch := field v 123 112, tag := field v 111 96, choice := field v 95 93, index := field v 91 80, count := field v 79 64 + 1,
    sub := field v 62 61, kind := field v 60 59, final := flag v 58, fmt := field v 57 54, mb := field v 53 46,
    position := field v 43 20, stream := field v 19 0,
    resv := field v 127 124 + field v 92 92 + field v 63 63 + field v 45 44 }

/-- STEP_TAG compared with a step (R111): later by 1 to 32,767, or equal, or earlier. -/
inductive TagOrder where
  | later | same | earlier
  deriving DecidableEq, Repr

/-- STEP_TAG compared with a step as 16-bit values (R111). -/
def tagOrder (tag step : Nat) : TagOrder :=
  let d := (tag + 2 ^ 16 - step % 2 ^ 16) % 2 ^ 16
  if d = 0 then .same else if d < 2 ^ 15 then .later else .earlier

/-- The step that an earlier or equal STEP_TAG names. -/
def stepOfTag (tag step : Nat) : Nat := step - (step % 2 ^ 16 + 2 ^ 16 - tag) % 2 ^ 16

/-! ### Flits and frames -/

/-- A flit header (R304, Table 9-2). -/
structure FlitHead where
  idle : Bool
  nak : Bool
  seq : Nat
  ack : Nat
  mark : Bool
  deriving DecidableEq, Repr, Inhabited

/-- The 32-bit header word. -/
def FlitHead.word (h : FlitHead) : Nat :=
  ofBool h.idle * 2 ^ 31 + ofBool h.nak * 2 ^ 30 + h.seq % 4096 * 2 ^ 18 + h.ack % 4096 * 2 ^ 6 + ofBool h.mark * 2 ^ 5

/-- A flit header from its word. -/
def FlitHead.parse (w : Nat) : FlitHead := ⟨flag w 31, flag w 30, field w 29 18, field w 17 6, flag w 5⟩

/-- A flit: header, body padded to 248 bytes, LCRC. -/
def flitBytes (h : FlitHead) (body : List Byte) : List Byte :=
  let b := leBytes 4 h.word ++ body ++ zeros (248 - body.length)
  b ++ leBytes 4 (crc32c b)

/-- A packet laid out for the flit stream: padded to 8 bytes (R305), and its last flit body padded with zeros. -/
def packetBodies (pkts : List (List Byte)) : List (List Byte) := pieces 248 (pkts.flatMap (padTo 8))

/-- The MAC address of carriage port Cn of a package (R332): prefix octets, coordinate, 0x00, 0x20 + n. -/
def macAddress (mac0 mac1 coord n : Nat) : List Byte :=
  leBytes 1 mac0 ++ leBytes 1 mac1 ++ beBytes 2 coord ++ zeros 1 ++ leBytes 1 (0x20 + n)

/-- The carriage header (R331, Table 9-8). -/
def carriageHead (ackonly nak : Bool) (pack pseq : Nat) : List Byte :=
  leBytes 8 (pseq % 2 ^ 16 + pack % 2 ^ 16 * 2 ^ 16 + ofBool nak * 2 ^ 32 + ofBool ackonly * 2 ^ 33)

/-- A frame of the carriage: addresses, tag where enabled, EtherType, body padded to the 64-byte minimum, FCS (R331). -/
def frameBytes (da sa : List Byte) (tag : Option Nat) (etype : Nat) (body : List Byte) : List Byte :=
  let b := da ++ sa ++ (match tag with | some t => beBytes 2 0x8100 ++ beBytes 2 t | none => []) ++ beBytes 2 etype ++ body
  let b := b ++ zeros (60 - b.length)
  b ++ leBytes 4 (fcs b)

end Sys2Proof.Machine
end

