-- ==== Sys2Proof/Config.lean ====
section
/-! DEFINITION. What the manual leaves to the part or does not state, as constants without a body: nothing in Lean can
evaluate them, so a claim about the model holds whatever they are. -/

namespace Sys2Proof.Config

/-- A value that the manual leaves open, a fresh one for each number of the counter `State.free` (log 4). -/
opaque freeValue : Nat → Nat

/-- The CONFIG section: the manual gives its content, not its layout (Table 12-4, log 20). -/
opaque readConfig : List Byte → Option Machine.ConfigSec

/-- The CODING section of a slice: the entry and map layouts are Table 6-5's, their places are not given (log 20). -/
opaque readCoding : List Byte → Option Machine.CodingSec

/-- The ROUTED section (Table 12-4, log 20). -/
opaque readRouted : List Byte → Option Machine.RoutedSec

/-- The OPTIM section (Table 12-4, log 20). -/
opaque readOptim : List Byte → Option Machine.OptimSec

/-- The ROM key of the part: the public point in mask ROM (R426). -/
opaque romKey : Nat × Nat

/-- STEPPING of the dies: 1 A1, 2 B0 (Table 14-3). -/
opaque stepping : Nat

/-- Capacity of the pattern store device in bytes, and whether it answers Read SFDP within R418 (R418, R419). -/
opaque storeSize : Nat

/-- The pattern store device meets R418 and answers Read SFDP (R419). -/
opaque storeAnswers : Bool

/-- The device names an 8D-8D-8D switch method in its SFDP table (R419). -/
opaque storeOctal : Bool

/-- Endpoint UUID of the MCTP endpoint (R446): not stated. -/
opaque endpointUuid : List Byte

/-- MCTP versions supported, as the control command reports them: not stated. -/
opaque mctpVersions : List Byte

/-- Koldetor's IANA enterprise number (R448): not stated. -/
opaque ianaNumber : Nat

/-- PLDM version of a type (R447): not stated. -/
opaque pldmVersion : Nat → Nat

/-- Platform data records (R447): the manual lists what they define, not their bytes. -/
opaque pdr : Nat → List Byte

/-- Number of platform data records. -/
opaque pdrCount : Nat

/-- I3C bus and device characteristics registers and the status word (R445): not stated. -/
opaque bcr : Nat

/-- Device characteristics register (R445): not stated. -/
opaque dcr : Nat

/-- Die temperature reading in 0.125 °C, engine power in 0.1 W: measured, so free for each read (Table 14-26). -/
opaque dieTemp : Nat → Nat → Nat

/-- Engine power reading (Table 14-26). -/
opaque power : Nat → Nat

/-- Where an HBM address lies in the history area of a tensor of `units` scaling units, from its offset: the unit (the last
one past them is the heat history) and the place of the entry; none outside the area. The area's layout is not stated (R85). -/
opaque historyPlace (units offset : Nat) : Option (Nat × Nat)

/-- The element of a chunk's level residuals that an HBM address holds: the store's layout is not stated (R59). -/
opaque levelElement : Nat → Nat

/-- Which of a chunk's carried partials an HBM address holds: the carry store's layout is not stated (R152). -/
opaque carryPlace : Nat → Nat

/-- The pins held in an HBM word of the pricking store: section, stream and index. The place of the store is not stated (R164). -/
opaque prickingPlace : Nat → List (Nat × Nat × Nat)

/-- A checkpoint was restored before the launch of step `t0` (R108): nothing tells the engine so in the manual. -/
opaque checkpointRestored (t0 : Nat) : Bool

end Sys2Proof.Config
end

