-- ==== Sys2Proof/Machine/LinkTypes.lean ====
section
/-! DEFINITION. State of the ports, carriage paths and brides (chapter Link Ports, Channels and Brides) and of the anchors,
message tracker and ground queues (chapter Anchors and Remote Memory Access), as plain data. -/

namespace Sys2Proof.Machine

/-- States of a port or path (Table 9-9, coded as PRT_STAT). -/
inductive PortSt where
  | off | pmd | frame | ident | measure | up | failed
  deriving DecidableEq, Repr, Inhabited

/-- The code of a port state in PRT_STAT (Table 14-21). -/
def PortSt.code : PortSt → Nat
  | .off => 0 | .pmd => 1 | .frame => 2 | .ident => 3 | .measure => 4 | .up => 5 | .failed => 6

/-- A unit kept for retry (R307, R334): its sequence number, and the flit as sent, or the packet of the frame. -/
structure KeptUnit where
  seq : Nat
  bytes : List Byte
  deriving DecidableEq, Repr, Inhabited

/-- One end of a link: a native port, or one carriage path of a carriage port. -/
structure Link where
  /-- Table 9-9. -/
  st : PortSt
  /-- Cause of FAILED (Table 14-21). -/
  fail : Nat
  /-- Peer coordinate, BRIDGES and d - 1 - BRIDGES of the last IDENT (R337). -/
  peer : Nat
  bridges : Nat
  passed : Nat
  /-- h_m in ticks (R338). -/
  hm : Nat
  /-- λ in 1/32 core cycle, once measured (R389). -/
  lambda : Option Nat
  /-- Round trip less hold, in core cycles, of each probe answered (R338). -/
  probes : List Nat
  /-- Next SEQ (PSEQ) to use (R304, R331). -/
  txSeq : Nat
  /-- Units not yet acknowledged, oldest first (R307). -/
  kept : List KeptUnit
  /-- Bodies (or, on a path, packets) that wait while the retry buffer is full (R307). -/
  txq : List (List Byte)
  /-- Replays of the oldest unit without ACK advancing (R309). -/
  replays : Nat
  /-- Tick of the last progress of the oldest unacknowledged unit (R307). -/
  ackTick : Nat
  /-- E, the next expected SEQ (R306). -/
  rxSeq : Nat
  /-- An error event is open: units other than E are being discarded (R306). -/
  errOpen : Bool
  /-- NAK is to be set in the next unit sent (R306). -/
  nakDue : Bool
  /-- Tick at which the last NAK was asked for (R306). -/
  nakTick : Nat
  /-- An ACKONLY frame is owed, since this tick (R334). -/
  ackOwed : Option Nat
  /-- Bytes of a packet that began in an earlier flit (R305). -/
  partialPkt : List Byte
  /-- Uncorrectable codewords with the tick each arrived (R309). -/
  uncorr : List Nat
  /-- Credits held towards the peer: VC3 lanes 0 and 1, VC4, in units of 256 bytes (R325). -/
  credits : List Nat
  /-- Credits owed to the peer: VC3 lanes 0 and 1, VC4 (R325). -/
  owed : List Nat
  /-- Tick of the last CREDIT packet sent (R325). -/
  creditTick : Nat
  /-- Tick at which FAILED was entered (R336). -/
  failTick : Nat
  deriving DecidableEq, Repr, Inhabited

/-- A VC3 packet waiting for a port, with the input it came by (R329): a port; or the local source, 36 + s for the responder of
slice s, 44 for answers, 64 + q for ground queue q. -/
structure GroundPkt where
  input : Nat
  bytes : List Byte
  deriving DecidableEq, Repr, Inhabited

/-- An input of a port's VC3 arbiter (R329): its input port, the FAN and the tick of its last packet, its deficit. -/
structure ArbInput where
  input : Nat
  fan : Nat
  tick : Nat
  deficit : Nat
  deriving DecidableEq, Repr, Inhabited

/-- A window on a port (Table 5-8): the pitch it serves, the start of its setup, its interval, and the end of its
retry extension (setup and extension only at a pitch's first and last window). -/
structure Window where
  pitch : Nat
  vc : Nat
  lead : Nat
  start : Nat
  stop : Nat
  extEnd : Nat
  deriving DecidableEq, Repr, Inhabited

/-- A port: its link (for a carriage port, its PHY), what waits to be sent on it, and what it has sent and received. -/
structure Port where
  link : Link
  /-- PRT_CTL.DISABLE (R477), and whether an enabling write waits for the next step origin. -/
  disable : Bool
  enableDue : Bool
  /-- Transfer windows taken on the port, with setup and extension (Table 5-8). -/
  windows : List Window
  /-- VC3 packets that wait for a slot (R329, R330). -/
  ground : List GroundPkt
  arb : List ArbInput
  /-- Deficits of the VC3 and VC4 classes (R330). -/
  deficits : List Nat
  /-- VC4 packets that wait for a slot. -/
  control : List (List Byte)
  /-- Prusik requests that wait, each with the tick from which it may leave (R323), and the tick of the last one sent. -/
  prusik : List (Nat × List Byte)
  prusikTick : Option Nat
  /-- Corrected codewords of the current 250,000-tick window (R460). -/
  corrected : Nat
  /-- Count carried by the last BELAY packet sent, and its tick (R312). -/
  belayTick : Nat
  /-- Last marker sent: its count (R311). -/
  markSent : Nat
  /-- The last BELAY packet received: next MARK count, VALID, ROOT (R312, R388). -/
  belayRx : Option (Nat × Bool × Bool)
  /-- Packets received, reassembled from flits or frames and not yet taken by a command, oldest first. -/
  rx : List (List Byte)
  /-- Units put on the wire, oldest first: the model's own record of the output (log 12). -/
  wire : List (List Byte)
  deriving DecidableEq, Repr, Inhabited

/-- States of a bride (Table 9-11). -/
inductive BrideSt where
  | isOpen | closedActive | closedPassive
  deriving DecidableEq, Repr, Inhabited

/-- A bride (R340, R341). `openEn` and `at` are PRT_BRIDE_CTL.OPEN_EN and PRT_BRIDE_AT. -/
structure Bride where
  st : BrideSt
  openEn : Bool
  atCount : Nat
  /-- Flits passed through: the model's own record of the output, towards the even and the odd port (log 12). -/
  wire : List (Bool × List Byte)
  deriving DecidableEq, Repr, Inhabited

/-! ### Anchors and ground queues -/

/-- States of an anchor (Table 10-1). -/
inductive AnchorSt where
  | free | armed | revoked
  deriving DecidableEq, Repr, Inhabited

/-- An anchor entry (Table 10-1). `lastArm` is the tick at which its previous ARM took effect (Table 10-2). -/
structure Anchor where
  st : AnchorSt
  page1G : Bool
  irq : Bool
  fbind : Bool
  bound : Bool
  rightF : Bool
  rightW : Bool
  rightR : Bool
  resv : Nat
  tag : Nat
  epoch : Nat
  fsrc : Nat
  fsq : Nat
  length : Nat
  plBase : Nat
  fcount : Nat
  lastFseq : Nat
  lastArm : Option Nat
  deriving DecidableEq, Repr, Inhabited

/-- A message-tracker entry (R362). -/
structure TrackEnt where
  src : Nat
  sq : Nat
  seq : Nat
  resp : Bool
  anchor : Nat
  key : Nat
  n : Nat
  counted : List Nat
  /-- First failure: status code and OFFSET. -/
  failure : Option (Nat × Nat)
  /-- Held flag packet: its offset in the anchor and its bytes. -/
  heldFlag : Option (Nat × List Byte)
  /-- The LAST packet has arrived, at this tick. -/
  lastTick : Option Nat
  /-- Tick of the last packet seen (AGE). -/
  seenTick : Nat
  /-- The request came by an auxiliary node's queue. -/
  aux : Option Nat
  deriving DecidableEq, Repr, Inhabited

/-- A translation cached by a slice (R354). -/
structure TransEnt where
  anchor : Nat
  epoch : Nat
  page : Nat
  phys : Nat
  deriving DecidableEq, Repr, Inhabited

/-- A read request queued at a slice's responder (R370): the packet's header fields that the answer needs. -/
structure ReadJob where
  src : Nat
  sq : Nat
  seq : Nat
  key : Nat
  epoch : Nat
  moff : Nat
  rkey : Nat
  roff : Nat
  rlen : Nat
  repoch : Nat
  deriving DecidableEq, Repr, Inhabited

/-- What an outstanding message waits for (R367). -/
inductive MsgTimer where
  | rto | backoff
  deriving DecidableEq, Repr, Inhabited

/-- An outstanding message of a ground queue (R365). -/
structure OutMsg where
  seq : Nat
  /-- Index of the entry (mod 2^16) and of the message in it. -/
  entry : Nat
  msg : Nat
  attempts : Nat
  /-- RTO expiries without any answer (R368). -/
  silent : Nat
  first : Nat
  timer : MsgTimer
  timerAt : Nat
  backoff : Nat
  flagged : Bool
  deriving DecidableEq, Repr, Inhabited

/-- How a message of an entry in progress ended: DONE, or a failure with its status, FOFF and message index (R376). -/
structure EntryRun where
  /-- Index of the entry, mod 2^16. -/
  index : Nat
  /-- Messages in the entry (0 for NOP and WAIT). -/
  total : Nat
  /-- Messages started and messages ended DONE. -/
  started : Nat
  done : Nat
  /-- The first failed message: its index, status and FOFF in the transfer. -/
  failed : Option (Nat × Nat × Nat)
  /-- A WAIT that is not released; and UPSTAT as its release gives it (R378). -/
  waiting : Bool
  upstat : Nat
  deriving DecidableEq, Repr, Inhabited

/-- States of a ground queue (Table 10-12). -/
inductive QSt where
  | idle | armed | running | suspending | suspended | faulted | draining | disabled
  deriving DecidableEq, Repr, Inhabited

/-- The code of a queue state in GRQ_STAT (Table 14-18). -/
def QSt.code : QSt → Nat
  | .idle => 0 | .armed => 1 | .running => 2 | .suspending => 3 | .suspended => 4 | .faulted => 5 | .draining => 6
  | .disabled => 7

/-- A ground queue (R373, R374, R377, R379). -/
structure GroundQ where
  st : QSt
  /-- Descriptor words (Table 10-10). -/
  desc : List Nat
  head : Nat
  tail : Nat
  seq : Nat
  doneCount : Nat
  errCount : Nat
  lastFail : Nat
  armErr : Nat
  suspPending : Bool
  /-- Entries in progress, in ring order. -/
  runs : List EntryRun
  out : List OutMsg
  /-- Suspended by bivouac entry (R381). -/
  bivSusp : Bool
  deriving DecidableEq, Repr, Inhabited

end Sys2Proof.Machine
end

