-- ==== Sys2Proof/Machine/State.lean ====
section
/-! DEFINITION. The state of the engine as plain data, its faults and refusals, and the state at standby power-on before
any supply event (`State.reset`). INVENTORY.md lists each field with the rule that names it and its reset value. -/

namespace Sys2Proof.Machine

/-- Faults. No command of the engine ends in one: the manual gives every row an effect. -/
inductive Fault where
  /-- Raised by no command; safe. -/
  | none
  deriving DecidableEq, Repr

/-- Refusals. -/
inductive Refusal where
  /-- A row whose meaning has not been written; raised only by `exec` itself; safe. -/
  | notModelled (mnemonic : String)
  deriving DecidableEq, Repr

/-- Global states (R433, coded as GLB_STATE). -/
inductive GState where
  | off | loading | held | ready | running | bivouac
  deriving DecidableEq, Repr, Inhabited

/-- The code of a global state (Table 14-4). -/
def GState.code : GState → Nat
  | .off => 0 | .loading => 1 | .held => 2 | .ready => 3 | .running => 4 | .bivouac => 5

/-- A suspect window (R453): the die, its start (belay count), and its lowest reading in mV. -/
structure Suspect where
  die : Nat
  start : Nat
  low : Nat
  /-- It marks steps: it did not open during bivouac entry or wake (Table 12-14). -/
  marks : Bool
  /-- Number of the step that it marked last, plus 1. -/
  marked : Nat
  deriving DecidableEq, Repr, Inhabited

/-- What phase 1 read of the birth record (Table 12-5). -/
structure Birth where
  serial : Nat
  grade : Nat
  pid : Nat
  saddr : Nat
  deriving DecidableEq, Repr, Inhabited

/-- What the key records gave (R426). -/
structure OwnerKey where
  kseq : Nat
  ownerOnly : Bool
  qx : Nat
  qy : Nat
  deriving DecidableEq, Repr, Inhabited

/-- Power, global state, and the supply monitor (R433, R452, R453). -/
structure Power where
  /-- The standby supply is present (R35). -/
  standby : Bool
  st : GState
  prior : GState
  /-- Cycles of the 25 MHz standby reference since standby power-on (R442, R458). -/
  cycles : Nat
  /-- The core rail is up: above 0.575 V for 1 ms and core reset released (R433). -/
  rail : Bool
  /-- The package has reported its HBM ready (R430). -/
  hbmReady : Bool
  /-- Phase of Table 12-7 that runs, 0 outside loading. -/
  phase : Nat
  /-- Copy that LOAD named: 0 AUTO, 1 A, 2 B (R429). -/
  loadCopy : Nat
  now : List Nat
  low : List Nat
  warn : List Bool
  suspects : List Suspect
  /-- Cause of HELD (Table 12-8), and failing check (Table 14-13). -/
  cause : Nat
  check : Nat
  /-- Pattern store interface mode (Table 14-26). -/
  storeMode : Nat
  birth : Option Birth
  /-- Phase 1 has read the store and found no birth record. -/
  phase1 : Bool
  key : Option OwnerKey
  deriving DecidableEq, Repr, Inhabited

/-- Owners of the control plane (R441, coded as GLB_OWN.OWNER). -/
inductive Owner where
  | host | released | mgmt
  deriving DecidableEq, Repr, Inhabited

/-- The code of an owner (Table 14-6). -/
def Owner.code : Owner → Nat
  | .host => 0 | .released => 1 | .mgmt => 2

/-- The management controller: ownership, heartbeats, Igvaelo (R441 to R447). Heartbeats are standby cycles. -/
structure Mgmt where
  owner : Owner
  hostHb : Nat
  mgtHb : Nat
  da : Option Nat
  mwl : Nat
  mrl : Nat
  events : Nat
  rstAction : Nat
  eid : Nat
  tid : Nat
  receiver : Nat
  /-- MGT_COORD as written, and the coordinate taken at load (R500). -/
  coordReg : Nat
  coord : Nat
  /-- The state sensors as last reported to the event receiver: global, receiver, owner (R447). -/
  sensors : List Nat
  deriving DecidableEq, Repr, Inhabited

/-- Who staged, and how far (R435 to R437). -/
structure Staging where
  /-- 0 IDLE, 1 RUNNING, 2 STAGED, 3 FAILED, 4 ABORTED (Table 14-14). -/
  st : Nat
  byMgmt : Bool
  toB : Bool
  len : Nat
  /-- Bytes programmed so far. -/
  progress : Nat
  /-- Step 3 of R436 has begun: the header is programmed. -/
  header : Bool
  deriving DecidableEq, Repr, Inhabited

/-- The image block's state (Tables 14-13, 14-14). -/
structure ImgSt where
  run : Option Image
  /-- The image that the running one replaced, kept until its first step has started (R24, R440). -/
  previous : Option Image
  prepared : Option Image
  prep : Nat
  pcause : Nat
  rethread : Nat
  rethreadStep : Nat
  reason : Nat
  staging : Staging
  /-- A copy is loaded; its place and SEQ. -/
  loaded : Bool
  loadedB : Bool
  seq : Nat
  /-- The loaded image has been launched (R108). -/
  launched : Bool
  deriving DecidableEq, Repr, Inhabited

/-- States of the belay receiver (Table 11-3). -/
inductive BelaySt where
  | acquire | locked | holdover | stalled
  deriving DecidableEq, Repr, Inhabited

/-- The code of a receiver state (Table 14-12). -/
def BelaySt.code : BelaySt → Nat
  | .acquire => 0 | .locked => 1 | .holdover => 2 | .stalled => 3

/-- The belay receiver (R388, R389, R394). -/
structure Belay where
  st : BelaySt
  count : Nat
  /-- Candidate in use, 63 for none. -/
  cand : Nat
  /-- Last phase error in 1/32 core cycle. -/
  phase : Int
  lastGood : Nat
  goodRun : Nat
  badRun : Nat
  /-- BELAY packets in a row that disagreed with their marker (Table 11-5). -/
  disagree : Nat
  hoStart : Nat
  /-- Held (STALLED) at this count until the upstream reaches it (R397). -/
  holdFor : Bool
  refPresent : Bool
  /-- The machine root has taken BLY_ROOT_START (R394). -/
  rooted : Bool
  /-- PTP at a pod root: (sequenceId, receive stamp, origin, correction) of the last Sync, waiting for its Follow_Up. -/
  syncWait : Option (Nat × Int × Int × Int)
  /-- Master-to-slave interval last formed, and the stamp of the last Delay_Req sent with its sequenceId. -/
  ms : Option Int
  dreq : Option (Nat × Int)
  /-- Recovered offset and mean path delay, in 1/192 tick. -/
  offset : Int
  delay : Int
  ptpSeq : Nat
  /-- PTP messages put on the wire (log 12): kind, port, sequenceId, time. -/
  ptpOut : List (Nat × Nat × Nat × Int)
  discarded : Nat
  deriving DecidableEq, Repr, Inhabited

/-- Launch, stop, bivouac and wake requests (R399, R434, R449; Tables 14-2 and 14-12). -/
structure Requests where
  /-- An accepted launch, bivouac request, wake count or STOP is in force. -/
  launchOn : Bool
  bivOn : Bool
  wakeOn : Bool
  stopOn : Bool
  launch : Nat
  launchReason : Nat
  launchAt : Nat
  launchStep : Nat
  replay : Bool
  biv : Nat
  bivReason : Nat
  bivStep : Nat
  wake : Nat
  wakeAt : Nat
  stop : Nat
  stopReason : Nat
  stopStep : Nat
  /-- Bivouac entry: waits for the queues since this count (R450). -/
  entering : Option Nat
  entryAt : Nat
  waking : Bool
  /-- Entries of the replay record of the running step, in replay mode (R413). -/
  replayDevs : List Dev
  replayAt : Nat
  replaySeal : List Byte
  replayDecision : Option (Nat × Nat)
  /-- Items of the INTAKE, DPIN, TOKEN and HOST sections of that record. -/
  replayIntake : List (List Byte)
  replayPins : List (List Byte)
  replayTokens : List (List Byte)
  replayHost : List (List Byte)
  /-- Tiles that wait for an earlier tile of their block in the recorded order: slice, header, payload. -/
  replayWait : List (Nat × BitVec 128 × List Byte)
  deriving DecidableEq, Repr, Inhabited

/-- A group queue (R120, Table 14-17). -/
structure GroupQ where
  /-- 0 IDLE, 1 FORMING, 2 ARMED, 3 REFUSED. -/
  st : Nat
  refuse : Nat
  last : Nat
  done : Nat
  pitch : Nat
  armTick : Nat
  deriving DecidableEq, Repr, Inhabited

/-- A coalescing window (R465). -/
structure CairnWin where
  cls : Nat
  source : Nat
  opened : Nat
  firstTime : Nat
  lastTime : Nat
  count : Nat
  /-- Last cairn's record number fields. -/
  last : CairnSub
  step : Nat
  bits : Nat
  deriving DecidableEq, Repr, Inhabited

/-- The cairn log (R464 to R472). Records are 256-bit numbers in the layout of Table 13-3. -/
structure CairnLog where
  ring : Tab Nat
  wr : Nat
  rd : Nat
  queue : List Nat
  windows : List CairnWin
  /-- Capture slots: 0 global, c for class c. -/
  capture : Tab Nat
  qdrop : Nat
  rdrop : Nat
  /-- Ring slots and capture slots (4,096 + c) whose parity fails (R469). -/
  badParity : List Nat
  deriving DecidableEq, Repr, Inhabited

/-- Anchors, tracker, translation caches and read responders (chapter Anchors). -/
structure Anchors where
  tab : Tab Anchor
  sel : Nat
  /-- ANC_STAT: OP, REASON and INDEX. -/
  op : Nat
  reason : Nat
  index : Nat
  /-- The operation in progress: 1 ARM, 2 REVOKE, 3 DISARM, and whether it will be refused, with its reason. -/
  busy : Option (Nat × Nat)
  tracker : List TrackEnt
  trans : Tab (List TransEnt)
  jobs : Tab (List ReadJob)
  deriving DecidableEq, Repr, Inhabited

/-- What the engine sends to its masters: interrupt writes, in-band interrupts, pop queues, replies (R471, R489, R490). -/
structure Outputs where
  /-- Message-signalled interrupts written: address and data. -/
  msi : List (Nat × Nat)
  /-- Interrupt bits set while no interrupt can be sent (R489). -/
  owed : Nat
  /-- I3C in-band interrupts raised (mandatory data byte). -/
  ibi : List Nat
  /-- PLDM PlatformEventMessages sent: sensor and new state (R447). -/
  events : List (Nat × Nat)
  flagPop : List Nat
  flagOvf : Bool
  irqPop : List Nat
  irqOvf : Bool
  /-- The last reply: completion code, then data words or bytes. -/
  reply : List Nat
  /-- Bytes written to compute scratch: slice, pitch, chunk, bytes (R160). -/
  scratch : List (Nat × Nat × Nat × List Byte)
  deriving DecidableEq, Repr, Inhabited

/-- The save area of step 2 of R450: queues, anchors, core registers and the counter block (R482). -/
structure SaveArea where
  groups : Tab GroupQ
  anc : Anchors
  gq : Tab GroundQ
  regs : Tab Nat
  counters : Tab Nat
  deriving DecidableEq, Repr, Inhabited

/-- The engine. -/
structure State where
  /-- The commands that wait, first in first out: the model's own field. -/
  pending : List Instr
  power : Power
  mgmt : Mgmt
  /-- Registers that hold what was written, by offset; a register not listed holds its reset value (Tables 14-2 to 14-26). -/
  regs : Tab Nat
  /-- Captured _HI halves, keyed by offset × 2 + master (R483). -/
  hiCap : Tab Nat
  img : ImgSt
  belay : Belay
  req : Requests
  seq : Seq
  srec : StepRec
  /-- The records of steps whose SEAL has issued and not completed, oldest first (R37, R407). -/
  sealing : List StepRec
  slices : List Slice
  stations : Tab Station
  tok : TokSt
  groups : Tab GroupQ
  ports : List Port
  /-- Carriage paths, path w of port Cn at 32 n + w. -/
  paths : List Link
  brides : List Bride
  anc : Anchors
  gq : Tab GroundQ
  cairn : CairnLog
  /-- Counter block: totals by offset from CB (R497). -/
  counters : Tab Nat
  hbm : Memory
  /-- HBM words (8 bytes, by address ÷ 8) whose read is uncorrectable (R473). -/
  hbmBad : List Nat
  store : Memory
  /-- Scale history, level history (keyed by tensor × 2^26 + unit) and heat history (keyed by tensor) (R45, R58, R95). -/
  scaleHist : Tab (List HistEnt)
  levelHist : Tab (List HistEnt)
  heatHist : Tab (List HistEnt)
  /-- Level residuals, keyed by pitch × 2^24 + chunk (R59), and the step's level maxima by tensor × 2^26 + unit. -/
  levelRes : Tab (List Int)
  levelMax : Tab Nat
  /-- Spike history (R286), oldest first. -/
  spikes : List Nat
  out : Outputs
  /-- Saved at bivouac entry, restored at wake (R450, R482). -/
  saved : Option SaveArea
  /-- Number of free values taken so far: the model's own field (log 4). -/
  free : Nat
  deriving DecidableEq, Repr

/-! ### Reset -/

/-- A link that has never trained. -/
def Link.reset : Link :=
  { st := .off, fail := 0, peer := 0, bridges := 0, passed := 0, hm := 0, lambda := none, probes := [], txSeq := 0, kept := [], txq := [],
    replays := 0, ackTick := 0, rxSeq := 0, errOpen := false, nakDue := false, nakTick := 0, ackOwed := none, partialPkt := [],
    uncorr := [], credits := [256, 256, 64], owed := [0, 0, 0], creditTick := 0, failTick := 0 }

/-- A port at reset. -/
def Port.reset : Port :=
  { link := Link.reset, disable := false, enableDue := false, windows := [], ground := [], arb := [], deficits := [0, 0],
    control := [], prusik := [], prusikTick := none, corrected := 0, belayTick := 0, markSent := 0, belayRx := none, rx := [],
    wire := [] }

/-- A slice at reset: nothing staged, no fence, no table (R456). -/
def Slice.reset : Slice := default

/-- A ground queue at reset: IDLE (Table 10-12). -/
def GroundQ.reset : GroundQ :=
  { st := .idle, desc := [0, 0, 0, 0, 0, 0, 0, 0], head := 0, tail := 0, seq := 0, doneCount := 0, errCount := 0, lastFail := 0,
    armErr := 0, suspPending := false, runs := [], out := [], bivSusp := false }

/-- An anchor at image load: FREE with EPOCH 0 (R350). -/
def Anchor.reset : Anchor :=
  { st := .free, page1G := false, irq := false, fbind := false, bound := false, rightF := false, rightW := false, rightR := false,
    resv := 0, tag := 0, epoch := 0, fsrc := 0, fsq := 0, length := 0, plBase := 0, fcount := 0, lastFseq := 0, lastArm := none }

/-- A group queue at reset: IDLE (R120). -/
def GroupQ.reset : GroupQ := ⟨0, 0, 0, 0, 0, 0⟩

/-- A station at reset: every slot EMPTY, every norm register 0. -/
def Station.reset : Station := ⟨[], [], false, false⟩

/-- A coding context with no bank (Table 14-20: NOBANK 1). -/
def CtxSt.reset : CtxSt :=
  { banks := [none, none, none, none], cur := none, gen := 0, pending := none, missed := 0, hist := [], disable := false,
    enableDue := false, survey := default }

/-- A bride as the standby supply rises: CLOSED-ACTIVE (R494). -/
def Bride.reset : Bride := ⟨.closedActive, false, 0, []⟩

/-- Anchors at reset: all FREE. -/
def Anchors.reset : Anchors := ⟨[], 0, 0, 0, 0, none, [], [], []⟩

/-- A sequencer that runs nothing. -/
def Seq.reset : Seq :=
  { running := false, sec := 0, secOrigin := 0, step := 0, origin := 0, variant := 0, nextOrigin := 0, next := 0,
    pos := [0, 0, 0, 0, 0, 0, 0, 0, 0, 0], issue := [[], [], [], [], [], [], [], [], [], []], delay := [0, 0, 0, 0, 0, 0, 0, 0, 0, 0],
    flights := [], holds := [], closed := [], pclosed := [], picots := [], asm := [], gaps := [], misses := [], missed := [], windows := [], dyn := [],
    dynAccepted := 0, doorbells := 0, ignored := 0, gateWait := false, adds := [0, 0, 0, 0, 0, 0, 0, 0], lost := [] }

/-- A step record with nothing in it. -/
def StepRec.reset : StepRec := default

/-- The state right after standby power-on, OFF with the core rail down (R433, R456). Log 5 lists the values that the
manual does not give. -/
def State.reset : State :=
  { pending := []
    power := { standby := true, st := .off, prior := .off, cycles := 0, rail := false, hbmReady := false, phase := 0,
               loadCopy := 0, now := [0, 0, 0, 0, 0, 0, 0, 0], low := [0, 0, 0, 0, 0, 0, 0, 0],
               warn := [false, false, false, false, false, false, false, false], suspects := [], cause := 0, check := 0,
               storeMode := 0, birth := none, phase1 := false, key := none }
    mgmt := { owner := .host, hostHb := 0, mgtHb := 0, da := none, mwl := 69, mrl := 69, events := 0,
              rstAction := 0, eid := 0, tid := 0, receiver := 0, coordReg := 0, coord := 0, sensors := [0, 0, 0] }
    regs := [], hiCap := []
    img := { run := none, previous := none, prepared := none, prep := 0, pcause := 0, rethread := 0, rethreadStep := 0,
             reason := 0, staging := ⟨0, false, false, 0, 0, false⟩, loaded := false, loadedB := false, seq := 0, launched := false }
    belay := { st := .acquire, count := 0, cand := 63, phase := 0, lastGood := 0, goodRun := 0, badRun := 0, disagree := 0,
               hoStart := 0, holdFor := false, refPresent := false, rooted := false, syncWait := none, ms := none,
               dreq := none, offset := 0, delay := 0, ptpSeq := 0, ptpOut := [], discarded := 0 }
    req := { launchOn := false, bivOn := false, wakeOn := false, stopOn := false, launch := 0, launchReason := 0, launchAt := 0, launchStep := 0, replay := false, biv := 0, bivReason := 0,
             bivStep := 0, wake := 0, wakeAt := 0, stop := 0, stopReason := 0, stopStep := 0, entering := none, entryAt := 0,
             waking := false, replayDevs := [], replayAt := 0, replaySeal := [], replayDecision := none,
             replayIntake := [], replayPins := [], replayTokens := [], replayHost := [], replayWait := [] }
    seq := Seq.reset
    srec := StepRec.reset
    sealing := []
    slices := List.replicate 8 Slice.reset
    stations := []
    tok := default
    groups := []
    ports := List.replicate 36 Port.reset
    paths := List.replicate 128 Link.reset
    brides := List.replicate 8 Bride.reset
    anc := Anchors.reset
    gq := []
    cairn := ⟨[], 0, 0, [], [], [], 0, 0, []⟩
    counters := []
    hbm := []
    hbmBad := []
    store := []
    scaleHist := [], levelHist := [], heatHist := [], levelRes := [], levelMax := [], spikes := []
    out := { msi := [], owed := 0, ibi := [], events := [], flagPop := [], flagOvf := false, irqPop := [], irqOvf := false,
             reply := [], scratch := [] }
    saved := none
    free := 0 }

end Sys2Proof.Machine
end

