-- ==== Sys2Proof/Machine/Ops.lean ====
section
/-! DEFINITION. The shared operations of the engine: reading and changing one part of the state, counters, deviation entries,
cairns, interrupts, fences, and the conditions that hold after every command (`settle`). -/

namespace Sys2Proof.Machine

/-! ### Parts of the state -/

/-- Slice `i`. -/
def State.slice (s : State) (i : Nat) : Slice := s.slices.getD i Slice.reset

/-- Slice `i` changed. -/
def State.onSlice (s : State) (i : Nat) (f : Slice → Slice) : State := { s with slices := s.slices.modify i f }

/-- Port by PORTQ code. -/
def State.port (s : State) (p : Nat) : Port := s.ports.getD p Port.reset

/-- Port `p` changed. -/
def State.onPort (s : State) (p : Nat) (f : Port → Port) : State := { s with ports := s.ports.modify p f }

/-- Carriage path `w` of port Cn. -/
def State.path (s : State) (n w : Nat) : Link := s.paths.getD (32 * n + w) Link.reset

/-- Carriage path changed. -/
def State.onPath (s : State) (n w : Nat) (f : Link → Link) : State := { s with paths := s.paths.modify (32 * n + w) f }

/-- Bride of ring pair `r`. -/
def State.bride (s : State) (r : Nat) : Bride := s.brides.getD r Bride.reset

/-- Bride of ring pair `r` changed. -/
def State.onBride (s : State) (r : Nat) (f : Bride → Bride) : State := { s with brides := s.brides.modify r f }

/-- Station `k`. -/
def State.station (s : State) (k : Nat) : Station := s.stations.get Station.reset k

/-- Station `k` changed. -/
def State.onStation (s : State) (k : Nat) (f : Station → Station) : State :=
  { s with stations := s.stations.put k (f (s.station k)) }

/-- Group queue `g`. -/
def State.groupQ (s : State) (g : Nat) : GroupQ := s.groups.get GroupQ.reset g

/-- Group queue `g` changed. -/
def State.onGroup (s : State) (g : Nat) (f : GroupQ → GroupQ) : State :=
  { s with groups := s.groups.put g (f (s.groupQ g)) }

/-- Ground queue `q`. -/
def State.groundQ (s : State) (q : Nat) : GroundQ := s.gq.get GroundQ.reset q

/-- Ground queue `q` changed. -/
def State.onGround (s : State) (q : Nat) (f : GroundQ → GroundQ) : State := { s with gq := s.gq.put q (f (s.groundQ q)) }

/-- Anchor `i`. -/
def State.anchor (s : State) (i : Nat) : Anchor := s.anc.tab.get Anchor.reset i

/-- Anchor `i` changed. -/
def State.onAnchor (s : State) (i : Nat) (f : Anchor → Anchor) : State :=
  { s with anc := { s.anc with tab := s.anc.tab.put i (f (s.anchor i)) } }

/-- The running image. -/
def State.image (s : State) : Image := s.img.run.getD default

/-- The pricking of the running variant (R196). -/
def State.pricking (s : State) : Pricking := s.image.pricking s.seq.variant

/-- The package's coordinate (R500). -/
def State.coord (s : State) : Nat := s.mgmt.coord

/-- The belay count (R20). -/
def State.count (s : State) : Nat := s.belay.count

/-- The tick offset in the running section (R164). -/
def State.offset (s : State) : Nat := s.belay.count - s.seq.secOrigin

/-- The control plane has the core's power: not OFF and not BIVOUAC (R482). -/
def State.coreUp (s : State) : Bool := s.power.st ≠ .off && s.power.st ≠ .bivouac

/-- The engine runs. -/
def State.isRunning (s : State) : Bool := s.power.st = .running

/-- Step gate mode or replay mode: relaxed timing (R193, R413). -/
def State.relaxed (s : State) : Bool := s.image.config.gate || s.req.replay

/-- Slices fenced. -/
def State.fencedSlices (s : State) : List Nat := (List.range 8).filter (fun i => (s.slice i).fenced)

/-- Take a free value (log 4). -/
def State.fresh (s : State) : Nat × State := (Config.freeValue s.free, { s with free := s.free + 1 })

/-! ### HBM -/

/-- The words of `[a, a + n)`. -/
def wordsOf (a n : Nat) : List Nat := (List.range ((a + n + 7) / 8 - a / 8)).map (· + a / 8)

/-- A read of `[a, a + n)` meets an uncorrectable error (R473). -/
def State.hbmFaulty (s : State) (a n : Nat) : Bool := n > 0 && (wordsOf a n).any (fun w => s.hbmBad.contains w)

/-- Bytes of HBM. -/
def State.hbmRead (s : State) (a n : Nat) : List Byte := Memory.readN hbmBlank s.hbm a n

/-- Bytes of HBM written; a written word reads well again. -/
def State.hbmWrite (s : State) (a : Nat) (bs : List Byte) : State :=
  { s with
    hbm := Memory.writeN hbmBlank s.hbm a bs
    hbmBad := if bs = [] then s.hbmBad else s.hbmBad.filter (fun w => !(a ≤ 8 * w && 8 * w + 8 ≤ a + bs.length)) }

/-- A little-endian number in HBM. -/
def State.hbmNat (s : State) (a n : Nat) : Nat := leNat (s.hbmRead a n)

/-! ### Registers that hold what was written -/

/-- Reset value of a register by offset, where it is not 0 (Tables 14-2 to 14-26). -/
def regReset (off : Nat) : Nat :=
  if off = 0xD0 then 4096
  else if off = 0xE4 then 0x3F
  else if off = 0x50000 then 250000
  else if off = 0x50004 then 16384
  else if off = 0x50008 then 25000000
  else if off = 0x200030 then 65536
  else if off = 0x200034 then 262144
  else if off = 0x400018 then 0x00720108
  else if off = 0x40001C then 0x00720108
  else if off = 0x106000 then 0x4B0288B5
  else if off = 0x106004 then 7 * 2 ^ 22 + 2 * 2 ^ 19 + 6 * 2 ^ 16 + 6 * 2 ^ 13
  else if 0x100000 ≤ off ∧ off < 0x102400 ∧ off % 0x100 = 0x10 then 4 * 256 + 12
  else 0

/-- What a register that holds what was written holds. -/
def State.reg (s : State) (off : Nat) : Nat := s.regs.get (regReset off) off

/-- A register set. -/
def State.setReg (s : State) (off v : Nat) : State := { s with regs := s.regs.put off (v % 2 ^ 32) }

/-- A 64-bit value at a _LO register (R483). -/
def State.reg64 (s : State) (off : Nat) : Nat := s.reg off + s.reg (off + 4) * 2 ^ 32

/-- A step number at a _LO register: bits [15:0] of _HI (R483). -/
def State.reg48 (s : State) (off : Nat) : Nat := s.reg off + s.reg (off + 4) % 2 ^ 16 * 2 ^ 32

/-- The seed words (R415). -/
def State.seed (s : State) : List Nat := (List.range 8).map (fun i => s.reg (0x60 + 4 * i))

/-! ### Counters (R77, R497, R498) -/

/-- The step record that events enter (R37). -/
def State.onRec (s : State) (f : StepRec → StepRec) : State := { s with srec := f s.srec }

/-- A count added to the item (offset, unit word) of a list of counts. -/
def addCount (l : List (Nat × Nat × Nat)) (off unitw n : Nat) : List (Nat × Nat × Nat) :=
  match l with
  | [] => [(off, unitw, stick32 n)]
  | (o, u, v) :: r => if o = off ∧ u = unitw then (o, u, stick32 (v + n)) :: r else (o, u, v) :: addCount r off unitw n

/-- An engine-wide total raised, sticking at 2^32 - 1. -/
def State.total (s : State) (off n : Nat) : State :=
  if n = 0 then s else { s with counters := s.counters.put off (stick32 (s.counters.get 0 off + n)) }

/-- The unit word of a counter that has no unit. -/
def noUnit : Nat := 2 ^ 64

/-- A counter kept per unit raised: its total, and its item of the step (R498). The offset of such an item has bit 31
set; unit word `2^64` stands for a counter without a unit. -/
def State.bump (s : State) (off unitw n : Nat) : State :=
  if n = 0 then s
  else (s.total off n).onRec (fun r => { r with counts := addCount r.counts off unitw n })

/-- A unit word (R498). -/
def unitWord (a b c : Nat) : Nat := a % 2 ^ 20 + b % 2 ^ 26 * 2 ^ 20 + c % 2 ^ 16 * 2 ^ 46

/-! ### Deviation entries (R408 to R410) -/

/-- The 128-bit number of an entry (Table 11-9). -/
def Dev.toNat (d : Dev) : Nat :=
  d.cause + d.detail % 256 * 2 ^ 16 + d.unit % 256 * 2 ^ 24 + d.object % 2 ^ 32 * 2 ^ 32 + d.index % 2 ^ 32 * 2 ^ 64
    + d.rank % 2 ^ 16 * 2 ^ 96 + Nat.min d.value 65535 * 2 ^ 112

/-- The entry's contribution to ENTRY_SUM (R409). -/
def Dev.sum (d : Dev) : Nat :=
  let w := d.toNat
  crc32c (leBytes 16 w) * 2 ^ 32 + (field w 31 0 ^^^ field w 63 32 ^^^ field w 95 64 ^^^ field w 127 96)

/-- The STATUS bit that a cause maps to (R408). -/
def Dev.statusBit (d : Dev) : Nat :=
  if d.cause = 0x01 ∨ d.cause = 0x0C ∨ d.cause = 0x0D then 1
  else if 0x06 ≤ d.cause ∧ d.cause ≤ 0x0B then 2
  else if 0x02 ≤ d.cause ∧ d.cause ≤ 0x05 then 3
  else if d.cause = 0x0E then 4
  else if d.cause = 0x10 ∨ (d.cause = 0x12 ∧ d.detail = 9) then 5
  else if d.cause = 0x11 ∨ d.cause = 0x12 then 6
  else if d.cause = 0x18 then 7
  else if d.cause = 0x20 then 8
  else if d.cause = 0x21 ∨ d.cause = 0x22 then 9
  else if d.cause = 0x28 then 10
  else 11

/-- Set bit `i` of a status word. -/
def setBit (w i : Nat) : Nat := if flag w i then w else w + 2 ^ i

/-- A deviation entry entered in a step record; `devmax` entries are stored (R409). -/
def StepRec.addDev (r : StepRec) (devmax : Nat) (d : Dev) : StepRec :=
  { r with
    entries := r.entries + 1
    entrySum := (r.entrySum + d.sum) % 2 ^ 64
    status := setBit (setBit r.status 0) d.statusBit
    stored := if r.stored.length < devmax then r.stored ++ [d] else r.stored
    lstatus := if r.stored.length < devmax then r.lstatus else setBit r.lstatus 0 }

/-- A deviation entry entered under the current step (R37), and counted by its cause (Table 14-25). -/
def State.dev (s : State) (d : Dev) : State :=
  (s.bump (0x200 + 4 * d.cause) noUnit 1).onRec (fun r => r.addDev (field (s.reg 0xD0) 15 0) d)

/-- Deviation entries entered in order. -/
def State.devs (s : State) (ds : List Dev) : State := ds.foldl State.dev s

/-! ### Cairns (R463 to R467) -/

/-- The fields of a record that submission fixes: TIME, STEP, SUSPECT and NOBELAY (R463). -/
structure CairnStamp where
  time : Nat
  step : Nat
  suspect : Bool
  nobelay : Bool
  deriving DecidableEq, Repr

/-- The stamp of a cairn submitted now. -/
def State.stamp (s : State) : CairnStamp :=
  let acq := s.belay.st = .acquire
  { time := if acq then s.power.cycles else s.belay.count, step := if s.isRunning then s.srec.step % 2 ^ 16 else 0,
    suspect := s.power.suspects.length > 0, nobelay := acq }

/-- A record's 256-bit number (Table 13-3). -/
def cairnRecord (c : CairnSub) (t : CairnStamp) (summary nocoal : Bool) (count delta : Nat) : Nat :=
  t.time % 2 ^ 64 + Nat.min delta (2 ^ 32 - 1) * 2 ^ 64 + t.step % 2 ^ 16 * 2 ^ 96 + c.source % 2 ^ 16 * 2 ^ 112
    + c.cls % 256 * 2 ^ 128 + c.qual % 256 * 2 ^ 136 + ofBool summary * 2 ^ 144 + ofBool nocoal * 2 ^ 145
    + ofBool t.nobelay * 2 ^ 146 + ofBool t.suspect * 2 ^ 147 + stick32 count * 2 ^ 160 + c.a % 2 ^ 32 * 2 ^ 192
    + c.b % 2 ^ 32 * 2 ^ 224

/-- The class of a record. -/
def recordClass (r : Nat) : Nat := field r 135 128

/-- A record sent to the entry queue, or dropped and counted where it is full (R467). -/
def CairnLog.enqueue (l : CairnLog) (r : Nat) : CairnLog :=
  if l.queue.length < 256 then { l with queue := l.queue ++ [r] } else { l with qdrop := stick32 (l.qdrop + 1) }

/-- A capture slot filled if it is empty (R464). -/
def CairnLog.captureAt (l : CairnLog) (slot r : Nat) : CairnLog :=
  if (l.capture.find slot).isSome then l else { l with capture := l.capture.put slot r }

/-- A submitted cairn through capture and coalescing (R464 to R466). -/
def CairnLog.submit (l : CairnLog) (cycles : Nat) (c : CairnSub) (t : CairnStamp) : CairnLog :=
  let first := cairnRecord c t false false 1 0
  let l := (l.captureAt 0 first).captureAt c.cls first
  match l.windows.find? (fun w => w.cls = c.cls ∧ w.source = c.source) with
  | some _ =>
    { l with windows := l.windows.map (fun w =>
        if w.cls = c.cls ∧ w.source = c.source then
          { w with count := stick32 (w.count + 1), last := c, lastTime := t.time, step := t.step,
                   bits := ofBool t.nobelay + 2 * ofBool t.suspect }
        else w) }
  | none =>
    if l.windows.length < 128 then
      { (l.enqueue first) with windows := l.windows ++ [⟨c.cls, c.source, cycles, t.time, t.time, 1, c, t.step,
          ofBool t.nobelay + 2 * ofBool t.suspect⟩] }
    else l.enqueue (cairnRecord c t false true 1 0)

/-- A cairn submitted by any unit (R27), and counted by its class (R478, Table 14-25). -/
def State.raise (s : State) (cls source qual a b : Nat) : State :=
  let c : CairnSub := ⟨cls, source, qual, a, b⟩
  let s := (s.total (0x300 + 4 * cls) 1).onRec (fun r => { r with classes := r.classes.put cls (r.classes.get 0 cls + 1) })
  { s with cairn := s.cairn.submit s.power.cycles c s.stamp }

/-- An uncorrectable read of HBM: a SRAM-UE cairn (R473). -/
def State.hbmError (s : State) (src addr : Nat) : State := s.raise 0x08 src 0 11 (addr / 4096)

/-- Cairns submitted in order. -/
def State.raiseAll (s : State) (cs : List CairnSub) : State :=
  cs.foldl (fun s c => s.raise c.cls c.source c.qual c.a c.b) s

/-- SOURCE of a unit of a slice (Table 13-2): 0 sequencer, 1 ingress, 2 selection unit, 3 heat table, 4 reduction array,
5 coder, 6 dispatch unit, 7 staging, 8 pin buffer, 9 translation cache. -/
def sliceSource (unit slice : Nat) : Nat := 0x6000 + unit * 16 + slice

/-- SOURCE of a port, path, station, ground queue, group queue, die-to-die link, exchange die (Table 13-2). -/
def source (kind index : Nat) : Nat := kind * 2 ^ 12 + index

/-! ### Interrupts (R489) -/

/-- The interrupt of bit `n` sent: GLB_MSI_DATA + n written to GLB_MSI_ADDR. -/
def State.msi (s : State) (n : Nat) : State :=
  { s with out := { s.out with msi := s.out.msi ++ [(s.reg 0xE8 + s.reg 0xEC % 2 ^ 16 * 2 ^ 32, s.reg 0xF0 + n)] } }

/-- An interrupt of an enabled bit: sent, or kept until the core rail is up where the engine is in OFF or BIVOUAC. -/
def State.interrupt (s : State) (n : Nat) : State :=
  if s.coreUp then s.msi n else { s with out := { s.out with owed := setBit s.out.owed n } }

/-- An event sets bit `n` of GLB_IRQ_STAT (R489). -/
def State.irq (s : State) (n : Nat) : State :=
  let st := s.reg 0xE0
  if flag st n then s
  else
    let s := s.setReg 0xE0 (setBit st n)
    if flag (s.reg 0xE4) n then s.interrupt n else s

/-! ### Fences (R474, R475) -/

/-- The ring pair of a native ring port, if it is one (Table 1-8). -/
def ringPair (p : Nat) : Option Nat := if p < 32 ∧ p % 4 < 2 then some (p / 4) else none

/-- Ground queues disabled by a fence of slice `i` (R379): those that run drain, the others stop at once. -/
def GroundQ.fenceOff (g : GroundQ) : GroundQ :=
  match g.st with
  | .idle | .armed | .disabled => { g with st := .disabled }
  | .draining => g
  | .suspended | .running | .suspending | .faulted => { g with st := .draining }

/-- A fence takes effect on slice `i` (R475): its pins are abandoned, its staging is lost, its queues are disabled. Its
abandoned pins count in their group queues (R477). -/
def State.fenceEffect (s : State) (i : Nat) : State :=
  let lost := (s.seq.flights.filter (fun f => f.stream = i)).filterMap (fun f => f.pin.groupOf)
  let unissued := (s.seq.issue.getD i []).filterMap (fun x => x.pin.groupOf)
  let rest := if s.seq.running then
      ((s.pricking.stream s.seq.sec i).drop (s.seq.pos.getD i 0)).filterMap Pin.groupOf else []
  let s := (lost ++ unissued ++ rest).foldl
    (fun s g => s.onGroup g (fun q => { q with done := (q.done + 1) % 2 ^ 32, last := 9 })) s
  let s := { s with seq := { s.seq with flights := s.seq.flights.filter (fun f => f.stream ≠ i),
                                        issue := s.seq.issue.set i [],
                                        pos := s.seq.pos.set i (s.pricking.stream s.seq.sec i).length,
                                        dyn := s.seq.dyn.filter (fun p => p.slice ≠ i) } }
  let s := s.onSlice i (fun sl =>
    { sl with
      fenced := true, bufs := [], opens := [], tiles := [], prusik := []
      tensors := sl.tensors.map (fun e => (e.1, { e.2 with main := none, side := none })) })
  (List.range 128).foldl (fun s k => s.onGround (128 * i + k) GroundQ.fenceOff) s

/-- Slice `i` is fenced by `who` (1 host, 2 management, 3 engine) for a causing class, unless it is fenced already (R25,
R474): one FENCE cairn whose source is the slice's sequencer, and an item of the HOST section of the step. -/
def State.fence (s : State) (i who cause : Nat) : State :=
  if i ≥ 8 ∨ (s.slice i).fenced then s
  else
    let first := s.seq.pos.getD i 0
    let s := s.raise 0x16 (sliceSource 0 i) 0 who cause
    let s := s.onRec (fun r => { r with host := r.host ++ [leBytes 16
      (2 + (who - 1) * 2 ^ 8 + i * 2 ^ 16 + first % 2 ^ 32 * 2 ^ 32 + s.belay.count * 2 ^ 64)] })
    s.fenceEffect i

/-- The slices of a mask fenced. -/
def State.fenceMask (s : State) (mask who : Nat) : State := (maskBits mask).foldl (fun s i => s.fence i who 0) s

/-! ### Global state -/

/-- The sequencers stop: nothing runs, nothing is latched or in flight. -/
def State.stopRun (s : State) : State :=
  { s with
    seq := { s.seq with running := false, issue := [[], [], [], [], [], [], [], [], [], []], flights := [], holds := [],
                               dyn := [], gateWait := false }
    sealing := [] }

/-- The engine enters HELD for a cause of Table 12-8 (R431). The cairn of the cause is raised by the caller where its class
is not IMAGE. -/
def State.hold (s : State) (cause : Nat) : State :=
  let s := { s with power := { s.power with st := .held, cause := cause, phase := 0 } }
  s.stopRun

/-- HELD for a cause whose cairn class is IMAGE: copy in DETAIL_B [0], the failing check in [31:8]. -/
def State.holdImage (s : State) (cause check copy : Nat) : State :=
  let s := s.raise 0x14 (source 0 3) 0 cause (copy + check * 256)
  let s := s.hold cause
  { s with power := { s.power with check := check } }

/-! ### Conditions that hold after every command -/

/-- A port is cabled under R32 and R33: its axis extent is above 1, and its N peer lies inside the extent. -/
def State.cabled (s : State) (p : Nat) : Bool :=
  let e := s.image.config.extents
  if p ≥ 32 then true
  else if p ≥ 30 then true
  else if p % 4 < 2 then (if p < 16 then nth e 1 1 > 1 else nth e 2 1 > 1)
  else (field s.coord 15 13 ^^^ (p / 4 + 1)) < nth e 0 1

/-- A transfer is under way in a window of the port (Table 13-5). -/
def State.transferring (s : State) (p : Nat) : Bool :=
  (s.port p).windows.any (fun w => w.start < s.belay.count && s.belay.count ≤ w.stop)

/-- None of the conditions of state OFF of Table 9-9 holds for port `p`. -/
def State.mayTrain (s : State) (p : Nat) : Bool :=
  (s.power.st = .ready || s.power.st = .running || (s.req.waking && s.power.rail)) && !(s.slice (portSlice p)).fenced && s.cabled p
    && !((s.port p).disable && !s.transferring p)
    && (match ringPair p with | some r => (s.bride r).st = .isOpen | none => true)

/-- A link that is turned OFF: the retry buffer is emptied, and what was being reassembled is lost; PRT_STAT and PRT_MEAS keep
their last values (R494). -/
def Link.turnOff (l : Link) : Link :=
  { l with st := .off, fail := 0, kept := [], txq := [], replays := 0, errOpen := false, nakDue := false, partialPkt := [], uncorr := [],
           probes := [], ackOwed := none }

/-- A port under the conditions of OFF: turned off where one holds, PMD where it is OFF and none holds (Table 9-9). -/
def Port.conform (may : Bool) (p : Port) : Port :=
  if may then (if p.link.st = .off then { p with link := { p.link with st := .pmd } } else p)
  else { p with link := p.link.turnOff, ground := [], control := [], rx := [] }

/-- A link that starts training: SEQ and E start again, the retry buffer is empty and the credits are full (R309, R325). -/
def Link.restart (l : Link) (st : PortSt) : Link :=
  { l with st := st, fail := 0, kept := [], txq := [], replays := 0, errOpen := false, nakDue := false, partialPkt := [], uncorr := [],
           probes := [], ackOwed := none, txSeq := 0, rxSeq := 0, credits := [256, 256, 64], owed := [0, 0, 0] }

/-- A carriage path follows its port's PHY: OFF unless the PHY is UP and the pod is another one of the machine, IDENT when it comes
UP (R336). -/
def Link.conformPath (may : Bool) (l : Link) : Link :=
  if may then (if l.st = .off then l.restart .ident else l) else l.turnOff

/-- Path `w` leads to another pod of the machine (R337). -/
def State.pathCabled (s : State) (w : Nat) : Bool := w ≠ s.coord % 32 && w < nth s.image.config.extents 3 1

/-- Ports and paths that the conditions of Table 9-9 take out of UP, counted as departures from UP (Table 9-14). -/
def State.countOff (s : State) : State :=
  if !s.coreUp then s
  else
    let down := (List.range 36).filter (fun p => decide ((s.port p).link.st = .up) && !s.mayTrain p)
    let paths := fun (p : Nat) => (List.range 32).filter (fun w => p ≥ 32 && decide ((s.path (p - 32) w).st = .up))
    down.foldl (fun s p => (paths p).foldl (fun s w => s.bump (0x2000 + 0x800 * (p - 32) + 0x40 * w + 24) noUnit 1)
      (s.bump (0x1000 + 0x40 * p + 24) noUnit 1)) s

/-- Every port and path meets the conditions of Table 9-9. -/
def State.conformPorts (s : State) : State :=
  let ports := s.ports.mapIdx (fun p q => Port.conform (s.mayTrain p) q)
  { s with
    ports := ports
    paths := s.paths.mapIdx (fun i l => Link.conformPath (decide ((ports.getD (32 + i / 32) Port.reset).link.st = .up) && s.pathCabled (i % 32)) l) }

/-- Outside RUNNING no pin is latched (R432), and a fenced slice has none and no staging buffer (R475). -/
def State.conformPins (s : State) : State :=
  { s with
    seq := { s.seq with issue := s.seq.issue.mapIdx (fun i q =>
      if !s.isRunning || (i < 8 && (s.slice i).fenced) then [] else q) }
    slices := s.slices.map (fun sl => if sl.fenced then { sl with bufs := [] } else sl) }

/-- The codes of the state sensors: global state, receiver state, owner (R447). -/
def State.sensorCodes (s : State) : List Nat := [s.power.st.code, s.belay.st.code, s.mgmt.owner.code]

/-- A change of the global state sets GLB_IRQ_STAT.STATE, and every change of a state sensor sends a PlatformEventMessage to
the event receiver (R447, R489). -/
def State.report (s : State) : State :=
  let codes := s.sensorCodes
  let old := s.mgmt.sensors
  let changed := (indexed codes).filter (fun e => nth old e.1 0 ≠ e.2)
  let s := if nth old 0 0 ≠ s.power.st.code then s.irq 0 else s
  { s with mgmt := { s.mgmt with sensors := codes }, out := { s.out with events := if s.mgmt.receiver = 0 then s.out.events else s.out.events ++ changed } }

/-- Interrupts that waited in OFF or BIVOUAC are sent once the core rail is up (R489). -/
def State.sendOwed (s : State) : State :=
  if s.coreUp ∧ s.out.owed ≠ 0 then
    let s' := ((List.range 6).filter (fun n => flag s.out.owed n)).foldl (fun s n => s.msi n) s
    { s' with out := { s'.out with owed := 0 } }
  else s

/-- What holds after every command: state changes are reported, latches and ports meet their conditions. -/
def State.settle (s : State) : State := s.report.sendOwed.conformPins.countOff.conformPorts

/-- The answer of a command: the state that its effect leads to, settled, with the queue that it was given. -/
def answer (s t : State) : Host.Outcome State Fault Refusal := .next { t.settle with pending := s.pending }

/-- One cycle of the 25 MHz standby reference passes: what the block does when no command waits (log 2). -/
def standbyCycle (s : State) : State :=
  let t := if s.power.standby then { s with power := { s.power with cycles := s.power.cycles + 1 } } else s
  { t.settle with pending := s.pending }

/-! ### Time on the standby reference -/

/-- A heartbeat has been missing for 100 ms: 2,500,000 cycles of the standby reference (R441, R442). -/
def State.hostMissing (s : State) : Bool := s.power.cycles ≥ s.mgmt.hostHb + 2500000

/-- The management heartbeat has been missing for 100 ms. -/
def State.mgmtMissing (s : State) : Bool := s.power.cycles ≥ s.mgmt.mgtHb + 2500000

/-- The age of a heartbeat in ms, sticking at 1,023 (Table 14-6). -/
def ageMs (now at_ : Nat) : Nat := Nat.min 1023 ((now - at_) / 25000)

/-- The master's writes take effect in the ownership state (Table 12-10): the host as owner HOST, management as MGMT. -/
def State.owns (s : State) (m : Master) : Bool :=
  match m with
  | .host => s.mgmt.owner = .host
  | .mgmt => s.mgmt.owner = .mgmt

/-- The steps `u` of `[t0, t1)` with (u + 1) mod `n` = 0; none where `n` is 0 (R164). -/
def everyNth (n t0 t1 : Nat) : Nat := if n = 0 then 0 else t1 / n - t0 / n

/-- origin(t1) from origin(t0) = o, for t0 ≤ t1 (R164). -/
def PricHead.originAfter (h : PricHead) (t0 o t1 : Nat) : Nat :=
  o + (t1 - t0) * h.lStep + everyNth h.nEval t0 t1 * h.lEval + everyNth h.nCkpt t0 t1 * h.lCkpt

/-- origin(t) under the running header (R164), t at or after the running step. -/
def State.originOf (s : State) (t : Nat) : Nat :=
  s.pricking.head.originAfter s.seq.step s.seq.origin t

end Sys2Proof.Machine
end

