-- ==== Sys2Proof/Machine/LinkOps.lean ====
section
/-! DEFINITION. What the links send: flits with SEQ, ACK, NAK and LCRC (R304 to R307), frames on carriage paths (R331 to R334),
and the route of a packet (R326 to R328). -/

namespace Sys2Proof.Machine

/-- The retry buffer's limit in flits (R307). -/
def retryLimit : Nat := 2048

/-- The offset in the counter block of counter `i` of port `p` (Table 14-25). -/
def portCounter (p i : Nat) : Nat := 0x1000 + 0x40 * p + 4 * i

/-- The same of carriage path `w` of Cn. -/
def pathCounter (n w i : Nat) : Nat := 0x2000 + 0x800 * n + 0x40 * w + 4 * i

/-- A data flit sent on a link (R305, R306, R307): it takes the next SEQ, carries ACK, and NAK where one is due. -/
def Link.sendBody (l : Link) (tick : Nat) (mark : Bool) (body : List Byte) : Link × List Byte :=
  let f := flitBytes ⟨false, l.nakDue, l.txSeq, l.rxSeq, mark⟩ body
  ({ l with txSeq := (l.txSeq + 1) % 4096, kept := l.kept ++ [⟨l.txSeq, f⟩], nakDue := false,
            ackTick := if l.kept = [] then tick else l.ackTick }, f)

/-- An idle flit (Table 9-2): the SEQ to be used next, ACK, and NAK where one is due. -/
def Link.idleFlit (l : Link) (mark : Bool) : Link × List Byte :=
  ({ l with nakDue := false }, flitBytes ⟨true, l.nakDue, l.txSeq, l.rxSeq, mark⟩ [])

/-- Bodies sent while the retry buffer has room; the others wait (R307). -/
def Port.sendBodies (p : Port) (tick : Nat) : List (List Byte) → Port
  | [] => p
  | b :: bs =>
    if p.link.kept.length ≥ retryLimit then { p with link := { p.link with txq := p.link.txq ++ (b :: bs) } }
    else
      let r := p.link.sendBody tick false b
      Port.sendBodies { p with link := r.1, wire := p.wire ++ [r.2] } tick bs

/-- What waits for room is sent as far as there is room. -/
def Port.drain (p : Port) (tick : Nat) : Port :=
  let q := p.link.txq
  Port.sendBodies { p with link := { p.link with txq := [] } } tick q

/-- Packets sent on a native port. -/
def Port.sendPackets (p : Port) (tick : Nat) (pkts : List (List Byte)) : Port := p.sendBodies tick (packetBodies pkts)

/-- The tag control of a channel (R332), where tagging is enabled. -/
def State.carrTag (s : State) (vc : Nat) : Option Nat :=
  let c := s.reg 0x106004
  if flag c 0 then
    some (field c 12 1 + 2 ^ 13 * (if vc = 0 then field c 15 13 else if vc = 1 ∨ vc = 2 then field c 18 16
      else if vc = 3 then field c 21 19 else field c 24 22))
  else none

/-- The MAC address of carriage port Cn of a package (R332). -/
def State.mac (s : State) (coord n : Nat) : List Byte :=
  macAddress (field (s.reg 0x106000) 23 16) (field (s.reg 0x106000) 31 24) coord n

/-- The coordinate of the peer of path `w`: this package's, with that W (R337). -/
def State.pathPeer (s : State) (w : Nat) : Nat := packCoord ((coordAxes s.coord).set 3 w)

/-- A frame with a packet, or an ACKONLY frame, on path `w` of Cn. -/
def State.frame (s : State) (n w : Nat) (pkt : Option (List Byte)) (pseq : Nat) (l : Link) : List Byte :=
  let vc := match pkt with | some b => bytesAt b 0 1 / 32 | none => 4
  let body := carriageHead pkt.isNone l.nakDue l.rxSeq pseq ++ (match pkt with | some b => padTo 8 b | none => [])
  frameBytes (s.mac (s.pathPeer w) n) (s.mac s.coord n) (s.carrTag vc) (field (s.reg 0x106000) 15 0) body

/-- Retry room of a carriage port, shared among its paths (R334): bytes of the frames held by all of them. -/
def State.pathsHeld (s : State) (n : Nat) : Nat :=
  sumNat ((List.range 32).map (fun w => sumNat ((s.path n w).kept.map (fun k => roundUp k.bytes.length 8 + 34))))

/-- A packet sent in its own frame on a path (R331, R334); it waits where the retry buffer is full. -/
def State.sendFrame (s : State) (n w : Nat) (pkt : List Byte) : State :=
  let l := s.path n w
  if s.pathsHeld n + 4178 > 512 * 1024 then s.onPath n w (fun l => { l with txq := l.txq ++ [pkt] })
  else
    let f := s.frame n w (some pkt) l.txSeq l
    let s := s.onPath n w (fun l => { l with txSeq := (l.txSeq + 1) % 65536, kept := l.kept ++ [⟨l.txSeq, pkt⟩], nakDue := false,
                                             ackOwed := none, ackTick := if l.kept = [] then s.count else l.ackTick })
    s.onPort (32 + n) (fun p => { p with wire := p.wire ++ [f] })

/-- The W coordinate of a packet's destination. -/
def packetW (pkt : List Byte) : Nat := bytesAt pkt 10 2 % 32

/-- A port is UP towards a packet's destination (R324): on a carriage port, the path to it. -/
def State.upTowards (s : State) (p dst : Nat) : Bool :=
  if p < 32 then (s.port p).link.st = .up
  else if p < 36 then (s.path (p - 32) (dst % 32)).st = .up
  else true

/-- Packets put on a port: nothing is sent where the port is not UP (R324). -/
def State.transmit (s : State) (p : Nat) (pkts : List (List Byte)) : State :=
  match pkts with
  | [] => s
  | b :: _ =>
    if !s.upTowards p (bytesAt b 10 2) then s
    else if p < 32 then s.onPort p (fun q => q.sendPackets s.count pkts)
    else if p < 36 then pkts.foldl (fun s b => s.sendFrame (p - 32) (packetW b) b) s
    else s

/-! ### Routes -/

/-- Distance from `a` to `b` on a ring of extent `e`, toward +1. -/
def ringDist (e a b : Nat) : Nat := if e = 0 then 0 else (b + e - a % e) % e

/-- The port of a ring axis by its pair and direction: the even port leads toward +1 (Table 1-8). -/
def ringPort (axisY : Bool) (pair : Nat) (plus : Bool) : Nat :=
  (if axisY then 16 else 0) + 4 * pair + (if plus then 0 else 1)

/-- The port by which a VC3 packet from `src` to `dst` leaves this package (R326), and whether the hop crosses the wrap
(R327). None at the destination. -/
def State.route (s : State) (src dst : Nat) : Option (Nat × Bool) :=
  let own := coordAxes s.coord
  let d := coordAxes dst
  let ext := s.image.config.extents
  let x := src ^^^ dst
  if nth own 0 0 ≠ nth d 0 0 then
    some (4 * ((nth own 0 0 ^^^ nth d 0 0) - 1) + (if flag x 2 then 3 else 2), false)
  else
    let ring := fun (axisY : Bool) (i : Nat) => (show Option (Nat × Bool) from
      let e := nth ext i 1
      let up := ringDist e (nth own i 0) (nth d i 0)
      let plus := decide (up ≤ e - up)
      some (ringPort axisY (x % 4) plus, if plus then nth own i 0 + 1 == e else nth own i 0 == 0))
    if nth own 1 0 ≠ nth d 1 0 then ring false 1
    else if nth own 2 0 ≠ nth d 2 0 then ring true 2
    else if nth own 3 0 ≠ nth d 3 0 then some (32 + x % 4, false)
    else none

/-- A port input whose VC3 packet is bound for this output: its FAN and the tick are noted (R329). -/
def Port.noteInput (p : Port) (input fan tick : Nat) : Port :=
  if input ≥ 36 then p
  else if p.arb.any (fun a => a.input == input) then
    { p with arb := p.arb.map (fun a => if a.input = input then { a with fan := fan, tick := tick } else a) }
  else { p with arb := p.arb ++ [⟨input, fan, tick, 0⟩] }

/-- A packet's 16-byte extension, or nothing. -/
def extBytes (pkt : List Byte) (h : PktHead) : List Byte := (pkt.drop 32).take (if h.ext then 16 else 0)

/-- A VC3 packet queued at an output port. -/
def State.queueGround (s : State) (out input : Nat) (pkt : List Byte) (h : PktHead) : State :=
  s.onPort out (fun p => { p.noteInput input h.fan s.count with
    ground := p.ground ++ [⟨input, packetBytes h (extBytes pkt h) (packetPayload pkt)⟩] })

/-- A VC3 packet that originates here or passes through, queued at the port its route names (R326, R327, R329): `input` is
the port it came by, or a local source. An answer to an auxiliary node of this package leaves on P30 or P31. -/
def State.sendGround (s : State) (input : Nat) (pkt : List Byte) : State :=
  let h := PktHead.parse pkt
  match s.route h.src h.dst with
  | none => if h.auxdst then s.queueGround (if h.auxport then 31 else 30) input pkt { h with dl := false } else s
  | some (out, wrap) =>
    let turn := ringPair input ≠ ringPair out ∧ ringPair out ≠ none
    let dl := if ringPair out = none then false else if turn then wrap else h.dl || wrap
    s.queueGround out input pkt { h with dl := dl }

/-- The N port of slice `d - 1` toward the member whose N coordinate differs by `d` (R127); the even one of the pair. -/
def nPort (d : Nat) : Nat := 4 * (d - 1) + 2

/-! ### Packets received -/

/-- A counter of a port or, for a packet of a carriage port, of the path from the pod that sent it (Table 14-25). -/
def State.linkCount (s : State) (p w i n : Nat) : State :=
  if p < 32 then s.bump (portCounter p i) noUnit n
  else s.bump (pathCounter (p - 32) w i) noUnit n

/-- Credit units of a packet: its padded length in units of 256 bytes (R325). -/
def creditUnits (pkt : List Byte) : Nat := ceilDiv (roundUp pkt.length 8) 256

/-- The credit counter of a packet: VC3 lane 0, VC3 lane 1, VC4; none for the others (R325). -/
def creditClass (h : PktHead) : Option Nat :=
  if h.vc = 3 then some (if h.dl then 1 else 0)
  else if h.vc = 4 ∧ h.type ≠ 0x14 then some 2
  else none

/-- The room of a packet in the receive buffer is freed: its credit is owed to the peer (R325). -/
def State.owe (s : State) (p : Nat) (pkt : List Byte) : State :=
  let h := PktHead.parse pkt
  match creditClass h with
  | none => s
  | some c =>
    let f := fun (l : Link) => { l with owed := l.owed.modify c (· + creditUnits pkt) }
    if p < 32 then s.onPort p (fun q => { q with link := f q.link }) else s.onPath (p - 32) (h.src % 32) f

/-- A packet taken from the receive buffer of a port: it must be the oldest of its channel there (R317), and of the type that
the row handles. None where it is not. -/
def State.takeRx (s : State) (p : Nat) (pkt : List Byte) (type : Nat) : Option State :=
  let vc := bytesAt pkt 0 1 / 32
  if bytesAt pkt 0 1 % 32 = type ∧ (s.port p).rx.find? (fun b => bytesAt b 0 1 / 32 == vc) = some pkt then
    some ((s.onPort p (fun q => { q with rx := q.rx.erase pkt })).owe p pkt)
  else none

/-- A row that handles a received packet: nothing happens where the packet does not wait at the port. -/
def State.received (s : State) (p : Nat) (pkt : List Byte) (type : Nat) (run : State → State) : State :=
  match s.takeRx p pkt type with
  | some t => run t
  | none => s

/-- The ring axis of a ring port and whether packets that arrive on it travel toward +1: the odd port faces -1 (Table 1-8). -/
def arrivalAxis (p : Nat) : Option (Nat × Bool) :=
  if p < 32 ∧ p % 4 < 2 then some (if p < 16 then 1 else 2, p % 4 == 1) else none

/-- A packet that arrived on a ring port has passed its destination on that axis (R328): its distance along its direction of
travel is neither 0 nor less than the distance from its source. -/
def State.passedDest (s : State) (p : Nat) (h : PktHead) : Bool :=
  match arrivalAxis p with
  | none => false
  | some (i, plus) =>
    let e := nth s.image.config.extents i 1
    let at_ := fun c => nth (coordAxes c) i 0
    let dist := fun a b => if plus then ringDist e a b else ringDist e b a
    let rest := dist (at_ s.coord) (at_ h.dst)
    rest ≠ 0 && rest ≥ dist (at_ h.src) (at_ h.dst)

/-- A received VC3 packet: for this package it is handled; for another, or for a node on an auxiliary port, it is forwarded, or
discarded where it has passed its destination (R326, R328). -/
def State.ground (s : State) (p : Nat) (pkt : List Byte) (type : Nat) (run : PktHead → State → State) : State :=
  s.received p pkt type (fun s =>
    let h := PktHead.parse pkt
    if s.passedDest p h then s.linkCount p (h.src % 32) 8 1
    else if h.dst = s.coord ∧ !h.auxdst then run h s
    else s.sendGround p pkt)

end Sys2Proof.Machine
end

