-- ==== Sys2Proof/Machine/Ground.lean ====
section
/-! DEFINITION. Ground queues (R373 to R381) and the sender's side of a message (R365 to R368): ring entries, completion in ring
order, waits, the events of Table 10-12, timers and answers. -/

namespace Sys2Proof.Machine

/-! ### Descriptors and ring entries -/

/-- Address of the ring (Table 10-10). -/
def GroundQ.ringBase (q : GroundQ) : Nat := nth q.desc 0 0 * 4096

/-- Entries of the ring. -/
def GroundQ.ringSize (q : GroundQ) : Nat := 2 ^ (field (nth q.desc 1 0) 31 28 + 4)

/-- Chunk size C of the queue. -/
def GroundQ.chunkBytes (q : GroundQ) : Nat := 2 ^ (field (nth q.desc 1 0) 27 24 + 12)

/-- Messages that the queue may have outstanding. -/
def GroundQ.maxOut (q : GroundQ) : Nat := field (nth q.desc 1 0) 23 20 + 1

/-- The address of the entry of an index. -/
def GroundQ.entryAddr (q : GroundQ) (i : Nat) : Nat := q.ringBase + 64 * (i % q.ringSize)

/-- Entries from head up to tail. -/
def GroundQ.pendingCount (q : GroundQ) : Nat := (q.tail + 2 ^ 16 - q.head) % 2 ^ 16

/-- No message is outstanding. -/
def GroundQ.quiet (q : GroundQ) : Bool := q.out == []

/-- A range of HBM overlaps a region that the image allocates (R29). -/
def State.inRegion (s : State) (a n : Nat) : Bool := s.image.config.regions.any (fun r => a < r.1 + r.2 && r.1 < a + n)

/-- Why the descriptor fails its check at ARM: 0 it does not (Table 14-18, ARMERR). -/
def State.descError (s : State) (q : GroundQ) : Nat :=
  let w1 := nth q.desc 1 0
  if field w1 31 28 > 12 ∨ field w1 27 24 > 8 ∨ field w1 18 0 ≠ 0 ∨ field (nth q.desc 2 0) 31 16 ≠ 0 ∨
      ((q.desc.drop 3).any (fun w => w ≠ 0)) then 1
  else if s.inRegion q.ringBase (64 * q.ringSize) then 2
  else 0

/-- A ring entry (Table 10-11). -/
structure RingEnt where
  type : Nat
  fl : Nat
  irq : Bool
  werr : Bool
  auxdst : Bool
  auxport : Bool
  lkey : Nat
  loff : Nat
  rkey : Nat
  roff : Nat
  dst : Nat
  repoch : Nat
  len : Nat
  wanchor : Bool
  wsrc : Nat
  wcount : Nat
  deriving DecidableEq, Repr

/-- A ring entry from its 64 bytes. -/
def RingEnt.parse (bs : List Byte) : RingEnt :=
  let w := fun i => bytesAt bs (4 * i) 4
  { type := field (w 0) 31 28, fl := field (w 0) 27 26, irq := flag (w 0) 25, werr := flag (w 0) 24, auxdst := flag (w 0) 23,
    auxport := flag (w 0) 22, lkey := w 4, loff := bytesAt bs 20 5, rkey := w 7, roff := bytesAt bs 32 5, dst := field (w 10) 31 16,
    repoch := field (w 10) 15 0, len := bytesAt bs 44 5, wanchor := flag (w 13) 31, wsrc := field (w 13) 15 0, wcount := w 14 }

/-- An entry that is not malformed (R376): known TYPE and encodings, unused and reserved fields 0, not waiting for its own queue. -/
def ringEntryGood (q : Nat) (bs : List Byte) : Bool :=
  let e := RingEnt.parse bs
  let w := fun i => bytesAt bs (4 * i) 4
  let xfer := e.type = 1 ∨ e.type = 2
  decide (e.type ≤ 3) && field (w 0) 21 0 == 0 && field (w 1) 31 16 == 0 && field (w 3) 31 8 == 0 && field (w 6) 31 8 == 0
    && field (w 9) 31 8 == 0 && field (w 12) 31 8 == 0 && field (w 13) 30 16 == 0 && w 15 == 0
    && (if e.type = 1 then decide (e.fl ≠ 3) else e.fl == 0)
    && (if xfer then decide (e.len ≥ 1) && w 13 == 0 && w 14 == 0 && !e.werr
        else w 4 == 0 && w 5 == 0 && w 6 == 0 && w 7 == 0 && w 8 == 0 && w 9 == 0 && w 10 == 0 && w 11 == 0 && w 12 == 0
          && !e.auxdst && !e.auxport)
    && (if e.type = 3 then (if e.wanchor then !e.werr else decide (e.wsrc < 1024 ∧ e.wsrc ≠ q)) else !e.werr && w 13 == 0 && w 14 == 0)

/-- Messages of a transfer (R376). -/
def GroundQ.messages (q : GroundQ) (e : RingEnt) : Nat := if e.type = 1 ∨ e.type = 2 then ceilDiv e.len q.chunkBytes else 0

/-- Message `k` of a WRITE is flagged (R376). -/
def RingEnt.flagged (e : RingEnt) (total k : Nat) : Bool := e.type == 1 && (e.fl == 2 || (e.fl == 1 && k + 1 == total))

/-! ### Counters and interrupts -/

/-- A counter of a ground queue (Table 14-25): 0 sent, 1 resent, 2 refusals, 2 + status for entries. -/
def State.queueCount (s : State) (q i : Nat) : State := s.bump (0x4000 + 0x40 * q + 4 * i) (unitWord q 0 0) 1

/-- A counter of the Anchors region. -/
def State.anchorCount (s : State) (i : Nat) : State := s.bump (0x160 + 4 * i) noUnit 1

/-- An event that has no effect in the queue's state is counted (R379). -/
def State.ignoredEvent (s : State) : State := s.anchorCount 10

/-- An entry of GRQ_IRQ_POP, and the interrupt (R377, R489, R490). -/
def State.queueIrq (s : State) (q : Nat) : State :=
  if s.out.irqPop.length < 256 then
    State.irq { s with out := { s.out with irqPop := s.out.irqPop ++ [q] } } 4
  else (State.irq { s with out := { s.out with irqOvf := true } } 4).bump 0x394 noUnit 1

/-! ### Completion (R377) -/

/-- The entry at the head completes with a status: written into the ring, head and counts advanced, interrupts sent. -/
def State.completeEntry (s : State) (q status foff upstat : Nat) : State :=
  let g := s.groundQ q
  let a := g.entryAddr g.head
  let e := RingEnt.parse (s.hbmRead a 64)
  let s := (s.hbmWrite (a + 4) (leBytes 1 status ++ leBytes 1 upstat)).hbmWrite (a + 8) (leBytes 5 foff)
  let s := s.onGround q (fun g => { g with
    head := (g.head + 1) % 2 ^ 16
    doneCount := (g.doneCount + 1) % 2 ^ 32
    errCount := if status = 1 then g.errCount else (g.errCount + 1) % 2 ^ 32
    lastFail := if status = 1 then g.lastFail else status
    runs := g.runs.filter (fun r => r.index ≠ g.head) })
  let s := s.queueCount q (2 + status % 128)
  if e.irq ∨ (status ≠ 1 ∧ flag (nth g.desc 1 0) 19) then s.queueIrq q else s

/-- The run of the entry at the head. -/
def GroundQ.headRun (g : GroundQ) : Option EntryRun := g.runs.find? (fun r => r.index = g.head)

/-- Entries at the head that have ended DONE complete, in ring order. -/
def State.completeDone (s : State) (q : Nat) : Nat → State
  | 0 => s
  | fuel + 1 =>
    match (s.groundQ q).headRun with
    | some r =>
      if r.failed.isNone ∧ !r.waiting ∧ r.done = r.total then (s.completeEntry q 1 0 r.upstat).completeDone q fuel else s
    | none => s

/-- In DRAINING and on a direct disable, every entry from head to the frozen tail completes: DONE, its failure, or ABANDONED
(R380). -/
def State.completeAll (s : State) (q : Nat) : Nat → State
  | 0 => s
  | fuel + 1 =>
    let g := s.groundQ q
    if g.head = g.tail then s
    else
      (match g.headRun with
       | some r =>
         match r.failed with
         | some f => s.completeEntry q f.2.1 f.2.2 r.upstat
         | none => if !r.waiting ∧ r.done = r.total then s.completeEntry q 1 0 r.upstat else s.completeEntry q 9 0 r.upstat
       | none => s.completeEntry q 9 0 0).completeAll q fuel

/-- What a queue's state becomes once its messages have ended (Table 10-12). -/
def State.settleQueue (s : State) (q : Nat) : State :=
  let g := s.groundQ q
  match g.st with
  | .running =>
    let s := s.completeDone q g.runs.length
    let g := s.groundQ q
    if g.runs.any (fun r => r.failed.isSome) then s.onGround q (fun g => { g with st := .faulted })
    else if g.head = g.tail ∧ g.quiet then s.onGround q (fun g => { g with st := .armed }) else s
  | .suspending =>
    let s := s.completeDone q g.runs.length
    let g := s.groundQ q
    if g.runs.any (fun r => r.failed.isSome) then s.onGround q (fun g => { g with st := .faulted, suspPending := true })
    else if g.quiet then s.onGround q (fun g => { g with st := .suspended }) else s
  | .faulted => s.completeDone q g.runs.length
  | .draining =>
    if g.quiet then (s.completeAll q g.pendingCount).onGround q (fun g => { g with st := .disabled, runs := [] }) else s
  | _ => s

/-! ### Waits (R378) -/

/-- The count that a WAIT awaits has been reached. -/
def State.waitReached (s : State) (e : RingEnt) : Bool :=
  let c := if e.wanchor then (s.anchor e.wsrc).fcount else (s.groundQ (e.wsrc % 1024)).doneCount
  decide ((c + 2 ^ 32 - e.wcount) % 2 ^ 32 < 2 ^ 31)

/-- A queue that waits is released where its count has been reached. -/
def State.releaseWait (s : State) (q : Nat) : State :=
  let g := s.groundQ q
  if g.st ≠ .running then s
  else
    match g.runs.find? (fun r => r.waiting) with
    | none => s
    | some r =>
      let e := RingEnt.parse (s.hbmRead (g.entryAddr r.index) 64)
      if s.waitReached e then
        let w := s.groundQ (e.wsrc % 1024)
        let up := if e.wanchor then 0 else w.lastFail
        let bad := e.werr && !e.wanchor && w.errCount != 0
        (s.onGround q (fun g => { g with runs := g.runs.map (fun x =>
          if x.index = r.index then { x with waiting := false, upstat := up, failed := if bad then some (0, 10, 0) else none } else x) })).settleQueue q
      else s

/-- Every waiting queue, until none is released. -/
def State.releaseWaits (s : State) : Nat → State
  | 0 => s
  | fuel + 1 =>
    let t := (s.gq.map (·.1)).foldl State.releaseWait s
    if t.gq = s.gq then s else t.releaseWaits fuel

/-- A queue's state and every wait on it follow a change. -/
def State.queueChanged (s : State) (q : Nat) : State :=
  let t := s.settleQueue q
  t.releaseWaits (t.gq.length + 1)

/-- Every queue settled: after a fence, or as time passes. -/
def State.settleQueues (s : State) : State :=
  let t := (s.gq.map (·.1)).foldl State.settleQueue s
  t.releaseWaits (t.gq.length + 1)

/-! ### Ends of messages (R367, R368) -/

/-- An entry's message ends DONE. -/
def State.messageDone (s : State) (q seq : Nat) : State :=
  match (s.groundQ q).out.find? (fun m => m.seq = seq) with
  | none => s
  | some m =>
    (s.onGround q (fun g => { g with
      out := g.out.filter (fun x => x.seq ≠ seq)
      runs := g.runs.map (fun r => if r.index = m.entry then { r with done := r.done + 1 } else r) })).queueChanged q

/-- The error class of a failing status (Tables 10-5, 13-1). -/
def statusClass (status : Nat) : Nat :=
  let c := status % 128
  if c = 5 then 0x0B else if c = 6 then 0x0A else if c = 7 then 0x09 else 0x0D

/-- The failure of an entry reported: one cairn with the queue as source (R384). -/
def State.failCairn (s : State) (q status anchor foff : Nat) : State :=
  if status % 128 = 8 then s.raise 0x0D (source 5 q) 3 q 1
  else s.raise (statusClass status) (source 5 q) 0 (anchor % 2 ^ 16 + s.coord * 2 ^ 16) (foff % 2 ^ 32)

/-- A message fails: the entry's first failure is kept, in message order (R376, R379). -/
def State.messageFail (s : State) (q seq status moff : Nat) : State :=
  let g := s.groundQ q
  match g.out.find? (fun m => m.seq = seq) with
  | none => s
  | some m =>
    let foff := m.msg * g.chunkBytes + moff
    let e := RingEnt.parse (s.hbmRead (g.entryAddr m.entry) 64)
    let first := !(g.runs.any (fun r => r.index = m.entry ∧ r.failed.isSome))
    let s := if first then s.failCairn q status (if status ≥ 128 then e.lkey else e.rkey) foff else s
    (s.onGround q (fun g => { g with
      out := g.out.filter (fun x => x.seq ≠ seq)
      runs := g.runs.map (fun r => if r.index ≠ m.entry then r else
        match r.failed with
        | some f => if m.msg < f.1 then { r with failed := some (m.msg, status, foff) } else r
        | none => { r with failed := some (m.msg, status, foff) }) })).queueChanged q

/-- RTO, BACKOFF and LIFE in ticks (Table 14-19). -/
def State.rto (s : State) : Nat := s.reg 0x50000

/-- BACKOFF in ticks. -/
def State.backoff (s : State) : Nat := s.reg 0x50004

/-- LIFE in ticks. -/
def State.life (s : State) : Nat := s.reg 0x50008

/-- An outstanding message of a queue. -/
def State.outMsg (s : State) (q seq : Nat) : Option OutMsg := (s.groundQ q).out.find? (fun m => m.seq = seq)

/-- An outstanding message changed. -/
def State.onMsg (s : State) (q seq : Nat) (f : OutMsg → OutMsg) : State :=
  s.onGround q (fun g => { g with out := g.out.map (fun m => if m.seq = seq then f m else m) })

/-- An outstanding message is abandoned in DRAINING: its entry stays without an end (R380). -/
def State.abandon (s : State) (q seq : Nat) : State :=
  (s.onGround q (fun g => { g with out := g.out.filter (fun m => m.seq ≠ seq) })).queueChanged q

/-- An answer reaches the sender (R367): `resp` answers a READ-REQ. -/
def State.answerIn (s : State) (q seq status foff : Nat) (resp : Bool) : State :=
  match s.outMsg q seq with
  | none => s.anchorCount 8
  | some m =>
    let e := RingEnt.parse (s.hbmRead ((s.groundQ q).entryAddr m.entry) 64)
    if (e.type = 2) ≠ resp then s.anchorCount 8
    else if status = 1 ∨ status = 2 then s.messageDone q seq
    else if status = 3 ∨ status = 4 then
      let s := s.queueCount q 2
      if (s.groundQ q).st = .draining then s.abandon q seq
      else s.onMsg q seq (fun m => { m with timer := .backoff, timerAt := s.count + m.backoff, silent := 0,
                                            backoff := Nat.min (2 * m.backoff) s.rto })
    else if status = 5 ∨ status = 6 ∨ status = 7 then s.messageFail q seq status foff
    else s.anchorCount 8

/-! ### Starting entries and messages (R376) -/

/-- The message that a running queue is to send next: the run's index and the message's. -/
def GroundQ.nextMessage (g : GroundQ) : Option (Nat × Nat) :=
  (g.runs.find? (fun r => r.failed.isNone && r.started < r.total)).map (fun r => (r.index, r.started))

/-- The index of the entry to begin next. -/
def GroundQ.nextEntry (g : GroundQ) : Nat := match g.runs.getLast? with | some r => (r.index + 1) % 2 ^ 16 | none => g.head

/-- The next pending entry of a running queue begins. -/
def State.beginEntry (s : State) (q : Nat) : State :=
  let g := s.groundQ q
  let i := g.nextEntry
  if g.st ≠ .running ∨ i = g.tail ∨ g.runs.any (fun r => r.waiting || r.failed.isSome) then s
  else
    let a := g.entryAddr i
    let bs := s.hbmRead a 64
    let e := RingEnt.parse bs
    let run : EntryRun := ⟨i, 0, 0, 0, none, false, 0⟩
    let put := fun (s : State) (r : EntryRun) => s.onGround q (fun g => { g with runs := g.runs ++ [r] })
    if s.hbmFaulty a 64 then
      let s := (s.hbmError (source 5 q) a).failCairn q 0x87 0 0
      (put s { run with failed := some (0, 0x87, 0) }).queueChanged q
    else if !ringEntryGood q bs then (put s { run with failed := some (0, 0x0B, 0) }).queueChanged q
    else if e.type = 3 then (put s { run with waiting := true }).queueChanged q
    else (put s { run with total := g.messages e }).queueChanged q

/-! ### Events of Table 10-12 -/

/-- The events of GRQ_CTL. -/
inductive QEvent where
  | arm | armPin | disable | suspend | resume | retry | skip | reset
  deriving DecidableEq, Repr

/-- A queue that goes on: RUNNING, or ARMED where nothing is pending. -/
def GroundQ.goOn (g : GroundQ) : GroundQ :=
  { g with st := if g.head = g.tail ∧ g.runs = [] then .armed else .running }

/-- After RETRY or SKIP: RUNNING, or SUSPENDED where a suspend is pending. -/
def GroundQ.afterFault (g : GroundQ) : GroundQ :=
  if g.suspPending then { g with st := .suspended, suspPending := false } else g.goOn

/-- The failed entry restarts at its first failed message (Table 10-12, RETRY). -/
def GroundQ.restart (g : GroundQ) : GroundQ :=
  { g with runs := g.runs.map (fun r => match r.failed with
      | some f => { r with failed := none, started := f.1, done := f.1 }
      | none => r) }

/-- An event on a ground queue (Table 10-12). -/
def State.queueEvent (s : State) (q : Nat) (ev : QEvent) : State :=
  let g := s.groundQ q
  let on := s.onGround q
  match g.st, ev with
  | .idle, .arm | .idle, .armPin =>
    let err := s.descError g
    if err ≠ 0 then on (fun g => { g with armErr := err })
    else
      (on (fun g =>
        let g := { g with armErr := 0, st := .armed, tail := if ev = .armPin then nth g.desc 2 0 % 2 ^ 16 else g.tail }
        if g.head = g.tail then g else { g with st := .running }))
  | .idle, .disable | .armed, .disable => on (fun g => { g with st := .disabled })
  | .armed, .suspend => on (fun g => { g with st := .suspended })
  | .running, .suspend => (on (fun g => { g with st := .suspending })).queueChanged q
  | .running, .disable | .suspending, .disable | .faulted, .disable => (on (fun g => { g with st := .draining })).queueChanged q
  | .suspending, .resume => (on (fun g => { g with st := .running })).queueChanged q
  | .suspended, .resume => (on GroundQ.goOn).queueChanged q
  | .suspended, .disable => (s.completeAll q g.pendingCount).onGround q (fun g => { g with st := .disabled, runs := [] })
  | .faulted, .suspend => on (fun g => { g with suspPending := true })
  | .faulted, .retry => if g.quiet then (on (fun g => g.restart.afterFault)).queueChanged q else s.ignoredEvent
  | .faulted, .skip =>
    if g.quiet then
      match g.headRun with
      | some r =>
        match r.failed with
        | some f => ((s.completeEntry q f.2.1 f.2.2 r.upstat).onGround q GroundQ.afterFault).queueChanged q
        | none => s
      | none => s
    else s.ignoredEvent
  | .disabled, .reset => on (fun g => { g with st := .idle, head := g.tail, errCount := 0, runs := [], out := [] })
  | .draining, .disable | .disabled, .disable => s
  | _, _ => s.ignoredEvent

/-- The tail is written (R374, R380). -/
def State.queueDoorbell (s : State) (q tail : Nat) : State :=
  let g := s.groundQ q
  let t := tail % 2 ^ 16
  if g.st = .draining ∨ g.st = .disabled then s
  else if (t + 2 ^ 16 - g.head) % 2 ^ 16 > g.ringSize then s.bump 0x39C noUnit 1
  else
    let s := s.onGround q (fun g => { g with tail := t })
    if g.st = .armed ∧ t ≠ g.head then s.onGround q (fun g => { g with st := .running }) else s

end Sys2Proof.Machine
end

