-- ==== Sys2Proof/Machine/Anchors.lean ====
section
/-! DEFINITION. Anchors (R348 to R355), the target of ground packets with its message tracker (R360 to R364), reads (R369 to R371)
and the sending of a queue's messages (R365 to R368). -/

namespace Sys2Proof.Machine

/-! ### Anchor entries -/

/-- The code of an anchor state (Table 10-1). -/
def AnchorSt.code : AnchorSt → Nat
  | .free => 0 | .armed => 1 | .revoked => 2

/-- Word `i` of an anchor entry (Table 10-1). The reserved bits of words 0, 2 and 4 are held together in `resv`. -/
def Anchor.word (a : Anchor) (i : Nat) : Nat :=
  match i with
  | 0 => a.st.code * 2 ^ 30 + ofBool a.page1G * 2 ^ 29 + ofBool a.irq * 2 ^ 28 + ofBool a.fbind * 2 ^ 27 + ofBool a.bound * 2 ^ 26
      + ofBool a.rightF * 2 ^ 25 + ofBool a.rightW * 2 ^ 24 + ofBool a.rightR * 2 ^ 23 + field a.resv 6 0 * 2 ^ 16 + a.tag
  | 1 => a.epoch * 2 ^ 16 + a.fsrc
  | 2 => field a.resv 27 7 * 2 ^ 11 + a.fsq
  | 3 => a.length % 2 ^ 32
  | 4 => field a.resv 51 28 * 2 ^ 8 + a.length / 2 ^ 32
  | 5 => a.plBase
  | 6 => a.fcount
  | 7 => a.lastFseq
  | _ => 0

/-- Word `i` written by the owner: the fields marked "engine" stay (R349). -/
def Anchor.setWord (a : Anchor) (i v : Nat) : Anchor :=
  match i with
  | 0 => { a with page1G := flag v 29, irq := flag v 28, fbind := flag v 27, rightF := flag v 25, rightW := flag v 24,
                  rightR := flag v 23, resv := a.resv / 2 ^ 7 * 2 ^ 7 + field v 22 16, tag := field v 15 0 }
  | 1 => { a with fsrc := field v 15 0 }
  | 2 => { a with resv := a.resv / 2 ^ 28 * 2 ^ 28 + field v 31 11 * 2 ^ 7 + field a.resv 6 0, fsq := field v 10 0 }
  | 3 => { a with length := a.length / 2 ^ 32 * 2 ^ 32 + v % 2 ^ 32 }
  | 4 => { a with resv := field v 31 8 * 2 ^ 28 + field a.resv 27 0, length := field v 7 0 * 2 ^ 32 + a.length % 2 ^ 32 }
  | 5 => { a with plBase := v % 2 ^ 32 }
  | _ => a

/-- ANC_E written: only while the selected anchor is FREE or REVOKED (R349). -/
def State.writeAnchor (s : State) (i v : Nat) : State :=
  if (s.anchor s.anc.sel).st = .armed then s else s.onAnchor s.anc.sel (fun a => a.setWord i v)

/-! ### Answers -/

/-- SQ values of auxiliary nodes (Table 10-4). -/
def auxSq (sq : Nat) : Bool := sq ≥ 0x600

/-- An answer sent to the sender of a packet (R359), which may be a queue of this engine. -/
def State.ackOut (s : State) (src sq seq key status foff : Nat) (resp : Bool) : State :=
  if src = s.coord ∧ sq < 1024 then s.answerIn sq seq status foff resp
  else
    let h : PktHead := { (default : PktHead) with
      vc := 3, type := 0x0B, group := status, src := s.coord, dst := src, seq := seq
      epoch := (s.anchor (key % 2 ^ 16)).epoch, first := true, last := true, auxdst := auxSq sq, auxport := sq ≥ 0x700 }
    s.sendGround 44 (packetBytes h [] (leBytes 16 (key % 2 ^ 32 + sq % 2 ^ 11 * 2 ^ 32 + ofBool resp * 2 ^ 43 + foff % 2 ^ 24 * 2 ^ 44)))

/-! ### Anchor operations (R350) -/

/-- Why an operation of Table 10-2 is refused (ANC_STAT.REASON), 0 where it is not. -/
def State.anchorRefusal (s : State) (op i : Nat) : Nat :=
  let a := s.anchor i
  match op with
  | 1 =>
    if a.st = .armed then 6
    else if a.lastArm.any (fun t => decide (s.count < t + 4096)) then 1
    else if a.tag = 0 then 2
    else if !a.rightF ∧ !a.rightW ∧ !a.rightR then 3
    else if a.length = 0 then 4
    else if a.resv ≠ 0 then 5
    else 0
  | 2 => if a.st = .armed then 0 else 6
  | _ => if a.st = .revoked then 0 else 6

/-- Translations of an anchor invalidated in every slice. -/
def State.dropTranslations (s : State) (i : Nat) : State :=
  { s with anc := { s.anc with trans := s.anc.trans.map (fun e => (e.1, e.2.filter (fun t => t.anchor ≠ i))) } }

/-- Tracker entries of an anchor freed, each held flag answered with a status (Table 10-2). -/
def State.dropTracked (s : State) (i status : Nat) : State :=
  let gone := s.anc.tracker.filter (fun t => t.anchor = i)
  let s := { s with anc := { s.anc with tracker := s.anc.tracker.filter (fun t => t.anchor ≠ i) } }
  gone.foldl (fun s t => if t.heldFlag.isSome then s.ackOut t.src t.sq t.seq t.key status 0 false else s) s

/-- A master starts an operation, 1 ARM, 2 REVOKE, 3 DISARM, on the selected anchor; none while one is in progress (R350). -/
def State.startAnchorOp (s : State) (op : Nat) : State :=
  if s.anc.busy.isSome then s
  else { s with anc := { s.anc with busy := some (op, s.anc.sel), op := 1, reason := 0, index := s.anc.sel } }

/-- The waiting queues see that a flag count changed (R378). -/
def State.flagsChanged (s : State) : State := s.releaseWaits (s.gq.length + 1)

/-- The operation in progress completes (Table 10-2). -/
def State.finishAnchorOp (s : State) : State :=
  match s.anc.busy with
  | none => s
  | some (op, i) =>
    let why := s.anchorRefusal op i
    let s := { s with anc := { s.anc with busy := none, index := i, reason := why, op := if why ≠ 0 then 5 else op + 1 } }
    if why ≠ 0 then s
    else if op = 1 then
      let s := s.onAnchor i (fun a => { a with
        st := .armed, epoch := (a.epoch + 1) % 2 ^ 16, fcount := 0, lastFseq := 0, bound := a.fbind, lastArm := some s.count })
      ((s.dropTranslations i).dropTracked i 5).flagsChanged
    else if op = 2 then ((s.onAnchor i (fun a => { a with st := .revoked })).dropTranslations i).dropTracked i 6
    else s.onAnchor i (fun a => { a with st := .free })

/-! ### Translation (R353, R354) -/

/-- Log2 of an anchor's page size. -/
def Anchor.pageBits (a : Anchor) : Nat := if a.page1G then 30 else 21

/-- The physical address of page `n` of anchor `i`, for slice `sl`: from its cache, or by a read of the page list. -/
def State.translatePage (s : State) (sl i n : Nat) : State × Option Nat :=
  let a := s.anchor i
  let cache := s.anc.trans.get [] sl
  match cache.find? (fun t => t.anchor = i ∧ t.epoch = a.epoch ∧ t.page = n) with
  | some t => (s, some t.phys)
  | none =>
    let addr := a.plBase * 4096 + 8 * n
    let s := s.anchorCount 7
    if s.hbmFaulty addr 8 then (s.hbmError (sliceSource 9 sl) addr, none)
    else
      let v := s.hbmNat addr 8
      let phys := field v 43 21 * 2 ^ 21
      if !flag v 63 ∨ field v 62 44 ≠ 0 ∨ field v 20 0 ≠ 0 ∨ (a.page1G ∧ field v 29 21 ≠ 0) ∨ s.inRegion phys (2 ^ a.pageBits) then (s, none)
      else
        let room := if cache.length < 8192 then cache else cache.drop 1
        ({ s with anc := { s.anc with trans := s.anc.trans.put sl (room ++ [⟨i, a.epoch, n, phys⟩]) } }, some phys)

/-- The pieces of HBM that anchor bytes `[off, off + n)` lie in: every page is translated before any byte moves (R354). -/
def State.translate (s : State) (sl i off n : Nat) : State × Option (List (Nat × Nat)) :=
  let b := (s.anchor i).pageBits
  let size := 2 ^ b
  let first := off / size
  let pages := if n = 0 then [] else (List.range ((off + n - 1) / size - first + 1)).map (· + first)
  pages.foldl (fun (acc : State × Option (List (Nat × Nat))) p =>
    match acc.2 with
    | none => acc
    | some segs =>
      let r := acc.1.translatePage sl i p
      let lo := Nat.max off (p * size)
      let hi := Nat.min (off + n) ((p + 1) * size)
      (r.1, r.2.map (fun phys => segs ++ [(phys + lo % size, hi - lo)]))) (s, some [])

/-- Bytes written to the pieces. -/
def State.writeSegs (s : State) : List (Nat × Nat) → List Byte → State
  | [], _ => s
  | (a, n) :: r, bs => (s.hbmWrite a (bs.take n)).writeSegs r (bs.drop n)

/-- Bytes of the pieces; none where the read is uncorrectable. -/
def State.readSegs (s : State) (segs : List (Nat × Nat)) : Option (List Byte) :=
  if segs.any (fun g => s.hbmFaulty g.1 g.2) then none else some (segs.flatMap (fun g => s.hbmRead g.1 g.2))

/-! ### Checks (R360) -/

/-- The right that an access needs. -/
inductive Right where
  | write | flagWrite | read
  deriving DecidableEq, Repr

/-- Rows 1 to 5 of Table 10-6: the failing class, 0 for none. -/
def State.checkKey (s : State) (h : PktHead) (e : AncExt) (r : Right) : Nat :=
  let a := s.anchor (e.key % 2 ^ 16)
  let tag := e.key / 2 ^ 16
  if a.st = .free ∨ tag = 0 ∨ tag ≠ a.tag then 6
  else if a.st = .revoked then 6
  else if h.epoch ≠ a.epoch then 5
  else if (match r with | .write => !a.rightW | .flagWrite => !a.rightW || !a.rightF | .read => !a.rightR) then 6
  else if r = .flagWrite ∧ a.bound ∧ (h.src ≠ a.fsrc ∨ e.sq ≠ a.fsq) then 6
  else 0

/-- Rows 6 and 7: the pieces of HBM, or XLATE. -/
def State.checkRange (s : State) (sl i off n : Nat) : State × Option (List (Nat × Nat)) :=
  if off + n > (s.anchor i).length then (s, none) else s.translate sl i off n

/-- All of Table 10-6 for bytes of an anchor: the failing class, or the pieces. A failing packet is counted by class. -/
def State.checkAccess (s : State) (sl : Nat) (h : PktHead) (e : AncExt) (r : Right) (off n : Nat) :
    State × Except Nat (List (Nat × Nat)) :=
  let k := s.checkKey h e r
  if k ≠ 0 then (s.anchorCount (if k = 6 then 0 else 1), .error k)
  else
    let t := s.checkRange sl (e.key % 2 ^ 16) off n
    match t.2 with
    | some segs => (t.1, .ok segs)
    | none => (t.1.anchorCount 2, .error 7)

/-- The cairn of a failing message at a target or reader (R384). -/
def State.messageCairn (s : State) (status key src foff : Nat) : State :=
  s.raise (statusClass status) (source 3 4) 0 (key % 2 ^ 16 + src * 2 ^ 16) (foff % 2 ^ 32)

/-! ### Cutting (R358) -/

/-- Index of a packet in its message. -/
def packetIndex (h : PktHead) (e : AncExt) : Nat := if e.flag_ then e.npm1 else h.offset / 4096

/-- A packet agrees with the cutting of R358. -/
def cutGood (h : PktHead) (e : AncExt) : Bool :=
  let i := packetIndex h e
  decide (e.npm1 ≤ 256) && (h.first == (h.offset == 0)) && (h.last == (i == e.npm1)) &&
    (if e.flag_ then
       h.last && decide (h.len ≤ 64) && (if h.offset = 0 then e.npm1 == 0 else h.len == 64 && ceilDiv h.offset 4096 == e.npm1)
     else
       h.offset % 4096 == 0 && decide (1 ≤ h.len ∧ h.len ≤ 4096) && decide (i ≤ e.npm1) && (!h.last || decide (e.npm1 ≤ 255))
         && (h.last || i + 1 == e.npm1 || h.len == 4096))

/-- A packet from an auxiliary port names a queue of its port and this package (R357). -/
def State.auxGood (s : State) (p : Nat) (h : PktHead) (e : AncExt) : Bool :=
  if p = 30 then decide (0x600 ≤ e.sq ∧ e.sq < 0x700 ∧ h.src = s.coord)
  else if p = 31 then decide (0x700 ≤ e.sq ∧ h.src = s.coord)
  else true

/-! ### The message tracker (R362, Table 10-7) -/

/-- A tracker entry is that of a message. -/
def TrackEnt.isOf (t : TrackEnt) (src sq seq : Nat) (resp : Bool) : Bool :=
  t.src == src && t.sq == sq && t.seq == seq && t.resp == resp

/-- The tracker entry of a message. -/
def State.track (s : State) (src sq seq : Nat) (resp : Bool) : Option TrackEnt :=
  s.anc.tracker.find? (fun t => t.isOf src sq seq resp)

/-- A tracker entry changed. -/
def State.onTrack (s : State) (src sq seq : Nat) (resp : Bool) (f : TrackEnt → TrackEnt) : State :=
  { s with anc := { s.anc with tracker := s.anc.tracker.map (fun t => if t.isOf src sq seq resp then f t else t) } }

/-- A tracker entry freed. -/
def State.untrack (s : State) (src sq seq : Nat) (resp : Bool) : State :=
  { s with anc := { s.anc with tracker := s.anc.tracker.filter (fun t => !t.isOf src sq seq resp) } }

/-- The entry of a packet of a message with N ≥ 2, allocated where it has none and one is free. -/
def State.trackFor (s : State) (h : PktHead) (e : AncExt) (resp : Bool) : State :=
  if (s.track h.src e.sq h.seq resp).isSome then s.onTrack h.src e.sq h.seq resp (fun t => { t with seenTick := s.count })
  else if s.anc.tracker.length < 4096 then
    { s with anc := { s.anc with tracker := s.anc.tracker ++
        [⟨h.src, e.sq, h.seq, resp, e.key % 2 ^ 16, e.key, e.npm1 + 1, [], none, none, none, s.count, none⟩] } }
  else s

/-- Packet `i` counted in the entry's bitmap. -/
def TrackEnt.count (t : TrackEnt) (i : Nat) : TrackEnt := if t.counted.contains i then t else { t with counted := t.counted ++ [i] }

/-- Every packet but the last is counted. -/
def TrackEnt.restCounted (t : TrackEnt) : Bool := (List.range (t.n - 1)).all (fun i => t.counted.contains i)

/-- A flag applied (R361, Table 10-7): the count, the sequence, the binding, and the interrupt. -/
def State.applyFlag (s : State) (i src sq seq : Nat) : State :=
  let s := (s.onAnchor i (fun a => { a with
    fcount := (a.fcount + 1) % 2 ^ 32, lastFseq := seq, bound := true
    fsrc := if a.bound then a.fsrc else src, fsq := if a.bound then a.fsq else sq })).anchorCount 3
  let s :=
    if !(s.anchor i).irq then s
    else if s.out.flagPop.length < 256 then
      State.irq { s with out := { s.out with flagPop := s.out.flagPop ++ [i] } } 3
    else (State.irq { s with out := { s.out with flagOvf := true } } 3).bump 0x390 noUnit 1
  s.flagsChanged

/-- The waiting message of an entry completes once its last gap is filled. -/
def State.finishTracked (s : State) (sl : Nat) (t : TrackEnt) : State :=
  let s := s.untrack t.src t.sq t.seq false
  match t.heldFlag with
  | none => s.ackOut t.src t.sq t.seq t.key 1 0 false
  | some (off, bs) =>
    let r := s.translate sl t.anchor off bs.length
    match r.2 with
    | some segs => ((r.1.writeSegs segs bs).applyFlag t.anchor t.src t.sq t.seq).ackOut t.src t.sq t.seq t.key 1 0 false
    | none => (r.1.messageCairn 7 t.key t.src 0).ackOut t.src t.sq t.seq t.key 7 0 false

/-- A WRITE packet at its target (R360 to R363), on slice `sl`. -/
def State.targetWrite (s : State) (sl : Nat) (h : PktHead) (e : AncExt) (payload : List Byte) : State :=
  let i := e.key % 2 ^ 16
  let right := if e.flag_ then Right.flagWrite else Right.write
  let ack := fun (s : State) status foff => s.ackOut h.src e.sq h.seq e.key status foff false
  let d := (h.seq + 2 ^ 32 - (s.anchor i).lastFseq) % 2 ^ 32
  if e.flag_ ∧ s.checkKey h e right = 0 ∧ (d = 0 ∨ d ≥ 2 ^ 31) then ack (s.anchorCount 4) 2 0
  else
    let r := s.checkAccess sl h e right (e.moff + h.offset) payload.length
    let s := r.1
    if e.npm1 = 0 then
      match r.2 with
      | .ok segs =>
        let s := s.writeSegs segs payload
        ack (if e.flag_ then s.applyFlag i h.src e.sq h.seq else s) 1 0
      | .error c => ack (s.messageCairn c e.key h.src h.offset) c h.offset
    else
      let s := s.trackFor h e false
      let upd := s.onTrack h.src e.sq h.seq false
      let free := fun (s : State) => s.untrack h.src e.sq h.seq false
      match s.track h.src e.sq h.seq false, r.2 with
      | none, .ok segs =>
        let s := (if h.last ∧ e.flag_ then s else s.writeSegs segs payload).anchorCount 5
        if h.last then ack s 3 0 else s
      | none, .error c => if h.last then ack (s.messageCairn c e.key h.src h.offset) c h.offset else s
      | some t, .ok segs =>
        match t.failure with
        | some f => if h.last then ack (free s) f.1 f.2 else s
        | none =>
          if !h.last then
            let t' := t.count (packetIndex h e)
            let s := (upd (fun t => t.count (packetIndex h e))).writeSegs segs payload
            if t'.lastTick.isSome ∧ t'.restCounted then s.finishTracked sl t' else s
          else if t.restCounted then
            let s := (free s).writeSegs segs payload
            ack (if e.flag_ then s.applyFlag i h.src e.sq h.seq else s) 1 0
          else
            let s := upd (fun t => { t with
              lastTick := some (t.lastTick.getD s.count)
              heldFlag := if e.flag_ then some (e.moff + h.offset, payload) else none })
            if e.flag_ then s else s.writeSegs segs payload
      | some t, .error c =>
        let f := t.failure.getD (c, h.offset)
        let s := if t.failure.isNone then s.messageCairn c e.key h.src h.offset else s
        if h.last then ack (free s) f.1 f.2
        else if t.failure.isNone then s.onTrack h.src e.sq h.seq false (fun t => { t with failure := some f }) else s

/-- A WRITE packet that a port delivers, cut as R358 requires. -/
def State.writeIn (s : State) (p : Nat) (h : PktHead) (e : AncExt) (payload : List Byte) : State :=
  if !(s.auxGood p h e && cutGood h e && h.ext) then s.anchorCount 9 else s.targetWrite (portSlice p) h e payload

/-! ### Reads (R369 to R371) -/

/-- A READ-REQ at its target: refused, answered FULL, or queued (R370). Its pages are translated when each packet is read. -/
def State.readIn (s : State) (sl : Nat) (h : PktHead) (e : AncExt) (payload : List Byte) : State :=
  let v := leNat payload
  let rlen := field v 91 72 + 1
  let ack := fun (s : State) status => s.ackOut h.src e.sq h.seq e.key status 0 true
  let k := s.checkKey h e .read
  let k := if k = 0 ∧ e.moff + rlen > (s.anchor (e.key % 2 ^ 16)).length then 7 else k
  if k ≠ 0 then ack ((s.anchorCount (if k = 6 then 0 else if k = 5 then 1 else 2)).messageCairn k e.key h.src 0) k
  else
    let q := s.anc.jobs.get [] sl
    if q.length ≥ 64 then ack s 3
    else
      { s with anc := { s.anc with jobs := s.anc.jobs.put sl (q ++
          [⟨h.src, e.sq, h.seq, e.key, h.epoch, e.moff, field v 31 0, field v 71 32, rlen, field v 107 92⟩]) } }

/-- A READ-REQ that a port delivers: one packet with LEN 16 (R369). -/
def State.readReqIn (s : State) (p : Nat) (h : PktHead) (e : AncExt) (payload : List Byte) : State :=
  if !(s.auxGood p h e && h.ext && h.first && h.last && h.offset == 0 && h.len == 16 && e.npm1 == 0 && !e.flag_) then s.anchorCount 9
  else s.readIn (portSlice p) h e payload

/-- A READ-RESP packet at its reader, whose queue is `e.sq` (R371). -/
def State.respIn (s : State) (sl : Nat) (h : PktHead) (e : AncExt) (payload : List Byte) : State :=
  let r := s.checkAccess sl h e .write (e.moff + h.offset) payload.length
  match r.2 with
  | .error c =>
    let s := (r.1.messageCairn c e.key h.src h.offset).untrack h.src e.sq h.seq true
    s.messageFail e.sq h.seq (0x80 + c) h.offset
  | .ok segs =>
    let s := r.1.writeSegs segs payload
    if e.npm1 = 0 then s.messageDone e.sq h.seq
    else
      let s := s.trackFor h e true
      match s.track h.src e.sq h.seq true with
      | none => s.anchorCount 5
      | some t =>
        let t := t.count (packetIndex h e)
        if (List.range t.n).all (fun i => t.counted.contains i) then (s.untrack h.src e.sq h.seq true).messageDone e.sq h.seq
        else s.onTrack h.src e.sq h.seq true (fun _ => { t with lastTick := if h.last then some (t.lastTick.getD s.count) else t.lastTick })

/-- A READ-RESP that a port delivers. -/
def State.readRespIn (s : State) (p : Nat) (h : PktHead) (e : AncExt) (payload : List Byte) : State :=
  if !(h.ext && cutGood h e && !e.flag_) then s.anchorCount 9 else s.respIn (portSlice p) h e payload

/-- One response packet, sent or, for a reader of this engine, delivered. -/
def State.respond (s : State) (sl : Nat) (j : ReadJob) (i n : Nat) (bs : List Byte) : State :=
  let e : AncExt := ⟨false, n - 1, j.sq, j.roff, j.rkey⟩
  let h : PktHead := { (default : PktHead) with
    vc := 3, type := 0x0A, src := s.coord, dst := j.src, seq := j.seq, epoch := j.repoch, offset := 4096 * i
    first := decide (i = 0), last := decide (i + 1 = n), auxdst := auxSq j.sq, auxport := j.sq ≥ 0x700 }
  if j.src = s.coord ∧ j.sq < 1024 then s.respIn sl { h with len := bs.length, ext := true } e bs
  else s.sendGround (36 + sl) (packetBytes h e.bytes bs)

/-- A queued request is served (R370): packet after packet, up to the first that faults, whose fault is answered. -/
def State.serveRead (s : State) (sl : Nat) : State :=
  match s.anc.jobs.get [] sl with
  | [] => s
  | j :: rest =>
    let s := { s with anc := { s.anc with jobs := s.anc.jobs.put sl rest } }
    let n := ceilDiv j.rlen 4096
    let h : PktHead := { (default : PktHead) with src := j.src, seq := j.seq, epoch := j.epoch }
    let e : AncExt := ⟨false, 0, j.sq, j.moff, j.key⟩
    let step := fun (acc : State × Bool) (i : Nat) =>
      if acc.2 then acc
      else
        let len := Nat.min 4096 (j.rlen - 4096 * i)
        let r := acc.1.checkAccess sl h e .read (j.moff + 4096 * i) len
        let fault := fun (s : State) (c : Nat) =>
          ((s.messageCairn c j.key j.src (4096 * i)).ackOut j.src j.sq j.seq j.key c (4096 * i) true, true)
        match r.2 with
        | .error c => fault r.1 c
        | .ok segs =>
          match r.1.readSegs segs with
          | some bs => (r.1.respond sl j i n bs, false)
          | none => fault (r.1.hbmError (sliceSource 9 sl) ((segs.map (·.1)).headD 0)) 7
    ((List.range n).foldl step (s, false)).1

/-! ### Sending messages (R376) -/

/-- Bytes that message `k` of an entry moves. -/
def GroundQ.messageLen (g : GroundQ) (e : RingEnt) (k : Nat) : Nat := Nat.min g.chunkBytes (e.len - k * g.chunkBytes)

/-- The packets of a message of `l` bytes: offset, length and whether it is the flag packet (R358). -/
def messageCut (l : Nat) (flagged : Bool) : List (Nat × Nat × Bool) :=
  let f := if flagged then Nat.min l 64 else 0
  let data := (List.range (ceilDiv (l - f) 4096)).map (fun i => (4096 * i, Nat.min 4096 (l - f - 4096 * i), false))
  if flagged then data ++ [(l - f, f, true)] else data

/-- A ground packet of this engine leaves, or reaches this engine itself. -/
def State.emit (s : State) (sl : Nat) (h : PktHead) (e : AncExt) (bs : List Byte) : State :=
  if h.dst = s.coord ∧ !h.auxdst then
    let h := { h with len := bs.length, ext := true }
    if h.type = 8 then s.targetWrite sl h e bs else s.readIn sl h e bs
  else s.sendGround (64 + e.sq) (packetBytes h e.bytes bs)

/-- Every packet of a message sent; a fault of the sender's own anchor ends it (R372). -/
def State.sendPackets (s : State) (q : Nat) (m : OutMsg) : State :=
  let g := s.groundQ q
  let e := RingEnt.parse (s.hbmRead (g.entryAddr m.entry) 64)
  let sl := q / 128
  let base := m.msg * g.chunkBytes
  let len := g.messageLen e m.msg
  let h : PktHead := { (default : PktHead) with
    vc := 3, type := if e.type = 1 then 8 else 9, src := s.coord, dst := e.dst, seq := m.seq, epoch := e.repoch, auxdst := e.auxdst
    auxport := e.auxport }
  let own := s.anchor (e.lkey % 2 ^ 16)
  let key := if own.st ≠ .armed ∨ e.lkey / 2 ^ 16 = 0 ∨ e.lkey / 2 ^ 16 ≠ own.tag then 6 else 0
  if e.type = 2 then
    s.emit sl { h with first := true, last := true } ⟨false, 0, q, e.roff + base, e.rkey⟩
      (leBytes 16 (e.lkey % 2 ^ 32 + (e.loff + base) % 2 ^ 40 * 2 ^ 32 + (len - 1) * 2 ^ 72 + own.epoch * 2 ^ 92))
  else
    let cut := messageCut len m.flagged
    let step := fun (acc : State × Bool) (c : Nat × Nat × Bool) =>
      if acc.2 then acc
      else
        let fail := fun (s : State) (status : Nat) => (s.messageFail q m.seq (0x80 + status) c.1, true)
        if key ≠ 0 ∨ !own.rightR then fail acc.1 6
        else
          let r := acc.1.checkRange sl (e.lkey % 2 ^ 16) (e.loff + base + c.1) c.2.1
          match r.2 with
          | none => fail r.1 7
          | some segs =>
            match r.1.readSegs segs with
            | none => fail (r.1.hbmError (sliceSource 9 sl) ((segs.map (·.1)).headD 0)) 7
            | some bs =>
              (r.1.emit sl { h with offset := c.1, first := decide (c.1 = 0), last := decide (c = cut.getLastD (0, 0, false)) }
                ⟨c.2.2, cut.length - 1, q, e.roff + base, e.rkey⟩ bs, false)
    (cut.foldl step (s, false)).1

/-- Messages outstanding in the engine (R365). -/
def State.outstanding (s : State) : Nat := sumNat (s.gq.map (fun e => e.2.out.length))

/-- Entries of a running queue begin until one has a message to send. -/
def State.beginEntries (s : State) (q : Nat) : Nat → State
  | 0 => s
  | fuel + 1 => if (s.groundQ q).nextMessage.isSome then s else (s.beginEntry q).beginEntries q fuel

/-- A queue sends its next message where its state, MAXOUT and the order of flags allow (R365, R366, R376). -/
def State.messageSend (s : State) (q : Nat) : State :=
  if (s.groundQ q).st ≠ .running then s
  else
    let s := s.beginEntries q ((s.groundQ q).pendingCount + 1)
    let g := s.groundQ q
    match g.nextMessage with
    | none => s
    | some (i, k) =>
      let e := RingEnt.parse (s.hbmRead (g.entryAddr i) 64)
      let flagged := e.flagged (g.messages e) k
      if g.st ≠ .running ∨ s.outstanding ≥ 4096 ∨ g.out.length ≥ g.maxOut ∨ (flagged ∧ g.out ≠ []) ∨ g.out.any (·.flagged) then s
      else
        let m : OutMsg := ⟨g.seq, i, k, 1, 0, s.count, .rto, s.count + s.rto, s.backoff, flagged⟩
        let s := s.onGround q (fun g => { g with
          seq := (g.seq + 1) % 2 ^ 32, out := g.out ++ [m]
          runs := g.runs.map (fun r => if r.index = i then { r with started := r.started + 1 } else r) })
        (s.queueCount q 0).sendPackets q m

/-- A message is sent again, with a fresh RTO (R367). -/
def State.resend (s : State) (q : Nat) (m : OutMsg) : State :=
  let m := { m with attempts := m.attempts + 1, timer := .rto, timerAt := s.count + s.rto }
  ((s.onMsg q m.seq (fun _ => m)).queueCount q 1).sendPackets q m

/-- RTO expires (R367, R368, R380). -/
def State.rtoExpired (s : State) (q seq : Nat) : State :=
  match s.outMsg q seq with
  | none => s
  | some m =>
    if m.timer ≠ .rto ∨ s.count < m.timerAt then s
    else if (s.groundQ q).st = .draining then s.abandon q seq
    else if m.silent + 1 ≥ 8 ∨ s.count ≥ m.first + s.life then s.messageFail q seq 8 0
    else s.resend q { m with silent := m.silent + 1 }

/-- A backoff ends (R367). -/
def State.backoffExpired (s : State) (q seq : Nat) : State :=
  match s.outMsg q seq with
  | none => s
  | some m =>
    if m.timer ≠ .backoff ∨ s.count < m.timerAt then s
    else if (s.groundQ q).st = .draining then s.abandon q seq
    else if s.count ≥ m.first + s.life then s.messageFail q seq 8 0
    else s.resend q m

/-- LIFE passes, or the eighth RTO has (R368). -/
def State.lifeExpired (s : State) (q seq : Nat) : State :=
  match s.outMsg q seq with
  | none => s
  | some m => if s.count ≥ m.first + s.life ∨ m.silent ≥ 8 then s.messageFail q seq 8 0 else s

/-- HOLD passes since the LAST packet (Table 10-7). -/
def State.holdExpired (s : State) (src sq seq : Nat) (resp : Bool) : State :=
  match s.track src sq seq resp with
  | none => s
  | some t =>
    match t.lastTick with
    | none => s
    | some last =>
      if s.count < last + s.reg 0x200030 then s
      else
        let s := s.untrack src sq seq resp
        if resp then s else s.ackOut src sq seq t.key 4 0 false

/-- AGE passes without a packet, and no LAST has come (R362). -/
def State.ageExpired (s : State) (src sq seq : Nat) (resp : Bool) : State :=
  match s.track src sq seq resp with
  | none => s
  | some t => if t.lastTick.isNone ∧ s.count ≥ t.seenTick + s.reg 0x200034 then (s.untrack src sq seq resp).anchorCount 6 else s

/-- An ACK reaches its queue (R359, R367). -/
def State.ackIn (s : State) (h : PktHead) (payload : List Byte) : State :=
  let v := leNat payload
  let q := field v 42 32
  if q ≥ 1024 then s.anchorCount 8 else s.answerIn q h.seq h.group (field v 67 44) (flag v 43)

/-! ### The rows -/

/-- The extension of a received packet. -/
def packetExt (pkt : List Byte) : AncExt := AncExt.parse ((pkt.drop 32).take 16)

/-- WRITE (R363, Table 10-7). -/
def execWrite (port : Nat) (packet : List Byte) (s : State) : Host.Outcome State Fault Refusal :=
  answer s (s.ground port packet 8 (fun h s => s.writeIn port h (packetExt packet) (packetPayload packet)))

/-- READ_REQ (R370). -/
def execReadReq (port : Nat) (packet : List Byte) (s : State) : Host.Outcome State Fault Refusal :=
  answer s (s.ground port packet 9 (fun h s => s.readReqIn port h (packetExt packet) (packetPayload packet)))

/-- READ_RESPONDER_SERVE (R370). -/
def execReadResponderServe (slice : Nat) (s : State) : Host.Outcome State Fault Refusal :=
  answer s (if s.coreUp ∧ slice < 8 ∧ !(s.slice slice).fenced then s.serveRead slice else s)

/-- READ_RESP (R371). -/
def execReadResp (port : Nat) (packet : List Byte) (s : State) : Host.Outcome State Fault Refusal :=
  answer s (s.ground port packet 0x0A (fun h s => s.readRespIn port h (packetExt packet) (packetPayload packet)))

/-- ACK (R367). -/
def execAck (port : Nat) (packet : List Byte) (s : State) : Host.Outcome State Fault Refusal :=
  answer s (s.ground port packet 0x0B (fun h s => s.ackIn h (packetPayload packet)))

/-- MESSAGE_SEND (R376). -/
def execMessageSend (queue : Nat) (s : State) : Host.Outcome State Fault Refusal :=
  answer s (if s.coreUp ∧ queue < 1024 then s.messageSend queue else s)

/-- RTO_EXPIRY (R367). -/
def execRtoExpiry (queue seq : Nat) (s : State) : Host.Outcome State Fault Refusal := answer s (s.rtoExpired queue seq)

/-- BACKOFF_EXPIRY (R367). -/
def execBackoffExpiry (queue seq : Nat) (s : State) : Host.Outcome State Fault Refusal := answer s (s.backoffExpired queue seq)

/-- LIFE_EXPIRY (R368). -/
def execLifeExpiry (queue seq : Nat) (s : State) : Host.Outcome State Fault Refusal := answer s (s.lifeExpired queue seq)

/-- TRACKER_HOLD_EXPIRY (R363). -/
def execTrackerHoldExpiry (key : TrackKey) (s : State) : Host.Outcome State Fault Refusal :=
  answer s (s.holdExpired key.src key.sq key.seq key.resp)

/-- TRACKER_AGE_EXPIRY (R362). -/
def execTrackerAgeExpiry (key : TrackKey) (s : State) : Host.Outcome State Fault Refusal :=
  answer s (s.ageExpired key.src key.sq key.seq key.resp)

/-- ANCHOR_OPERATION_DONE (R350). -/
def execAnchorOperationDone (s : State) : Host.Outcome State Fault Refusal := answer s s.finishAnchorOp

end Sys2Proof.Machine
end

