-- ==== Sys2Proof/Machine/Cairn.lean ====
section
/-! DEFINITION. The cairn log after submission: the entry queue and the ring (R467 to R469), the closing of windows (R465), the log's
control registers (R464, R468, R470, R472, R497), LOG-READ (Table 12-11); and the fences that masters set and clear (R25, R474,
R476). -/

namespace Sys2Proof.Machine

/-- Writes of a master to a register take effect: it owns the control plane, or it is management and the register is open to it
(R9, R10); nothing is written without the standby supply (R454). -/
def State.may (s : State) (m : Master) (isOpen : Bool) : Bool :=
  s.power.standby && (s.owns m || (m == .mgmt && isOpen))

/-- The same for a register of the core domain, which ignores writes in OFF and BIVOUAC (R482). -/
def State.mayCore (s : State) (m : Master) (isOpen : Bool) : Bool := s.may m isOpen && s.coreUp

/-- A reply to a master. -/
def State.answerWith (s : State) (ws : List Nat) : State := { s with out := { s.out with reply := ws } }

/-! ### The ring (R467, R468, R471) -/

/-- Records in the ring that have not been taken. -/
def CairnLog.unread (l : CairnLog) : Nat := (l.wr + 8192 - l.rd) % 8192

/-- A class marked Rsv in Table 13-1. -/
def reservedClass (c : Nat) : Bool := [3, 8, 17, 20, 21, 22].contains c

/-- The oldest record of the entry queue is entered into the ring, or turned away and counted (R468). -/
def CairnLog.enter (l : CairnLog) : CairnLog × Option Nat :=
  match l.queue with
  | [] => (l, none)
  | r :: rest =>
    let l := { l with queue := rest }
    let room := 4096 - l.unread
    if room = 0 ∨ (room ≤ 64 ∧ !reservedClass (recordClass r)) then ({ l with rdrop := stick32 (l.rdrop + 1) }, none)
    else
      let slot := l.wr % 4096
      ({ l with ring := l.ring.put slot r, wr := (l.wr + 1) % 8192, badParity := l.badParity.filter (· ≠ slot) }, some (recordClass r))

/-- An in-band interrupt raised on the I3C bus (R445), unless DISEC has disabled them. -/
def State.inBand (s : State) : State :=
  if flag s.mgmt.events 0 then s else { s with out := { s.out with ibi := s.out.ibi ++ [0xAE] } }

/-- One record entered, with the interrupts that its class enables (R471). -/
def State.enterCairn (s : State) : State :=
  let e := s.cairn.enter
  let s := { s with cairn := e.1 }
  match e.2 with
  | none => s
  | some c =>
    let s := if flag (s.reg 0x400018) c then s.irq 2 else s
    if flag (s.reg 0x40001C) c then s.inBand else s

/-- Records entered until the queue is empty (R450). -/
def State.flushCairns (s : State) : Nat → State
  | 0 => s
  | fuel + 1 => if s.cairn.queue = [] then s else (s.enterCairn).flushCairns fuel

/-- The row CAIRN_ENTRY. -/
def execCairnEntry (s : State) : Host.Outcome State Fault Refusal :=
  answer s (if s.power.standby then s.enterCairn else s)

/-! ### Windows (R465) -/

/-- The SUMMARY record of a window. -/
def CairnWin.summary (w : CairnWin) : Nat :=
  cairnRecord w.last ⟨w.lastTime, w.step, w.bits / 2 % 2 == 1, w.bits % 2 == 1⟩ true false w.count (w.lastTime - w.firstTime)

/-- A window that is 25,000 standby cycles old closes; a count above 1 sends a SUMMARY record to the entry queue. -/
def CairnLog.closeWindow (l : CairnLog) (cycles cls src : Nat) : CairnLog :=
  match l.windows.find? (fun w => w.cls = cls ∧ w.source = src) with
  | none => l
  | some w =>
    if cycles < w.opened + 25000 then l
    else
      let l := { l with windows := l.windows.erase w }
      if w.count > 1 then l.enqueue w.summary else l

/-- The row COALESCING_WINDOW_CLOSE. -/
def execCoalescingWindowClose (cls src : Nat) (s : State) : Host.Outcome State Fault Refusal :=
  answer s (if s.power.standby then { s with cairn := s.cairn.closeWindow s.power.cycles cls src } else s)

/-! ### Control registers of the log -/

/-- CRN_RD written (R472): only up to CRN_WR; any other write is counted. -/
def State.setCrnRd (s : State) (v : Nat) : State :=
  let v := v % 8192
  if (v + 8192 - s.cairn.rd) % 8192 ≤ s.cairn.unread then { s with cairn := { s.cairn with rd := v } } else s.bump 0x388 noUnit 1

/-- The row CRN_RD_WRITE. -/
def execCrnRdWrite (m : Master) (value : Word) (s : State) : Host.Outcome State Fault Refusal :=
  answer s (if s.may m true then s.setCrnRd value.toNat else s)

/-- CRN_CTL.OVF_CLR (R468). -/
def State.clearOverflow (s : State) : State := { s with cairn := { s.cairn with qdrop := 0, rdrop := 0 } }

/-- CRN_CTL.CLEAR (R470): ring, queue, windows, captures and overflow counts. -/
def State.clearLog (s : State) : State :=
  { s with cairn := { s.cairn with ring := [], wr := 0, rd := 0, queue := [], windows := [], capture := [], qdrop := 0, rdrop := 0,
                                   badParity := [] } }

/-- CRN_CTL.CNT_CLR (R497): every engine-wide total; the counts of the step stay. -/
def State.clearCounters (s : State) : State := if s.coreUp then { s with counters := [] } else s

/-- The row CRN_CTL_OVF_CLR. -/
def execCrnCtlOvfClr (m : Master) (s : State) : Host.Outcome State Fault Refusal :=
  answer s (if s.may m true then s.clearOverflow else s)

/-- The row CRN_CTL_CLEAR. -/
def execCrnCtlClear (m : Master) (s : State) : Host.Outcome State Fault Refusal :=
  answer s (if s.may m true then s.clearLog else s)

/-- The row CRN_CTL_CNT_CLR. -/
def execCrnCtlCntClr (m : Master) (s : State) : Host.Outcome State Fault Refusal :=
  answer s (if s.may m true then s.clearCounters else s)

/-- CRN_FEC_CLR (R464): a 1 clears the global slot (bit 0) or the slot of a class. -/
def State.clearCaptures (s : State) (mask : Nat) : State :=
  { s with cairn := { s.cairn with
      capture := s.cairn.capture.filter (fun e => !(decide (e.1 ≤ 22) && flag mask e.1))
      badParity := s.cairn.badParity.filter (fun i => !(decide (4096 ≤ i ∧ i ≤ 4118) && flag mask (i - 4096))) } }

/-- The row CRN_FEC_CLR. -/
def execCrnFecClr (m : Master) (mask : Word) (s : State) : Host.Outcome State Fault Refusal :=
  answer s (if s.may m true then s.clearCaptures mask.toNat else s)

/-- The record at a ring slot or capture slot as it is read: PARITY set where its parity fails (R469). -/
def CairnLog.at_ (l : CairnLog) (slot : Nat) : Nat :=
  let r := if slot < 4096 then l.ring.get 0 slot else l.capture.get 0 (slot - 4096)
  if l.badParity.contains slot ∧ !flag r 148 then r + 2 ^ 148 else r

/-- A record as eight 32-bit words, bits [31:0] first (R496). -/
def recordWords (r : Nat) : List Nat := (List.range 8).map (fun i => r / 2 ^ (32 * i) % 2 ^ 32)

/-- LOG-READ (Table 12-11): the records from count `first` on, at most `n` and none past CRN_WR; the read pointer moves past them.
A first record outside the unread ones is INVALID (log 26). -/
def State.logRead (s : State) (first n : Nat) : State :=
  let first := first % 8192
  let skip := (first + 8192 - s.cairn.rd) % 8192
  if n = 0 ∨ n > 120 ∨ skip > s.cairn.unread then s.answerWith [3]
  else
    let k := Nat.min n (s.cairn.unread - skip)
    let slots := (List.range k).map (fun i => (first + i) % 4096)
    let bad := (slots.filter (fun i => s.cairn.badParity.contains i)).length
    ((s.bump 0x3A4 noUnit bad).answerWith (0 :: slots.flatMap (fun i => recordWords (s.cairn.at_ i)))).setCrnRd (first + k)

/-- The row LOG_READ. -/
def execLogRead (first count : Nat) (s : State) : Host.Outcome State Fault Refusal :=
  answer s (if s.power.standby then s.logRead first count else s)

/-! ### Fences (R25, R474, R476) -/

/-- Who a master is in a FENCE cairn (Table 13-1). -/
def originator : Master → Nat
  | .host => 1 | .mgmt => 2

/-- The row GLB_FENCE_WRITE: a 1 fences a slice; open to management (Table 14-7). -/
def execGlbFenceWrite (m : Master) (mask : Nat) (s : State) : Host.Outcome State Fault Refusal :=
  answer s (if s.may m true then s.fenceMask mask (originator m) else s)

/-- The row FENCE (Table 12-11). -/
def execFence (mask : Nat) (s : State) : Host.Outcome State Fault Refusal :=
  answer s (if s.power.standby then (s.fenceMask mask 2).answerWith [0] else s)

/-- A fence of one slice cleared (R476): reinitialisation starts; while it runs, the write has no effect and is counted. -/
def State.clearFence (s : State) (i : Nat) : State :=
  if (s.slice i).clearing then s.bump 0x38C noUnit 1
  else if (s.slice i).fenced then s.onSlice i (fun sl => { sl with clearing := true })
  else s

/-- Fences are cleared in READY or HELD (R25). -/
def State.mayUnfence (s : State) : Bool := s.power.st == .ready || s.power.st == .held

/-- Fences of a mask cleared, or the request counted as refused (Table 14-26). -/
def State.unfenceMask (s : State) (mask : Nat) : State :=
  if s.mayUnfence then (maskBits mask).foldl State.clearFence s
  else if maskBits mask = [] then s else s.bump 0x38C noUnit 1

/-- The row MGT_UNFENCE: management only (R11). -/
def execMgtUnfence (m : Master) (mask : Nat) (s : State) : Host.Outcome State Fault Refusal :=
  answer s (if s.power.standby && m == .mgmt then s.unfenceMask mask else s)

/-- The row UNFENCE (Table 12-11): REFUSED outside READY and HELD. -/
def execUnfence (mask : Nat) (s : State) : Host.Outcome State Fault Refusal :=
  answer s (if s.power.standby then (s.unfenceMask mask).answerWith [if s.mayUnfence then 0 else 1] else s)

/-- A slice whose staging, pin and heat memories have been written to zero and whose translation cache is invalid (R476). -/
def State.reinit (s : State) (i : Nat) : State :=
  let s := s.onSlice i (fun sl =>
    { sl with
      fenced := false, clearing := false, bufs := [], opens := [], tiles := [], held := [], heat := [], prusik := [] })
  { s with anc := { s.anc with trans := s.anc.trans.put i [] } }

/-- Reinitialisation ends: the fence falls, or, after an uncorrectable error, the slice is fenced again by the engine. The memory
and the address of that error are free values (log 4). -/
def State.reinitDone (s : State) (i : Nat) (clean : Bool) : State :=
  if !(s.slice i).clearing then s
  else if clean then s.reinit i
  else
    let m := s.fresh
    let a := m.2.fresh
    let s := a.2.raise 0x08 (sliceSource 0 i) 0 (m.1 % 8 + 1) a.1
    let s := s.onSlice i (fun sl => { sl with clearing := false, fenced := false })
    s.fence i 3 0x08

/-- The row FENCE_CLEAR_REINIT_DONE. -/
def execFenceClearReinitDone (slice : Nat) (clean : Bool) (s : State) : Host.Outcome State Fault Refusal :=
  answer s (s.reinitDone slice clean)

/-- DIE_TO_DIE_LINK_DOWN (R17, R474): a LINK-DOWN cairn with the link as source, and the slice is fenced by the engine. -/
def execDieToDieLinkDown (slice cause : Nat) (s : State) : Host.Outcome State Fault Refusal :=
  answer s (if s.coreUp ∧ slice < 8 then (s.raise 0x03 (source 0xA slice) 0 cause 0).fence slice 3 0x03 else s)

end Sys2Proof.Machine
end

