-- ==== Sys2Proof/Machine/Latency.lean ====
section
/-! DEFINITION. What the engine publishes of a pin (chapter The Pricking): its kind, its latency (Table 5-6), the quantities
of Table 5-5 it needs, the rounds of a picot (R145) and the sizes of token windows (R252). -/

namespace Sys2Proof.Machine

/-! ### Kinds of pins (Table 5-3) -/

/-- A SEND of the kind `a` of ARG[1:0]. -/
def Pin.isSend (p : Pin) (a : Nat) : Bool := p.op == 1 && !p.aux && p.arg % 4 == a

/-- A memory-sourced SEND (R295). -/
def Pin.isMemSend (p : Pin) : Bool := p.op == 1 && p.aux

/-- A DELIVER to a station (PORTQ 0 to 23). -/
def Pin.isToStation (p : Pin) : Bool := p.op == 5 && !p.aux && p.portq < 24

/-- A DELIVER to the destination code of PORTQ: 32 HBM, 33 compute scratch, 34 heat table. -/
def Pin.isDeliver (p : Pin) (q : Nat) : Bool := p.op == 5 && !p.aux && p.portq == q

/-- A DELIVER copy (R186). -/
def Pin.isCopy (p : Pin) : Bool := p.op == 5 && p.aux

/-- A DISPATCH of a ROLE (Table 7-7). -/
def Pin.isDispatch (p : Pin) (role : Nat) : Bool := p.op == 12 && p.arg % 4 == role

/-- Routed layer, batch, micro-batch and rank that a token pin names (Table 7-7). -/
def Pin.layer (p : Pin) : Nat := p.chunk / 4096

/-- Batch of a DISPATCH. -/
def Pin.batch (p : Pin) : Nat := p.chunk % 4096

/-- Micro-batch of a token pin. -/
def Pin.mb (p : Pin) : Nat := field p.arg 12 5

/-- Destination rank of a DISPATCH, source rank of a RETURN. -/
def Pin.rank (p : Pin) : Nat := field p.arg 4 2

/-- The context of a SURVEY pin: the object map of its slice (R217). -/
def Image.surveyCtx (im : Image) (sl : Nat) (p : Pin) : CtxEnt :=
  let c := nth im.coding sl default
  nth c.ctxs (c.objectMap.get 0 p.pitch % 128) default

/-- The context index of a pitch on a slice, where the pitch map has a valid entry (R217). -/
def Image.pitchCtx (im : Image) (sl pitch : Nat) : Option Nat :=
  let v := (nth im.coding sl default).pitchMap.get 0 pitch
  if flag v 7 then some (v % 128) else none

/-- Coding context entry `i` of a slice. -/
def Image.ctxEnt (im : Image) (sl i : Nat) : CtxEnt := nth (nth im.coding sl default).ctxs i default

/-- Survey chunk size C of a context (Table 6-5). -/
def CtxEnt.bytes (c : CtxEnt) : Nat := 2 ^ (c.csize + 12)

/-! ### Rounds of a picot (R145) -/

/-- The axes 1 to 4 that a group spans, in the order N, X, Y, W (R125). -/
def GroupDesc.spanned (g : GroupDesc) : List Nat := [1, 2, 3, 4].filter (fun a => (g.axis a).spans)

/-- The package rounds of a picot over the group: axis and j, the N round first if N is spanned. -/
def GroupDesc.picotRounds (g : GroupDesc) : List (Nat × Nat) :=
  g.spanned.flatMap (fun a => if a = 1 then [(1, 0)] else (List.range (g.axis a).log2ext).map (fun j => (a, j)))

/-- Hops of a round: 1 on N and W, 2^j × s on X and Y. -/
def GroupDesc.roundHops (g : GroupDesc) (r : Nat × Nat) : Nat :=
  if r.1 = 2 ∨ r.1 = 3 then 2 ^ r.2 * (g.axis r.1).stride else 1

/-! ### Token windows (R241, R252) -/

/-- V: the bytes of a token vector (Table 7-3). -/
def Routed.vbytes (d : Routed) : Nat := if d.vfmt = 1 then 2 * d.h else if d.vfmt ≤ 3 then d.h else 33 * d.h / 32

/-- S: the stride of a vector in staging and queues. -/
def Routed.stride (d : Routed) : Nat := roundUp d.vbytes 64

/-- G: members of the dispatch group. -/
def Image.routedG (im : Image) (d : Routed) : Nat := (im.group d.group).size

/-- P: experts that each member holds (R238). -/
def Image.routedP (im : Image) (d : Routed) : Nat := d.x / im.routedG d

/-- B_t: bytes of a token chunk in the reservation. -/
def Routed.tokBytes (d : Routed) (coded : Bool) : Nat :=
  if coded then d.vbytes + 8 * ceilDiv d.vbytes 4096 + 32 else d.vbytes + 32

/-- Reserved bytes of a send or a RETURN. -/
def Image.reserved (im : Image) (d : Routed) (coded : Bool) : Nat :=
  im.routedP d * d.cap * d.tokBytes coded + 4 * im.routedP d + 32

/-- The routed layer a token pin names. -/
def Image.layerOf (im : Image) (l : Nat) : Routed := im.routed.layers.get default l

/-! ### Latencies (R172 to R174) -/

/-- W_p of a pin: the wire ticks its window takes. -/
def pinWire (im : Image) (pk : Pricking) (p : Pin) : Nat :=
  if p.op = 1 then wireTicks p.portq ((pk.pitchAt p.pitch).wireBytes p.coded)
  else if p.op = 11 then 5
  else if p.op = 12 ∨ p.op = 13 then wireTicks p.portq (im.reserved (im.layerOf p.layer) p.coded)
  else 0

/-- The latency of a DELIVER. -/
def deliverLatency (pk : Pricking) (a : Nat) (p : Pin) : Nat :=
  let r := pk.pitchAt p.pitch
  let e := r.elems
  if p.aux then 12 + ceilDiv (2 * (pk.mdescAt p.arg).length) a
  else if p.portq < 24 then 12 + Nat.max (ceilDiv e 3072) (ceilDiv (4 * e) 8000)
  else if p.portq = 33 then 12 + ceilDiv r.bytes 6000
  else if p.portq = 34 then 8 + ceilDiv e 3072
  else if r.kind = 2 ∨ r.kind = 3 then 12 + ceilDiv 4096 a
  else if (pk.mdescAt p.arg).kind = 0 then 12 + Nat.max (ceilDiv e 3072) (ceilDiv (4 * e) a)
  else 12 + ceilDiv r.bytes a

/-- The latency of the heat settle: two histogram passes, and a third scan where wide blocks are enabled. -/
def settleLatency (pol : Policy) (sl : Nat) : Nat :=
  let pass := ceilDiv (pol.nS sl) 384 + 24
  16 + 2 * pass + (if pol.wideK ≠ 0 then pass else 0)

/-- The latency of an UPDATE: 12.125 or 8.125 bytes of memory traffic for each parameter. -/
def updateLatency (form a n : Nat) : Nat :=
  40 + Nat.max (ceilDiv (1024 * n) 1536) (ceilDiv ((if form = 1 then 65 else 97) * 1024 * n) (8 * a))

/-- The latency of a pin of stream `st` in ticks (Table 5-6). -/
def pinLatency (im : Image) (pk : Pricking) (st : Nat) (p : Pin) : Nat :=
  let h := pk.head
  let r := pk.pitchAt p.pitch
  let e := r.elems
  let a := h.slc st
  match p.op with
  | 1 =>
    if p.aux ∨ p.arg % 4 = 0 then 20 + crossing st p.portq + pinWire im pk p
    else if p.arg % 4 = 3 then 2
    else 0
  | 2 => if p.arg = noBuffer then 1 else 4 + ceilDiv e (laneRate r.owidth)
  | 3 => 10 + ceilDiv e (laneRate r.owidth)
  | 4 => 10 + Nat.max (ceilDiv e 3072) (ceilDiv (12 * e) a)
  | 5 => deliverLatency pk a p
  | 6 => if p.wide then 0 else 12 + Nat.max (ceilDiv p.arg 3) (ceilDiv (8192 * p.arg) a)
  | 7 => if p.aux then settleLatency (im.policyOf p.pitch) st else 12 + Nat.max (ceilDiv p.arg 3) (ceilDiv (4096 * p.arg) a)
  | 8 =>
    let c := (im.surveyCtx st p).bytes
    16 + Nat.max (ceilDiv c 768) (ceilDiv c a) + (if p.aux then 256 else 0)
  | 9 => 6 + ceilDiv r.bytes 384
  | 10 => 6 + ceilDiv r.bytes 384
  | 11 =>
    if p.portq = 36 then 24
    else
      let g := im.group r.group
      let rd := nth g.picotRounds (p.chunk - 1) (0, 0)
      45 + h.path rd.1 (g.roundHops rd)
  | 12 =>
    let d := im.layerOf p.layer
    if p.arg % 4 = 0 then 24 + ceilDiv d.tmax 6
    else 24 + ceilDiv (im.routedP d * d.cap) 6 + pinWire im pk p
  | 13 => 20 + pinWire im pk p
  | 14 => updateLatency (im.optim.entries.get default p.pitch).form (h.sta p.portq) p.arg
  | 17 => 2048
  | _ => 0

/-- The span over which a pin's port window stands, from the pin's tick: [20 + x, 20 + x + W_p) (Table 5-8); none for a
pin that holds no port. -/
def pinWindow (im : Image) (pk : Pricking) (st : Nat) (p : Pin) : Option (Nat × Nat) :=
  let sends := (p.op = 1 ∧ (p.aux ∨ p.arg % 4 ≠ 3)) ∨ p.op = 11 ∨ (p.op = 12 ∧ p.arg % 4 ≠ 0) ∨ p.op = 13
  if sends ∧ p.portq < 36 then
    let x := if p.op = 1 then crossing st p.portq else 0
    some (20 + x, 20 + x + pinWire im pk p)
  else none

/-- The virtual channel of a pin's window. -/
def Pin.vc (p : Pin) : Nat := if p.op = 11 then 1 else if p.op = 12 ∨ p.op = 13 then 2 else 0

/-- The retry extension of a pitch on a port: three link-level retries (Table 5-8). -/
def retryExt (h : PricHead) (port : Nat) : Nat := 3 * (2 * h.portHop port + 8)

end Sys2Proof.Machine
end

