-- ==== Sys2Proof/Machine/Histories.lean ====
section
/-! DEFINITION. Histories of a step: the shared exponents that come from them (R45 to R49, R58, R95, R96) and how entries are
recorded, and the groups' routes of a chunk: destination and sources of a round (R126 to R130, R145, R147). -/

namespace Sys2Proof.Machine

/-! ### History windows -/

/-- The key of a scaling unit's history. -/
def unitKey (tensor unit : Nat) : Nat := tensor * 2 ^ 26 + unit

/-- The entries of steps t − h to t − 1 (R45). -/
def histWindow (es : List HistEnt) (t h : Nat) : List HistEnt := es.filter (fun e => t ≤ e.step + h && e.step < t)

/-- The window holds an unsettled entry (R48). -/
def unsettled (es : List HistEnt) : Bool := es.any (fun e => e.val.isNone)

/-- The largest entry of a window, if it holds one. -/
def histMax (es : List HistEnt) : Option Int :=
  es.foldl (fun m e => match m, e.val with
    | none, v => v
    | some a, none => some a
    | some a, some b => some (max a b)) none

/-- An entry recorded for a step; the last 64 are kept (R45). A second entry of one step replaces the first. -/
def histAdd (es : List HistEnt) (e : HistEnt) : List HistEnt :=
  let l := es.filter (fun x => x.step ≠ e.step) ++ [e]
  l.drop (l.length - 64)

/-- The scale history window of a unit at the running step. -/
def State.scaleWin (s : State) (t u : Nat) : List HistEnt :=
  histWindow (s.scaleHist.get [] (unitKey t u)) s.seq.step (s.image.policyOf t).hist

/-- The level history window of a unit. -/
def State.levelWin (s : State) (t u : Nat) : List HistEnt :=
  histWindow (s.levelHist.get [] (unitKey t u)) s.seq.step (s.image.policyOf t).hist

/-- The heat history window of a tensor. -/
def State.heatWin (s : State) (t : Nat) : List HistEnt :=
  histWindow (s.heatHist.get [] t) s.seq.step (s.image.policyOf t).hist

/-- The exponent of width q from a window's entries; e_init where there is none (R45, R46). -/
def Policy.expOf (pol : Policy) (w : List HistEnt) (q : Nat) : Int :=
  match histMax w with
  | none => pol.eInit
  | some m => scaleExp m.toNat pol.margin q

/-- e of a scaling unit for width q as the entries that exist give it (R45). -/
def State.unitExpRaw (s : State) (t u q : Nat) : Int := (s.image.policyOf t).expOf (s.scaleWin t u) q

/-- e of a scaling unit for width q, or none while its window holds an unsettled entry (R46, R48). -/
def State.unitExp (s : State) (t u q : Nat) : Option Int :=
  if unsettled (s.scaleWin t u) then none else some ((s.image.policyOf t).expOf (s.scaleWin t u) q)

/-- The width of a tensor's main set: 16 in FULL, 8 otherwise. -/
def Policy.mainWidth (pol : Policy) : Nat := if pol.runMode = 1 then 16 else 8

/-- eh as the entries that exist give it (R95). -/
def State.heatExpRaw (s : State) (t : Nat) : Int :=
  let pol := s.image.policyOf t
  match histMax (s.heatWin t) with
  | some m => m - pol.hgroup - 14 + pol.hmargin
  | none => 2 * (pol.expOf (s.scaleWin t 0) pol.mainWidth + 7) - 4 + pol.hmargin

/-- eh, or none while the heat window holds an unsettled entry, or, with no heat entry, the scale window (R95, R96). -/
def State.heatExp (s : State) (t : Nat) : Option Int :=
  let w := s.heatWin t
  if unsettled w ∨ (histMax w = none ∧ unsettled (s.scaleWin t 0)) then none else some (s.heatExpRaw t)

/-- s of R58 for a unit, or none while its level window holds an unsettled entry. -/
def State.levelShift (s : State) (t u : Nat) : Option Nat :=
  let w := s.levelWin t u
  if unsettled w then none
  else some (Machine.levelShift ((histMax w).getD 0).toNat (s.image.policyOf t).margin)

/-! ### Pitch exponents (R47) -/

/-- A REQUANT pin of the step section stands on a chunk of this tensor, unit and set. -/
def Pricking.requanted (pk : Pricking) (e : PMapEnt) : Bool :=
  (List.range 8).any (fun st => (pk.stream 0 st).any (fun p => p.op == 4 &&
    (match pk.payload p.pitch p.chunk with
     | none => false
     | some m => m.tensor == e.tensor && m.unit == e.unit && m.set == e.set)))

/-- The pitch exponent of a chunk as this engine derives it, or none where it cannot. -/
def State.pitchExp (s : State) (pitch chunk : Nat) : Option Int :=
  match s.pricking.payload pitch chunk with
  | none => none
  | some e =>
    let pol := s.image.policyOf e.tensor
    let base : Option Int :=
      if e.set = 2 then s.heatExp e.tensor
      else if e.set = 1 then s.unitExp e.tensor e.unit 16
      else if pol.runMode = 4 then (if unsettled (s.scaleWin e.tensor e.unit) then none else some 0)
      else s.unitExp e.tensor e.unit pol.mainWidth
    if (s.pricking.pitchAt pitch).axis = 4 ∧ e.set ≠ 2 ∧ s.pricking.requanted e then
      match base, s.levelShift e.tensor e.unit with
      | some b, some sh => some (b + sh)
      | _, _ => none
    else base

/-! ### Routes of a round -/

/-- Axis ranks N, X, Y, W of a coordinate in its group. -/
def GroupDesc.digits (g : GroupDesc) (c : Nat) : List Nat := (g.axes.zip (coordAxes c)).map (fun a => a.1.rank a.2)

/-- The coordinate of the member of axis ranks `d` that shares the instance of `c`. -/
def GroupDesc.at_ (g : GroupDesc) (c : Nat) (d : List Nat) : Nat :=
  packCoord ((g.axes.zip ((coordAxes c).zip d)).map (fun a => a.1.member a.2.1 a.2.2))

/-- Axis ranks of a group rank (R118). -/
def GroupDesc.split (g : GroupDesc) (r : Nat) : List Nat :=
  (g.axes.reverse.foldl (fun (acc : Nat × List Nat) a => (acc.1 / a.ext, (acc.1 % a.ext) :: acc.2)) (r, [])).2

/-- The axis ranks of the member that ends the scatter half holding chunk k (R126). -/
def GroupDesc.owner (g : GroupDesc) (chunks k : Nat) : List Nat :=
  g.split (if chunks = 0 then 0 else k * g.size / chunks)

/-- The N coordinate offset, under XOR, of the peer that an N port leads to (Table 1-8). -/
def nOffset (port : Nat) : Nat := port / 4 + 1

/-- The coordinate to which a SEND on a port sends a chunk: the partner of the pitch's round (R127 to R130, R147). -/
def State.sendDest (s : State) (r : Pitch) (port chunk : Nat) : Nat :=
  let g := s.image.group r.group
  let mine := g.digits s.coord
  if r.axis = 0 then s.coord
  else if r.axis = 1 then
    if r.kind = 0 then g.at_ s.coord (mine.set 0 (nth (g.owner r.chunks chunk) 0 0))
    else packCoord ((coordAxes s.coord).set 0 (nth (coordAxes s.coord) 0 0 ^^^ nOffset port))
  else g.at_ s.coord (mine.modify (r.axis - 1) (fun i => i ^^^ 2 ^ r.round))

/-- The partner of a picot round by a port. -/
def State.picotPartner (s : State) (g : GroupDesc) (rd : Nat × Nat) (port : Nat) : Nat :=
  if rd.1 = 1 then packCoord ((coordAxes s.coord).set 0 (nth (coordAxes s.coord) 0 0 ^^^ nOffset port))
  else g.at_ s.coord ((g.digits s.coord).modify (rd.1 - 1) (fun i => i ^^^ 2 ^ rd.2))

/-- The group ranks from which this engine expects chunk k in the pitch's round (R127 to R130, R147, R148). -/
def State.sources (s : State) (r : Pitch) (chunk : Nat) : List Nat :=
  let g := s.image.group r.group
  let mine := g.digits s.coord
  let own := g.owner r.chunks chunk
  let a := r.axis - 1
  let flip := g.rank (g.at_ s.coord (mine.modify a (fun i => i ^^^ 2 ^ r.round)))
  let bit := fun (x : Nat) => flag x r.round
  if r.axis = 0 then [g.rank s.coord]
  else if r.kind = 4 then
    let root := g.split r.root
    let rel := (List.range 4).map (fun b => nth mine b 0 ^^^ nth root b 0)
    if (List.range a).any (fun b => nth rel b 0 ≠ 0) then []
    else if r.axis = 1 then
      (if nth rel 0 0 = 0 then [] else [g.rank (g.at_ s.coord (mine.set 0 (nth root 0 0)))])
    else if nth rel a 0 % 2 ^ r.round ≠ 0 ∨ !bit (nth rel a 0) then [] else [flip]
  else if (List.range a).any (fun b => nth own b 0 ≠ nth mine b 0) then []
  else if r.kind = 0 then
    if r.axis = 1 then
      (if nth own 0 0 ≠ nth mine 0 0 then []
       else ((List.range (g.axis 1).ext).filter (fun j => j ≠ nth mine 0 0)).map
         (fun j => g.rank (g.at_ s.coord (mine.set 0 j))))
    else if nth own a 0 % 2 ^ (r.round + 1) = nth mine a 0 % 2 ^ (r.round + 1) then [flip] else []
  else
    if r.axis = 1 then
      (if nth own 0 0 = nth mine 0 0 then [] else [g.rank (g.at_ s.coord (mine.set 0 (nth own 0 0)))])
    else if bit (nth own a 0) ≠ bit (nth mine a 0) ∧ nth own a 0 % 2 ^ r.round = nth mine a 0 % 2 ^ r.round then [flip]
    else []

/-- The ranks whose inputs fill the slots of a scatter chunk: at L0 chunks are moved, never added (R132), so a chunk that an EXPECT opens
with the engine's own contribution has no slot there (DEDUCED, log 35). -/
def State.slotSources (s : State) (r : Pitch) (chunk : Nat) (loaded : Bool) : List Nat :=
  if r.axis = 0 ∧ r.kind = 0 ∧ loaded then [] else s.sources r chunk

/-- The step section's EXPECT of a REDUCE's chunk names a buffer of the engine's own contribution. -/
def Pricking.opensOwn (pk : Pricking) (st : Nat) (p : Pin) : Bool :=
  (pk.stream 0 st).any (fun q => q.op = 2 ∧ q.pitch = p.pitch ∧ q.chunk = p.chunk ∧ q.arg ≠ 0x1FFF)

/-- The pitch is the last round of its group's scatter half, which leaves the final sum (R125, R129). -/
def Image.lastScatter (im : Image) (r : Pitch) : Bool :=
  let g := im.group r.group
  match (g.spanned.filter (fun a => (g.axis a).log2ext ≠ 0)).getLast? with
  | none => true
  | some a => r.axis = a && (a = 1 || r.round + 1 = (g.axis a).log2ext)

/-- The group rank of the engine at a coordinate. -/
def Image.rankOf (im : Image) (g c : Nat) : Nat := (im.group g).rank c

/-! ### Recording (R45, R49, R58, R95, R96) -/

/-- A scale history entry of the running step. -/
def State.recordScale (s : State) (t u : Nat) (v : Option Int) : State :=
  { s with scaleHist := s.scaleHist.put (unitKey t u) (histAdd (s.scaleHist.get [] (unitKey t u)) ⟨s.seq.step, v⟩) }

/-- A level history entry of the running step. -/
def State.recordLevel (s : State) (t u : Nat) (v : Option Int) : State :=
  { s with levelHist := s.levelHist.put (unitKey t u) (histAdd (s.levelHist.get [] (unitKey t u)) ⟨s.seq.step, v⟩) }

/-- A heat history entry of the running step. -/
def State.recordHeat (s : State) (t : Nat) (v : Option Int) : State :=
  { s with heatHist := s.heatHist.put t (histAdd (s.heatHist.get [] t) ⟨s.seq.step, v⟩) }

/-- The tensors that the step section's HEAT pins name, on any slice. -/
def Pricking.heatTensors (pk : Pricking) : List Nat :=
  ((List.range 8).flatMap (fun st => (pk.stream 0 st).filterMap (fun p =>
    if p.op = 7 then some p.pitch else none))).eraseDups

/-- Every heat of the tensor has been heard in the step (R96). -/
def State.heatHeard (s : State) (t : Nat) : Bool :=
  decide ((s.image.policyOf t).n ≤ sumNat (s.slices.map (fun sl => (sl.tensors.get default t).heard)))

/-- The heat entries of the step, at its end: c_t from Gmax where every heat of the tensor has been heard, nothing where Gmax
is 0, unsettled where a heat is absent (R95, R96). -/
def State.closeHeat (s : State) : State :=
  s.pricking.heatTensors.foldl (fun s t =>
    let sts := s.slices.map (fun sl => sl.tensors.get default t)
    let gmax := maxNat (sts.map (·.gmax))
    if !s.heatHeard t then s.recordHeat t none
    else if gmax = 0 then s
    else s.recordHeat t (some ((bitlen (gmax - 1) : Int) + s.heatExpRaw t))) s

end Sys2Proof.Machine
end

