-- ==== Sys2Proof/Machine/Sequencer.lean ====
section
/-! DEFINITION. The pin sequencers: which latched pin a stream executes next (R165), the occupancy of buffers, ports and units
(R176, R177), breaches and void execution (R201 to R203), and pins in flight (R172). -/

namespace Sys2Proof.Machine

/-! ### The pin that a row executes -/

/-- UNIT of a stream in a deviation entry (Table 11-9). -/
def streamUnit (st : Nat) : Nat := if st < 8 then st else if st = 8 then 33 else 32

/-- SOURCE of a stream in a cairn (Table 13-2). -/
def streamSource (st : Nat) : Nat := if st < 8 then sliceSource 0 st else if st = 8 then source 3 1 else source 3 0

/-- The front latched pin of stream `st`, where the engine runs, every due completion has taken effect (R165), and the pin
is of the kind the row executes. -/
def State.frontPin (s : State) (st : Nat) (kind : Pin → Bool) : Option Issue :=
  if s.isRunning && !s.seq.flights.any (fun f => f.done ≤ s.count) then
    match s.seq.issue.getD st [] with
    | [] => none
    | x :: _ => if kind x.pin then some x else none
  else none

/-- The front latched pin leaves the latch. -/
def State.unlatch (s : State) (st : Nat) : State :=
  { s with seq := { s.seq with issue := s.seq.issue.modify st List.tail } }

/-- The last pin that a slice's stream issued (Table 14-20). -/
def State.noteLast (s : State) (st : Nat) (x : Issue) : State :=
  if st < 8 ∧ !x.dyn then s.onSlice st (fun sl => { sl with lastPin := x.index % 2 ^ 16 }) else s

/-- A row that executes a pin of stream `st`: nothing happens where the stream's front pin is not of the row's kind. -/
def State.runPin (s : State) (st : Nat) (kind : Pin → Bool) (run : Issue → State → State) : State :=
  match s.frontPin st kind with
  | none => s
  | some x => run x ((s.unlatch st).noteLast st x)

/-- The latency of a pin in the running pricking. -/
def State.latency (s : State) (st : Nat) (p : Pin) : Nat := pinLatency s.image s.pricking st p

/-- The pitch record that a pin names. -/
def State.pitchOf (s : State) (p : Pin) : Pitch := s.pricking.pitchAt p.pitch

/-! ### Staging buffers (R176) -/

/-- Staging units for `b` bytes. -/
def unitsFor (b : Nat) : Nat := ceilDiv b 8192

/-- No buffer of the slice holds one of `n` units from `u`. -/
def Slice.unitsFree (sl : Slice) (u n : Nat) : Bool :=
  u + n ≤ 6144 && !sl.bufs.any (fun e => e.1 < u + n && u < e.1 + e.2.units)

/-- The buffer whose first unit is `u`. -/
def State.buf (s : State) (sl u : Nat) : Option Buf := (s.slice sl).bufs.find u

/-- A claim: the buffer becomes FILLING. -/
def State.claim (s : State) (sl u n : Nat) (c : Chunk) : State :=
  s.onSlice sl (fun x => { x with bufs := x.bufs.put u ⟨n, .filling, c, none, 0, false⟩ })

/-- A buffer that is still held takes a state and a content. -/
def State.setBuf (s : State) (sl u : Nat) (st : BufSt) (c : Chunk) : State :=
  match s.buf sl u with
  | none => s
  | some b => s.onSlice sl (fun x => { x with bufs := x.bufs.put u { b with st := st, chunk := c } })

/-- A pin claims the staging unit `u` as the first of a buffer. -/
def Pin.claims (p : Pin) (u : Nat) : Bool :=
  (p.op == 2 && p.buf == u) || (p.op == 6 && p.buf == u) || (p.op == 7 && !p.aux && p.buf == u) ||
    ((p.op == 9 || p.op == 10) && p.arg == u) || (p.op == 11 && p.chunk == 0 && p.buf == u)

/-- The end of the prusik answer windows that name a buffer, up to its next claim in the slice's stream (R150, R176). -/
def State.answerEnd (s : State) (sl u : Nat) : Nat :=
  let rest := (s.seq.issue.getD sl []).map (·.pin) ++ (s.pricking.stream s.seq.sec sl).drop (s.seq.pos.getD sl 0)
  maxNat (((rest.takeWhile (fun p => !p.claims u)).filter (fun p => p.isSend 2 && p.buf == u)).map (fun p =>
    s.seq.secOrigin + p.tick + 20 + crossing sl p.portq + pinWire s.image s.pricking p))

/-- A release: at once, or at the end of the prusik answer window that names the buffer (R150, R176). A buffer that another
pin is filling is not released. -/
def State.freeBuf (s : State) (sl u : Nat) : State :=
  match s.buf sl u with
  | none => s
  | some b =>
    let hold := Nat.max b.holdUntil (s.answerEnd sl u)
    if b.st = .filling then s
    else if hold > s.count then
      s.onSlice sl (fun x => { x with bufs := x.bufs.put u { b with releaseDue := true, holdUntil := hold } })
    else s.onSlice sl (fun x => { x with bufs := x.bufs.del u })

/-- Releases that waited for the end of an answer window. -/
def State.freeDue (s : State) : State :=
  { s with slices := s.slices.map (fun sl =>
      { sl with bufs := sl.bufs.filter (fun e => !(e.2.releaseDue && e.2.holdUntil ≤ s.count)) }) }

/-- A gather or broadcast chunk's receive buffer at its decision tick: MISSING where no chunk has been accepted (R176). -/
def State.judge (s : State) (sl u : Nat) : State :=
  let waits := fun (o : Opening) => o.buf == u && !o.scatter && !o.reduced && o.step == s.seq.step
  match s.buf sl u with
  | some b =>
    if (s.slice sl).opens.any waits ∧ b.st = .filling then
      (s.setBuf sl u .missing b.chunk).onSlice sl (fun x =>
        { x with opens := x.opens.map (fun o => if waits o then { o with reduced := true } else o) })
    else s
  | none => s

/-- A pin may read the buffer: it is READY or MISSING (R176). -/
def State.readable (s : State) (sl u : Nat) : Bool :=
  match s.buf sl u with
  | none => false
  | some b => b.st != .filling

/-- The chunk a readable buffer holds, or none where it is MISSING. -/
def State.chunkAt (s : State) (sl u : Nat) : Option Chunk :=
  match s.buf sl u with
  | some b => if b.st = .ready then some b.chunk else none
  | none => none

/-- A gather gap: GATHER-GAP and a MISSING cairn "result", once for each pitch and chunk of the step (R154). -/
def State.gap (s : State) (sl pitch chunk : Nat) : State :=
  if s.seq.gaps.contains (pitch, chunk) then s
  else
    let s := { s with seq := { s.seq with gaps := s.seq.gaps ++ [(pitch, chunk)] } }
    (s.dev ⟨0x0E, 0, sl, pitch, chunk, 0, 0⟩).raise 0x0D (sliceSource 1 sl) 1 pitch 1

/-- A pin of a gather or broadcast pitch that reads a MISSING buffer records the gap. -/
def State.gapIf (s : State) (sl : Nat) (p : Pin) : State :=
  let k := (s.pitchOf p).kind
  if (k = 1 ∨ k = 4) ∧ s.chunkAt sl p.buf = none ∧ s.readable sl p.buf then s.gap sl p.pitch p.chunk else s

/-! ### Units and ports (Table 5-8) -/

/-- The units that a pin of stream `st` holds for its latency. -/
def pinRes (st : Nat) (p : Pin) : List Res :=
  match p.op with
  | 1 => if p.aux then [.movers st] else []
  | 4 => [.movers st]
  | 5 => if p.aux || p.portq == 32 then [.movers st] else []
  | 6 => if p.wide then [] else [.selection st, .movers st]
  | 7 => if p.aux then [.selection st] else [.selection st, .movers st]
  | 8 => [.encoder st, .movers st]
  | 9 => [.encoder st]
  | 10 => [.decoder st]
  | 12 => if p.portq = 36 then [.dispatch st, .movers st] else [.dispatch st]
  | 13 => [.dispatch st, .movers st]
  | 14 => [.station p.portq]
  | _ => []

/-- A unit still executes. -/
def State.resBusy (s : State) (rs : List Res) : Bool :=
  s.seq.holds.any (fun h => rs.contains h.res && h.start ≤ s.count && s.count < h.stop)

/-- Units held for an interval from now; holds that have ended are forgotten. -/
def State.occupy (s : State) (rs : List Res) (start stop : Nat) : State :=
  { s with seq := { s.seq with
      holds := s.seq.holds.filter (fun h => s.count < h.stop) ++ rs.map (fun r => ⟨r, start, stop⟩) } }

/-- The other pins of the section that hold windows of the same pitch on the same port, as (tick, stream, index). -/
def State.samePitch (s : State) (x : Issue) : List (Nat × Nat × Nat) :=
  (List.range 8).flatMap (fun st => (indexed (s.pricking.stream x.sec st)).filterMap (fun e =>
    if e.2.pitch = x.pin.pitch ∧ e.2.portq = x.pin.portq ∧ (pinWindow s.image s.pricking st e.2).isSome
    then some (e.2.tick, st, e.1) else none))

/-- (tick, stream, index) in issue order. -/
def issueBefore (a b : Nat × Nat × Nat) : Bool :=
  a.1 < b.1 || (a.1 == b.1 && (a.2.1 < b.2.1 || (a.2.1 == b.2.1 && a.2.2 < b.2.2)))

/-- The port window of a pin that issues now: setup before a pitch's first window on the port, retry extension after its
last (Table 5-8). A dynamic pin has both (R190). -/
def State.windowOf (s : State) (st : Nat) (x : Issue) : Option Window :=
  match pinWindow s.image s.pricking st x.pin with
  | none => none
  | some (a, b) =>
    let me := (x.pin.tick, st, x.index)
    let others := s.samePitch x
    let isFirst := x.dyn || !others.any (fun o => issueBefore o me)
    let isLast := x.dyn || !others.any (fun o => issueBefore me o)
    let t := s.count
    some ⟨x.pin.pitch, x.pin.vc, t + a - (if isFirst then 6 else 0), t + a, t + b,
          t + b + (if isLast then retryExt s.pricking.head x.pin.portq else 0)⟩

/-- Two windows on one port overlap: their intervals within a pitch, with setup and extension between pitches. -/
def Window.clash (a b : Window) : Bool :=
  if a.pitch = b.pitch then a.start < b.stop && b.start < a.stop else a.lead < b.extEnd && b.lead < a.extEnd

/-- The port, or the die-to-die egress, that a pin needs is still held. -/
def State.portBusy (s : State) (st : Nat) (x : Issue) : Bool :=
  match s.windowOf st x with
  | some w => (s.port x.pin.portq).windows.any (fun v => v.clash w)
  | none =>
    if x.pin.portq = 36 ∧ (x.pin.op = 1 ∨ (x.pin.op = 12 ∧ x.pin.arg % 4 ≠ 0) ∨ x.pin.op = 13) then
      let a := s.count + 26
      let b := a + pinWire s.image s.pricking x.pin
      s.seq.holds.any (fun h => h.res == .egress st && h.start < b && a < h.stop)
    else false

/-- The pin's window taken on its port, or its transfer on the die-to-die egress. -/
def State.takePort (s : State) (st : Nat) (x : Issue) : State :=
  match s.windowOf st x with
  | some w => s.onPort x.pin.portq (fun p => { p with windows := p.windows.filter (fun v => s.count < v.extEnd) ++ [w] })
  | none =>
    if x.pin.portq = 36 ∧ x.pin.op ≠ 11 then
      s.occupy [.egress st] (s.count + 26) (s.count + 26 + pinWire s.image s.pricking x.pin)
    else s

/-- Element-adds of a width: a W8 add counts one half (Table 5-8). -/
def elemAdds (owidth n : Nat) : Nat := if owidth = 8 then ceilDiv n 2 else n

/-- Adds taken into the slice's reduction array in the current 64-tick span. -/
def State.addWork (s : State) (sl n : Nat) : State :=
  { s with seq := { s.seq with adds := s.seq.adds.modify sl (· + n) } }

/-- The array would be more than 8 ticks of adds behind (Table 5-12). -/
def State.arrayBehind (s : State) (sl n : Nat) : Bool := s.seq.adds.getD sl 0 + n > 196608 + 8 * 3072

/-! ### Breaches and void execution (R201 to R203) -/

/-- An OVERRUN: a cairn and a deviation entry; the condition is a row of Table 5-12. -/
def State.overrun (s : State) (st : Nat) (x : Issue) (cond : Nat) : State :=
  (s.raise 0x10 (streamSource st) 0 (x.sec * 2 ^ 28 + st * 2 ^ 24 + cond * 2 ^ 16) x.index).dev
    ⟨0x20, cond, streamUnit st, x.sec, x.index, 0, 0⟩

/-- In replay mode, the recorded OVERRUN of a pin, by its condition (Table 11-12). -/
def State.forcedOverrun (s : State) (st : Nat) (x : Issue) : Option Nat :=
  if s.req.replay then
    (s.req.replayDevs.find? (fun d => d.cause = 0x20 ∧ d.unit = streamUnit st ∧ d.object = x.sec ∧ d.index = x.index)).map
      (·.detail)
  else none

/-- In replay mode, the recorded STALL entry that covers a pin (R397, Table 11-12). -/
def State.forcedStall (s : State) (st : Nat) (x : Issue) : Option Dev :=
  if s.req.replay then
    s.req.replayDevs.find? (fun d => d.cause = 0x28 ∧ d.unit = streamUnit st ∧ d.object = x.sec ∧ d.index ≤ x.index ∧
      x.index < d.index + d.value)
  else none

/-- The first row of Table 5-12 that holds for a pin, from its three tests; 0 for none (R201). -/
def firstRow (busy notFree notReady : Bool) : Nat := if busy then 1 else if notFree then 2 else if notReady then 3 else 0

/-- A pin issues: it runs void where it breaches the contract, or where the replay record says so. `run` takes the state
and whether the pin is void. A discharged pin runs void with no OVERRUN (R397). -/
def State.issuePin (s : State) (st : Nat) (x : Issue) (cond : Nat) (run : State → Bool → State) : State :=
  if x.gone then run s true
  else match s.forcedStall st x with
  | some d => run (if d.index = x.index then s.dev d else s) true
  | none =>
    let cond := (s.forcedOverrun st x).getD cond
    if cond = 0 then run s false else run (s.overrun st x cond) true

/-! ### Flights (R172) -/

/-- A pin's result, to become visible at its issue tick plus `lat`. -/
def State.fly (s : State) (st : Nat) (x : Issue) (lat : Nat) (void : Bool) (upds : List Upd) : State :=
  { s with seq := { s.seq with flights := s.seq.flights ++
      [⟨s.count + lat, st, x.sec, x.index, x.pin, void, s.count, upds⟩] } }

/-- The RELEASE of a pin's source buffer, as a completion effect (R176). -/
def releaseUpd (st : Nat) (p : Pin) : List Upd :=
  if p.release then
    (if p.op = 2 then (if p.arg = noBuffer then [] else [.free st p.arg]) else [.free st p.buf])
  else []

/-- An occupied pin: units held for the latency, its result in flight. -/
def State.flyHeld (s : State) (st : Nat) (x : Issue) (void : Bool) (upds : List Upd) : State :=
  let lat := s.latency st x.pin
  let s := if void then s else s.occupy (pinRes st x.pin) s.count (s.count + lat)
  s.fly st x lat void upds

end Sys2Proof.Machine
end

