-- ==== Sys2Proof/Machine/Reduction.lean ====
section
/-! DEFINITION. Reduction (chapter Exact Reduction and the Collectives): acceptance of a chunk (R136, R504), the decisions on
missing and late inputs (Table 4-6), the carry store (R152, R153), the exact sum and its output (R55 to R64, R133, R158). -/

namespace Sys2Proof.Machine

/-! ### Tallies, slot table -/

/-- Add to what a pitch's cairns will count. -/
def State.tally (s : State) (kind sl pitch n : Nat) : State :=
  let k := (kind * 8 + sl) * 2 ^ 16 + pitch
  { s with seq := { s.seq with misses := s.seq.misses.put k (s.seq.misses.get 0 k + n) } }

/-- The key of an input slot in the slot table: pitch, chunk, rank, in static order (R156). -/
def slotKey (pitch chunk rank : Nat) : Nat := pitch * 2 ^ 40 + chunk * 2 ^ 16 + rank

/-- A CRC recorded for a slot; `second` appends the entry of a carried partial (R156). -/
def StepRec.slotCrc (r : StepRec) (k crc : Nat) (second : Bool) : StepRec :=
  let old := ((r.slots.find? (fun e => e.1 = k)).map (·.2)).getD []
  let new := if second then (if old = [] then [0, crc] else old ++ [crc]) else crc :: old.drop 1
  { r with slots := r.slots.filter (fun e => e.1 ≠ k) ++ [(k, new)] }

/-- A CRC recorded for a slot of the running step. -/
def State.slotCrc (s : State) (pitch chunk rank crc : Nat) (second : Bool) : State :=
  s.onRec (fun r => r.slotCrc (slotKey pitch chunk rank) crc second)

/-- A slot decided by another row of Table 4-6 than 1 or 2, once in a step (R155). -/
def State.missSlot (s : State) (sl pitch chunk rank : Nat) : State :=
  let k := (sl, slotKey pitch chunk rank)
  if s.seq.missed.contains k then s else { s with seq := { s.seq with missed := s.seq.missed ++ [k] } }

/-- The deviation causes of the rows 3 to 12: not SUPERSEDED, CARRIED-IN and DROPPED-AGE, and of CHECK only what an input failed. -/
def rowCause (cause detail : Nat) : Bool :=
  [0x01, 0x02, 0x03, 0x04, 0x06, 0x08, 0x09, 0x0A, 0x0C].contains cause || (cause == 0x0D && detail != 0x05 && detail != 0x08)

/-- A deviation entry of a slot (Table 11-10). -/
def State.slotDev (s : State) (sl cause detail pitch chunk rank value : Nat) : State :=
  let s := if rowCause cause detail then s.missSlot sl pitch chunk rank else s
  s.dev ⟨cause, detail, sl, pitch, chunk, rank, value⟩

/-- The unit word of a numerics counter of a pitch's chunk (R498). -/
def State.chunkUnit (s : State) (pitch chunk : Nat) : Nat :=
  match s.pricking.payload pitch chunk with
  | some e => unitWord e.tensor e.unit pitch
  | none => unitWord 0 0 pitch

/-- A saturation counter of Table 2-7 with its SATURATION entry, where the row enters one. -/
def State.saturated (s : State) (sl row detail pitch chunk n : Nat) : State :=
  if n = 0 then s
  else
    let u := match s.pricking.payload pitch chunk with | some e => e.unit | none => 0
    (s.bump (4 * row) (s.chunkUnit pitch chunk) n).dev ⟨0x18, detail, sl, pitch, u, 0, n⟩

/-! ### Acceptance (R136) -/

/-- How a chunk fails its checks: the error class of Table 13-1, or the exponent comparison. -/
inductive ChunkFault where
  | check
  | malformed
  | tableGen
  | scale
  deriving DecidableEq, Repr

/-- Cause and DETAIL of a chunk that fails (Table 11-10). -/
def ChunkFault.dev : ChunkFault → Nat × Nat
  | .check => (0x0D, 0x04)
  | .malformed => (0x0D, 0x0E)
  | .tableGen => (0x0D, 0x0F)
  | .scale => (0x0C, 0)

/-- The KIND a pitch's chunks carry (R504). -/
def Pitch.chunkKind (r : Pitch) : Nat :=
  if r.kind = 4 then 3 else if r.kind = 2 ∨ r.kind = 3 then 2 else if r.format = 0 then 1 else 0

/-- Trailer consistency (R504), STEP_TAG apart. `chunk` is the chunk, or a picot's round. -/
def Trailer.consistent (t : Trailer) (r : Pitch) (pitch chunk len : Nat) : Bool :=
  let k := r.chunkKind
  let nominal := if k = 2 then 512 else if k = 1 then r.bytes / rawElemBytes t.fmt else if k = 3 then r.bytes else r.elems
  t.pitch == pitch && t.chunk == chunk && t.kind == k
    && (if k = 0 then t.fmt == r.format else if k = 1 then t.fmt ≤ 3 else t.fmt == 0)
    && t.elems ≤ nominal
    && (if t.null then t.len == 0 else t.coded || t.len == elemBytes t.kind t.fmt t.elems)
    && t.len == len && t.resv == 0

/-- The table of a bank and generation in a context (R223). -/
def CtxSt.bankOf (c : CtxSt) (b g : Nat) : Option TableRec :=
  match nth c.banks b none with
  | some t => if t.gen = g then some t else none
  | none => none

/-- A coding context of a slice. -/
def State.ctx (s : State) (sl i : Nat) : CtxSt := (s.slice sl).ctxs.get CtxSt.reset i

/-- A coding context changed. -/
def State.onCtx (s : State) (sl i : Nat) (f : CtxSt → CtxSt) : State :=
  s.onSlice sl (fun x => { x with ctxs := x.ctxs.put i (f (x.ctxs.get CtxSt.reset i)) })

/-- A chunk of a pitch decoded on a slice to `u` bytes (R230); a fenced or disabled context decodes nothing. -/
def State.decodeOn (s : State) (sl pitch u : Nat) (bs : List Byte) : Except CodeFault (List Byte) :=
  match s.image.pitchCtx sl pitch with
  | none => .error .malformed
  | some i => decodeChunk (s.image.ctxEnt sl i).split u (s.ctx sl i).bankOf bs

/-- The chunk of a trailer and its payload. -/
def Trailer.chunkOf (t : Trailer) (step : Nat) (data : List Byte) : Chunk :=
  { kind := t.kind, fmt := t.fmt, exp := t.exp, null := t.null, dev := t.dev, carried := t.carried, prusik := t.prusik,
    wide := t.wide, result := t.result, routed := t.routed, coded := t.coded, elems := t.elems, step := step, cord := t.cord,
    data := data }

/-- The most negative code of the chunk's format stands in it (R41). -/
def Chunk.mostNegative (c : Chunk) : Bool :=
  c.kind == 0 && c.fmt ≠ 3 && c.ints.any (fun v => v < -(formatMax c.fmt : Int))

/-- Steps 1 to 5 of R136 on a chunk and its trailer: what failed, or the chunk with its payload uncoded where it is decoded
on arrival, and the step whose data it holds. `expect` is the pitch exponent to compare with, where there is one. -/
def State.checkChunk (s : State) (sl pitch chunk : Nat) (decode : Bool) (expect : Option Int) (whole : List Byte) :
    Except ChunkFault Chunk :=
  let r := s.pricking.pitchAt pitch
  let n := whole.length - 32
  let tb := whole.drop n
  let data := whole.take n
  let t := Trailer.parse tb
  let step := stepOfTag t.tag s.seq.step
  let scaled := fun (c : Chunk) => (show Except ChunkFault Chunk from
    match expect with
    | some e => if !c.null && c.kind = 0 && c.step = s.seq.step && c.exp ≠ e then .error .scale
                else if c.mostNegative then .error .check else .ok c
    | none => if c.mostNegative then .error .check else .ok c)
  if whole.length < 32 ∨ crc32c (data ++ tb.take 8 ++ tb.drop 12) ≠ t.crc then .error .check
  else if !t.consistent r pitch chunk n ∨ tagOrder t.tag s.seq.step = .later then .error .check
  else if t.coded ∧ !t.null ∧ decode then
    match s.decodeOn sl pitch (elemBytes t.kind t.fmt t.elems) data with
    | .error .malformed => .error .malformed
    | .error .tableGen => .error .tableGen
    | .ok u => scaled { t.chunkOf step u with coded := false }
  else scaled (t.chunkOf step data)

/-- The reports of a chunk that failed its checks: a CHUNK-CHECK cairn at once; MALFORMED and TABLE-GEN are counted for the
pitch's cairn (R230) and for the context (Table 6-9). -/
def State.chunkFailed (s : State) (sl pitch chunk rank : Nat) (f : ChunkFault) : State :=
  let ctx := (s.image.pitchCtx sl pitch).getD 0
  match f with
  | .check => s.raise 0x04 (sliceSource 4 sl) 0 (pitch + rank * 2 ^ 16) chunk
  | .malformed => (s.tally 1 sl pitch 1).bump (0x80 + 4 * 6) (unitWord 0 ctx pitch) 1
  | .tableGen => (s.tally 2 sl pitch 1).bump (0x80 + 4 * 7) (unitWord 0 ctx pitch) 1
  | .scale => s

/-! ### Late inputs and the carry store (Table 4-6, rows 8 to 12) -/

/-- A late input that passed its checks: carried, or dropped with its cause (rows 9 to 12). A null partial is never held. -/
def State.lateInput (s : State) (sl pitch chunk : Nat) (i : Input) : State :=
  let r := s.pricking.pitchAt pitch
  let x := s.slice sl
  if !r.carry ∨ r.kind ≠ 0 ∨ s.image.config.gate then s.slotDev sl 0x08 0 pitch chunk i.rank 0
  else if i.chunk.null then s
  else if x.carry.any (fun c => c.pitch = pitch ∧ c.chunk = chunk ∧ c.input.rank = i.rank) then
    s.slotDev sl 0x09 0 pitch chunk i.rank 0
  else if x.carry.length ≥ nth s.image.config.carry sl 0 then s.slotDev sl 0x0A 0 pitch chunk i.rank 0
  else (s.slotDev sl 0x06 0 pitch chunk i.rank 0).onSlice sl (fun x => { x with carry := x.carry ++ [⟨pitch, chunk, i⟩] })

/-! ### Arrival at an opened chunk -/

/-- An opening of a slice changed. -/
def State.onOpen (s : State) (sl pitch chunk : Nat) (f : Opening → Opening) : State :=
  s.onSlice sl (fun x => { x with opens := x.opens.map (fun o =>
    if o.pitch = pitch ∧ o.chunk = chunk then f o else o) })

/-- The opening of a pitch and chunk on a slice. -/
def State.opening (s : State) (sl pitch chunk : Nat) : Option Opening :=
  (s.slice sl).opens.find? (fun o => o.pitch = pitch ∧ o.chunk = chunk)

/-- A duplicate input is discarded and counted (R148, R497). -/
def State.duplicate (s : State) : State := s.bump 0x398 noUnit 1

/-- A prusik copy arrives (R149, rows 3 and 7). -/
def State.acceptCopy (s : State) (sl : Nat) (o : Opening) (src crc : Nat) (c : Chunk) : State :=
  let r := s.pricking.pitchAt o.pitch
  match o.slots.find? (fun x => match s.pricking.prusikAt r o.chunk x.rank with
      | some e => e.coord = src | none => false) with
  | none => s.duplicate
  | some x =>
    if c.step ≠ s.seq.step ∨ o.step ≠ s.seq.step then s.duplicate
    else if o.final then s.slotDev sl 0x04 0 o.pitch o.chunk x.rank 0
    else if x.copy.isSome then s.duplicate
    else s.onOpen sl o.pitch o.chunk (fun o => { o with slots := o.slots.map (fun y =>
      if y.rank = x.rank then { y with copy := some ⟨x.rank, crc, c, false⟩ } else y) })

/-- An original input of a scatter chunk arrives and has passed its checks (Table 4-6, R148). -/
def State.acceptInput (s : State) (sl : Nat) (o : Opening) (i : Input) : State :=
  let cur := i.chunk.step = s.seq.step ∧ o.step = s.seq.step
  let p := o.pitch
  let k := o.chunk
  if ¬cur then s.lateInput sl p k i
  else if o.inputs.any (fun x => x.rank = i.rank ∧ !x.carried) then s.duplicate
  else if !o.reduced then
    let r := s.pricking.pitchAt p
    (s.onOpen sl p k (fun o => { o with inputs := o.inputs ++ [i] })).addWork sl
      (if i.chunk.null then 0 else elemAdds r.owidth i.chunk.elems)
  else
    match o.slots.find? (fun x => x.rank = i.rank) with
    | some x =>
      if o.final then
        (if x.copy.isSome then s.slotDev sl 0x05 0 p k i.rank 0
         else if x.original.isSome then s.duplicate else s.lateInput sl p k i)
      else if x.original.isSome then s.duplicate
      else s.onOpen sl p k (fun o => { o with slots := o.slots.map (fun y =>
        if y.rank = i.rank then { y with original := some i } else y) })
    | none => s.lateInput sl p k i

/-- An original chunk of a gather or broadcast pitch that is not taken: late (row 9), superseded by a prusik copy (row 3), or a
duplicate. -/
def State.refuseWhole (s : State) (sl : Nat) (o : Opening) (rank : Nat) : State :=
  if o.inputs.any (·.chunk.prusik) then s.slotDev sl 0x05 0 o.pitch o.chunk rank 0
  else if o.inputs ≠ [] then s.duplicate
  else s.slotDev sl 0x08 0 o.pitch o.chunk rank 0

/-- A chunk of a gather or broadcast pitch arrives and has passed its checks: its buffer becomes READY (R176), or it is late
(rows 7 and 9), superseded or a duplicate. -/
def State.acceptWhole (s : State) (sl : Nat) (o : Opening) (i : Input) : State :=
  let cur := i.chunk.step = s.seq.step ∧ o.step = s.seq.step
  let judged := o.final ∨ (o.slots = [] ∧ (o.reduced ∨ s.seq.closed.contains o.pitch))
  if i.chunk.prusik ∧ (¬cur ∨ o.slots = []) then s.duplicate
  else if i.chunk.prusik ∧ o.final then s.slotDev sl 0x04 0 o.pitch o.chunk i.rank 0
  else if i.chunk.prusik ∧ o.inputs ≠ [] then s.duplicate
  else if ¬cur then s.slotDev sl 0x08 0 o.pitch o.chunk i.rank 0
  else if o.inputs ≠ [] ∨ judged then s.refuseWhole sl o i.rank
  else (s.setBuf sl o.buf .ready { i.chunk with prusik := false, dev := i.chunk.dev || i.chunk.prusik }).onOpen sl o.pitch o.chunk
    (fun o => { o with inputs := [i], reduced := true })

/-- A whole chunk, payload and trailer, reaches the slice whose EXPECT waits for it; `src` is the sender's coordinate. -/
def State.acceptChunk (s : State) (sl : Nat) (o : Opening) (src : Nat) (whole : List Byte) : State :=
  let r := s.pricking.pitchAt o.pitch
  let t := Trailer.parse (whole.drop (whole.length - 32))
  let rank := s.image.rankOf r.group src
  if o.void then s
  else
    match s.checkChunk sl o.pitch o.chunk (o.scatter || o.coded) (if o.scatter then s.pitchExp o.pitch o.chunk else none) whole with
    | .error f =>
      let s := s.chunkFailed sl o.pitch o.chunk rank f
      let cur := tagOrder t.tag s.seq.step = .same ∧ o.step = s.seq.step
      if o.scatter ∧ cur ∧ !o.reduced then
        s.onOpen sl o.pitch o.chunk (fun o => { o with fails := o.fails ++ [(rank, f.dev.1, f.dev.2)] })
      else s.slotDev sl f.dev.1 f.dev.2 o.pitch o.chunk rank 0
    | .ok c =>
      if o.scatter then
        (if c.prusik then s.acceptCopy sl o src t.crc c else s.acceptInput sl o ⟨rank, t.crc, c, false⟩)
      else s.acceptWhole sl o ⟨rank, t.crc, c, false⟩

/-! ### The carried partials of an EXPECT (R152, R153) -/

/-- A carried partial rescaled to the pitch exponent, with the elements that saturated and those that lost bits (R153). It
is held as 32-bit integers, which its elements fit. -/
def rescaleChunk (c : Chunk) (e : Int) : Chunk × Nat × Nat :=
  let rs := c.ints.map (fun v => rescale v (c.exp - e))
  ({ c with fmt := 0xB, exp := e, data := packElems 0xB (rs.map (·.1)), elems := rs.length,
            cord := cordOf c.kind c.routed c.null (rs.map (·.1)) },
   (rs.filter (·.2.1)).length, (rs.filter (·.2.2)).length)

/-- The carried partials of a chunk leave the carry store: too old, or added as one more input (R152). -/
def State.takeCarried (s : State) (sl pitch chunk : Nat) : State × List Input :=
  let r := s.pricking.pitchAt pitch
  let mine := (s.slice sl).carry.filter (fun c => c.pitch = pitch ∧ c.chunk = chunk)
  let s := s.onSlice sl (fun x => { x with carry := x.carry.filter (fun c => ¬(c.pitch = pitch ∧ c.chunk = chunk)) })
  mine.foldl (fun (a : State × List Input) c =>
    let age := s.seq.step - c.input.chunk.step
    if age > r.ageMax then (a.1.slotDev sl 0x0B 0 pitch chunk c.input.rank age, a.2)
    else
      let e := (s.pitchExp pitch chunk).getD ((a.2.head?.map (·.chunk.exp)).getD c.input.chunk.exp)
      let q := rescaleChunk c.input.chunk e
      let s := a.1.saturated sl 2 1 pitch chunk q.2.1
      let s := s.slotDev sl 0x07 0 pitch chunk c.input.rank q.2.2
      (s.slotCrc pitch chunk c.input.rank c.input.crc true, a.2 ++ [⟨c.input.rank, c.input.crc, q.1, true⟩])) (s, [])

/-! ### The sum and its output (R55 to R64, R133, R158) -/

/-- Element-wise sum of integer lists, absent elements 0 (R144). -/
def addInts : List Int → List Int → List Int
  | [], ys => ys
  | xs, [] => xs
  | x :: xs, y :: ys => (x + y) :: addInts xs ys

/-- The residue of a lane value (R61). -/
def residue (v : Int) : Nat := (v % 4095).toNat

/-- What an opened chunk's inputs add up to. -/
structure Formed where
  /-- The output, none where a check discards it. -/
  chunk : Option Chunk
  /-- Elements narrowed, and lane sums saturated (R56). -/
  narrowed : Nat
  laneSat : Nat
  /-- A CORDONNET error (R64). -/
  cordErr : Bool
  deriving Repr

/-- The output chunk of inputs of one chunk of a pitch, under exponent `e`; `dev` says that an input was missing, replaced or
carried. -/
def formOutput (r : Pitch) (step : Nat) (e : Int) (wide last dev : Bool) (own : Option Chunk) (ins : List Input) : Formed :=
  let cs := (match own with | some c => [c] | none => []) ++ ins.map (·.chunk)
  let dev := dev || cs.any (·.dev) || ins.any (·.carried) || cs.any (·.prusik)
  let live := cs.filter (fun c => !c.null)
  let base : Chunk :=
    { kind := 0, fmt := r.owidth, exp := e, null := true, dev := dev, carried := ins.any (·.carried), prusik := false,
      wide := wide, result := last, routed := r.routed, coded := false,
      elems := r.elems, step := step, cord := 0, data := [] }
  if live = [] then ⟨some base, 0, 0, false⟩
  else
    let sum := live.foldl (fun a c => addInts a c.ints) []
    let lanes := sum.map (satTo (if r.owidth = 8 then 24 else 48))
    let laneSat := (lanes.filter (·.2)).length
    let cordErr := r.routed && sumNat (live.map (·.cord)) % 2 ^ 64 ≠ cordonnet (lanes.map (·.1))
    let out := lanes.map (fun v => satTo (formatBits r.owidth) v.1)
    let narrowed := (out.filter (·.2)).length
    let vs := out.map (·.1)
    if cordErr then ⟨none, 0, laneSat, true⟩
    else ⟨some { base with null := false, elems := vs.length, data := packElems r.owidth vs, dev := dev || narrowed > 0 || laneSat > 0,
                           cord := cordOf 0 r.routed false vs }, narrowed, laneSat, false⟩

/-- The verdict on an input slot at its REDUCE pin. -/
inductive Verdict where
  /-- Added: row 1 or 2, or 4 in replay. -/
  | add (i : Input)
  /-- Not added: the cause and DETAIL entered. -/
  | missing (cause detail : Nat)
  /-- Waits for its prusik copy; the check that its input failed. -/
  | pending (fail : Option (Nat × Nat))
  deriving Repr

/-- The entry of the replay record that a slot's decision left, by cause (Table 11-12). -/
def State.forcedSlot (s : State) (pitch chunk rank cause : Nat) : Bool :=
  s.req.replayDevs.any (fun d => d.cause = cause ∧ d.object = pitch ∧ d.index = chunk ∧ d.rank = rank)

/-- The verdict on the slot of a source rank (Table 4-6). In replay mode it is the recorded one. -/
def State.verdict (s : State) (o : Opening) (rank : Nat) : Verdict :=
  let r := s.pricking.pitchAt o.pitch
  let inp := o.inputs.find? (fun i => i.rank = rank ∧ !i.carried)
  let fail := o.fails.find? (fun f => f.1 = rank)
  let rec_ := fun c => s.req.replay && s.forcedSlot o.pitch o.chunk rank c
  if rec_ 0x01 then .missing 0x01 0
  else if rec_ 0x0C then .missing 0x0C 0
  else if rec_ 0x0D then .missing 0x0D ((fail.map (·.2.2)).getD 0x04)
  else
    match inp with
    | some i => .add i
    | none =>
      let why := fail.map (·.2)
      match s.pricking.prusikAt r o.chunk rank with
      | some e => if e.coord ≠ s.coord ∧ !s.relaxed then .pending why
                  else (match why with | some w => .missing w.1 w.2 | none => .missing 0x01 0)
      | none => match why with | some w => .missing w.1 w.2 | none => .missing 0x01 0

/-- The exponent of the output: the pitch exponent, else the one that every non-null input carries (R47); none where they
do not agree. Null-only inputs give the own contribution's, else 0 (R157). -/
def State.outExp (s : State) (o : Opening) (ins : List Input) : Option Int :=
  match s.pitchExp o.pitch o.chunk with
  | some e => some e
  | none =>
    let es := (((match o.own with | some c => [c] | none => []) ++ (ins.filter (fun i => !i.carried)).map (·.chunk)).filter
      (fun c => !c.null)).map (·.exp)
    match es with
    | [] => some ((o.own.map (·.exp)).getD 0)
    | e :: rest => if rest.all (· = e) then some e else none

/-- The output of an opened chunk formed, with its counters, entries and error reports; `missing` says that a slot was. -/
def State.formChunk (s : State) (sl : Nat) (o : Opening) (ins : List Input) (missing : Bool) : State × Option Chunk :=
  let r := s.pricking.pitchAt o.pitch
  let ents := s.pricking.payload o.pitch o.chunk
  let wide := match ents with | some e => e.set == 1 | none => (o.own.map (·.wide)).getD false
  let last := s.image.lastScatter r
  let agree := s.outExp o ins
  -- R47: inputs that do not agree are missing, every one of them
  let drop := agree = none
  let s := if drop then (ins.filter (fun i => !i.carried ∧ !i.chunk.null)).foldl (fun s i =>
      (s.slotDev sl 0x0C 0 o.pitch o.chunk i.rank 0).slotCrc o.pitch o.chunk i.rank 0 false) s else s
  let ins := if drop then ins.filter (fun i => i.carried ∨ i.chunk.null) else ins
  let own := if drop then o.own.filter (·.null) else o.own
  let f := formOutput r s.seq.step (agree.getD 0) wide last (missing || drop || o.ownMissing) own ins
  let s := s.saturated sl 2 1 o.pitch o.chunk f.narrowed
  let s := s.saturated sl 3 2 o.pitch o.chunk f.laneSat
  let s := if f.cordErr then
      (s.raise 0x05 (sliceSource 4 sl) 0 o.pitch o.chunk).slotDev sl 0x0D 0x05 o.pitch o.chunk 0 0 else s
  (s, f.chunk)

/-- A prusik request for a slot waits to be sent on the port toward the source, on VC1 (R149, R323). -/
def State.prusikAsk (s : State) (r : Pitch) (pitch : Nat) (e : PrusikEnt) : State :=
  match s.route s.coord e.coord with
  | none => s
  | some (port, _) =>
    let h : PktHead := { (default : PktHead) with
      vc := 1, type := 3, group := r.group, pitch := e.spitch, chunk := e.schunk, src := s.coord, dst := e.coord
      seq := s.seq.step % 2 ^ 16, first := true, last := true }
    s.onPort port (fun p => { p with prusik := p.prusik ++ [(s.count + 8, packetBytes h [] (leBytes 2 pitch ++ leBytes 3 e.chunk ++ zeros 3))] })

/-- The judgement of a chunk's slots at its REDUCE (R148, R151): the inputs added, and whether any is missing or pending. -/
def State.judgeSlots (s : State) (sl : Nat) (o : Opening) : State × List Input × Bool × List InSlot :=
  let r := s.pricking.pitchAt o.pitch
  (s.slotSources r o.chunk o.loaded).foldl (fun a rank =>
    let s := a.1
    match s.verdict o rank with
    | .add i => (s.slotCrc o.pitch o.chunk rank i.crc false, a.2.1 ++ [i], a.2.2.1, a.2.2.2)
    | .missing c d =>
      ((s.slotDev sl c d o.pitch o.chunk rank 0).slotCrc o.pitch o.chunk rank 0 false, a.2.1, true, a.2.2.2)
    | .pending w =>
      let s := match s.pricking.prusikAt r o.chunk rank with | some e => s.prusikAsk r o.pitch e | none => s
      (s.missSlot sl o.pitch o.chunk rank, a.2.1, a.2.2.1, a.2.2.2 ++ [⟨rank, none, none, w⟩]))
    (s, o.inputs.filter (·.carried), false, [])

/-- The final decision on a slot that waited for its prusik copy (rows 3 to 5). -/
def State.settleSlot (s : State) (sl : Nat) (o : Opening) (x : InSlot) : State × List Input × Bool :=
  let p := o.pitch
  let k := o.chunk
  match x.copy, x.original with
  | some c, orig =>
    let s := (s.slotDev sl 0x02 0 p k x.rank 0).slotCrc p k x.rank c.crc false
    (if orig.isSome then s.slotDev sl 0x05 0 p k x.rank 0 else s, [c], false)
  | none, some i => ((s.slotDev sl 0x03 0 p k x.rank 0).slotCrc p k x.rank i.crc false, [i], false)
  | none, none =>
    let w := x.fail.getD (0x01, 0)
    (((s.slotDev sl 0x03 0 p k x.rank 0).slotDev sl w.1 w.2 p k x.rank 0).slotCrc p k x.rank 0 false, [], true)

/-- The output of an opened chunk at its prusik cutoff (R149). -/
def State.finalise (s : State) (sl : Nat) (o : Opening) : State :=
  let a := o.slots.foldl (fun (a : State × List Input × Bool) x =>
    let r := a.1.settleSlot sl o x
    (r.1, a.2.1 ++ r.2.1, a.2.2 || r.2.2)) (s, o.inputs, false)
  let dev := a.2.2 || (o.slots.any (fun x => x.copy.isSome)) || (s.slotSources (s.pricking.pitchAt o.pitch) o.chunk o.loaded).any (fun r =>
    !(a.2.1.any (fun i => i.rank = r)))
  let f := a.1.formChunk sl o a.2.1 dev
  let s := f.1.onOpen sl o.pitch o.chunk (fun o => { o with final := true })
  match f.2 with
  | some c => s.setBuf sl o.buf .ready c
  | none => s.setBuf sl o.buf .missing default

end Sys2Proof.Machine
end

