-- ==== Sys2Proof/Machine/Coder.lean ====
section
/-! DEFINITION. The coder's pins (chapter Daiviril Lossless Coding): encoding against a context (R222, R232), the code tables of
carried contexts and their installs (R219 to R226), and the sweeps of a surveyed object (R228, R229). -/

namespace Sys2Proof.Machine

/-- Counter offset of row `i` of Table 6-9. -/
def codingCounter (i : Nat) : Nat := 0x80 + 4 * i

/-! ### Encoding (R222) -/

/-- A block as an encoder writes it, and which row of Table 6-9 counts it: 0 coded, 1 raw not shorter, 2 raw deadline, 3 raw no
table; and the encoder cycles it takes. -/
def encodeBlock (split : Nat) (bank : Option (Nat × TableRec)) (left : Nat) (bs : List Byte) : List Byte × Nat × Nat :=
  match bank with
  | none => (rawBlock split 0 bs, 3, 0)
  | some (b, t) =>
    let cyc := encodeCycles t bs
    if cyc > left then (rawBlock split 0 bs, 2, cyc)
    else match codedBlock t b bs with
      | some x => (x, 0, cyc)
      | none => (rawBlock split 0 bs, 1, cyc)

/-- The blocks of a chunk coded in order, within the encoder cycles that the pin's latency leaves (R175, R232). -/
def encodeBlocks (split : Nat) (bank : Option (Nat × TableRec)) : Nat → List (List Byte) → List (List Byte × Nat)
  | _, [] => []
  | left, b :: bs =>
    let e := encodeBlock split bank left b
    (e.1, e.2.1) :: encodeBlocks split bank (left - e.2.2) bs

/-- The current bank of a context, where it codes: not disabled (R477), and with a current bank (R222). -/
def CtxSt.coding (c : CtxSt) : Option (Nat × TableRec) :=
  if c.disable then none
  else match c.cur with
    | some b => (nth c.banks b none).map (fun t => (b, t))
    | none => none

/-- The counts of blocks written by a coder pin. -/
def codedCounts (ctx pitch : Nat) (raws : List (List Byte)) (bs : List (List Byte × Nat)) : List Upd :=
  let rows := (List.range 4).filterMap (fun i =>
    let n := (bs.filter (fun b => b.2 = i)).length
    if n = 0 then none else some (Upd.count (codingCounter i) (unitWord 0 ctx pitch) n))
  if bs = [] then [] else
    rows ++ [.count (codingCounter 4) (unitWord 0 ctx pitch) (sumNat (raws.map List.length)),
             .count (codingCounter 5) (unitWord 0 ctx pitch) (sumNat (bs.map (fun b => b.1.length)))]

/-- This engine builds the tables of the context (R224). -/
def State.isRoot (s : State) (c : CtxEnt) : Bool := s.image.rankOf c.group s.coord == c.root

/-- Bytes coded against a context of a slice by a pin of latency `lat`: the state with the root's histogram (R224), the coded
bytes, and the counts. -/
def State.encodeWith (s : State) (sl i pitch lat : Nat) (bs : List Byte) : State × List Byte × List Upd :=
  let ent := s.image.ctxEnt sl i
  let raws := pieces 4096 bs
  let out := encodeBlocks ent.split (s.ctx sl i).coding (6 * (lat - 6)) raws
  let s := if !ent.surveyed ∧ s.isRoot ent then
      s.onCtx sl i (fun c => { c with hist := raws.foldl (addHistogram ent.split) c.hist }) else s
  (s, out.flatMap (·.1), codedCounts i pitch raws out)

/-- The result of an ENCODE of a raw chunk (R222). -/
def State.encodeChunk (s : State) (sl pitch lat : Nat) (c : Chunk) : State × Chunk × List Upd :=
  match s.image.pitchCtx sl pitch with
  | none => (s, c, [])
  | some i =>
    let e := s.encodeWith sl i pitch lat c.data
    (e.1, { c with coded := true, data := e.2.1 }, e.2.2)

/-! ### Installs (R219 to R221) -/

/-- An install refused: TABLE-GEN, case 1 to 3 (R220). -/
def State.refuseInstall (s : State) (sl i case_ : Nat) : State :=
  (s.raise 0x0F (sliceSource 5 sl) 0 (i + sl * 2 ^ 8) case_).bump (codingCounter 7) (unitWord 0 i 0) 1

/-- A record delivered to a context's pending slot, or none where nothing came (R219 to R221, R225). -/
def State.install (s : State) (sl i : Nat) (rec_ : Option (List Byte)) : State :=
  match rec_ with
  | none => (s.onCtx sl i (fun c => { c with missed := c.missed + 1 })).bump (codingCounter 8) (unitWord 0 i 0) 1
  | some bs =>
    match TableRec.parse bs with
    | none => s.refuseInstall sl i 3
    | some t =>
      if (s.ctx sl i).pending.isSome then s.refuseInstall sl i 1
      else (s.hbmWrite ((s.image.ctxEnt sl i).banksBase + 4096) bs).onCtx sl i (fun c => { c with pending := some t })

/-- The installs of a slice take effect at a step origin (R219 to R221). -/
def State.takeInstall (s : State) (sl i : Nat) : State :=
  let c := s.ctx sl i
  let base := (s.image.ctxEnt sl i).banksBase
  let s := s.onCtx sl i (fun c => { c with pending := none })
  match c.pending with
  | some t =>
    let b := t.gen % 4
    if c.cur = some b then (s.onCtx sl i (fun c => { c with cur := none })).refuseInstall sl i 2
    else (s.hbmWrite (base + 1024 * b) t.bytes).onCtx sl i (fun c =>
      { c with banks := c.banks.set b (some t), cur := some b, gen := t.gen, missed := 0 })
  | none => if c.missed ≥ 4 then s.onCtx sl i (fun c => { c with cur := none }) else s

/-- Every context of every slice at a step origin. -/
def State.takeInstalls (s : State) : State :=
  (List.range 8).foldl (fun s sl => ((s.slice sl).ctxs.map (·.1)).foldl (fun s i => s.takeInstall sl i) s) s

/-- The carried contexts of a slice that the CODING section lists. -/
def Image.carriedOn (im : Image) (sl : Nat) : List Nat :=
  (List.range (nth im.coding sl default).ctxs.length).filter (fun i => !(im.ctxEnt sl i).surveyed)

/-- The tables of an image that stand in HBM are written to their places (Table 12-7, phase 5): the schedule table (R271, R275), and the
initial record of each carried context for which `fresh` holds, in slot 0 of its bank area (R226). -/
def State.placeTables (s : State) (im : Image) (fresh : Nat → Nat → Bool) : State :=
  let s := s.hbmWrite im.optim.schedBase (im.sched.flatMap (leBytes 4))
  (List.range 8).foldl (fun s sl =>
    (nth im.coding sl default).initial.foldl (fun (s : State) (e : Nat × List Byte) =>
      let ent := im.ctxEnt sl e.1
      if !ent.surveyed && ent.init && fresh sl e.1 then s.hbmWrite ent.banksBase (e.2.take 520) else s) s) s

/-- Carried contexts at launch: slot 0 of the bank area installed where INIT is set (R226). -/
def State.launchCtx (s : State) : State :=
  (List.range 8).foldl (fun s sl =>
    (s.image.carriedOn sl).foldl (fun s i =>
      let ent := s.image.ctxEnt sl i
      let t := if ent.init then TableRec.parse (s.hbmRead ent.banksBase 520) else none
      let dis := (s.ctx sl i).disable
      s.onCtx sl i (fun _ => match t with
        | some t => if t.gen = 0 then { CtxSt.reset with banks := [some t, none, none, none], cur := some 0, disable := dis }
                    else { CtxSt.reset with disable := dis }
        | none => { CtxSt.reset with disable := dis })) s) s

/-- The context of a slice whose pending slot a descriptor names (R225). -/
def State.installTarget (s : State) (sl : Nat) (md : MDesc) : Option Nat :=
  if md.kind = 1 ∧ md.length = 520 then
    (s.image.carriedOn sl).find? (fun i => (s.image.ctxEnt sl i).banksBase + 4096 = md.base)
  else none

/-! ### SURVEY of a carried context (R224) -/

/-- The codes of a histogram: one for each code of the split (R214, R216). -/
def tableOf (gen split : Nat) (hist : List (List Nat)) : TableRec :=
  ⟨gen, split, (List.range (splitCodes split)).map (fun c => buildLengths (nth hist c (List.replicate 256 0)))⟩

/-- The table that an AUX SURVEY of a carried context builds (R224). -/
def CtxSt.nextTable (c : CtxSt) (split : Nat) : TableRec :=
  tableOf (if c.cur.isSome then (c.gen + 1) % 64 else 0) split c.hist

/-- The chunk that holds a record in TBUF: a broadcast buffer as bytes. -/
def recordChunk (step : Nat) (bs : List Byte) : Chunk :=
  { nullChunk 3 0 bs.length step false false with null := false, data := bs }

/-! ### Surveyed objects (R228, R229) -/

/-- What a SURVEY pin of a surveyed context works on. -/
structure SurveyPin where
  ctx : Nat
  split : Nat
  /-- Survey chunk size, source base and length, object base. -/
  c : Nat
  src : Nat
  ulen : Nat
  dst : Nat
  /-- Chunks and blocks. -/
  nc : Nat
  nb : Nat
  deriving DecidableEq, Repr

/-- The object of a SURVEY pin. -/
def State.surveyPin (s : State) (sl : Nat) (p : Pin) : SurveyPin :=
  let i := (nth s.image.coding sl default).objectMap.get 0 p.pitch % 128
  let ent := s.image.ctxEnt sl i
  let a := s.pricking.mdescAt p.arg
  let b := s.pricking.mdescAt (p.arg + 1)
  { ctx := i, split := ent.split, c := ent.bytes, src := a.base, ulen := a.length, dst := b.base,
    nc := ceilDiv a.length ent.bytes, nb := ceilDiv a.length 4096 }

/-- Which sweep a pin belongs to: 0 histogram, 1 size, 2 encode; and its index in the sweep. -/
def SurveyPin.sweep (v : SurveyPin) (chunk : Nat) : Nat × Nat :=
  if chunk < v.nc then (0, chunk) else if chunk < 2 * v.nc then (1, chunk - v.nc) else (2, chunk - 2 * v.nc)

/-- The blocks whose first byte lies in source bytes `[a, b)`: their index and bytes. -/
def State.surveyBlocks (s : State) (v : SurveyPin) (a b : Nat) : List (Nat × List Byte) :=
  ((List.range v.nb).filter (fun i => a ≤ 4096 * i ∧ 4096 * i < b)).map (fun i =>
    (i, s.hbmRead (v.src + 4096 * i) (Nat.min 4096 (v.ulen - 4096 * i))))

/-- Every block is raw: the histogram sweep failed (R229). -/
def SurveySt.blockOf (u : SurveySt) (split : Nat) (bs : List Byte) : List Byte × Bool :=
  match u.table with
  | none => (rawBlock split 0 bs, true)
  | some t =>
    if u.flat then (rawBlock split t.gen bs, true)
    else match codedBlock t 0 bs with
      | some x => (x, false)
      | none => (rawBlock split t.gen bs, true)

/-- Index entries appended for blocks of the sizes given (R227, R228). -/
def SurveySt.addSizes (u : SurveySt) (nb : Nat) (sizes : List Nat) : SurveySt :=
  sizes.foldl (fun u z =>
    let off := match u.index.getLast? with | some e => e.1 + e.2 | none => 1024 + 8 * nb
    { u with index := u.index ++ [(off, z)] }) u

/-- The 8 bytes of an index entry. -/
def indexBytes (e : Nat × Nat) : List Byte := leBytes 8 (e.1 % 2 ^ 40 + e.2 % 2 ^ 14 * 2 ^ 40)

/-- The table record of an object whose histogram sweep has ended. -/
def SurveySt.record (u : SurveySt) : List Byte := match u.table with | some t => t.bytes | none => []

/-- What an ended size sweep writes: the index entries from `first` on, and, where every block is sized, the header. -/
def surveyWrites (v : SurveyPin) (u : SurveySt) (first : Nat) : List Upd :=
  let idx := u.index.flatMap indexBytes
  let dl := sumNat (u.index.map (·.2))
  Upd.mem (v.dst + 1024 + 8 * first) ((u.index.drop first).flatMap indexBytes) ::
    (if u.index.length = v.nb then [Upd.mem v.dst (objectHeader v.ulen v.nb dl u.record idx)] else [])

/-- The generation of the object that is to replace the one at `dst` (R228). -/
def State.nextObjectGen (s : State) (dst : Nat) : Nat :=
  match TableRec.parse (s.hbmRead (dst + 64) 520) with
  | some t => (t.gen + 1) % 64
  | none => 0

/-- A histogram pin of a surveyed object: its survey state, and what it writes. -/
def State.surveyHist (s : State) (v : SurveyPin) (u : SurveySt) (k : Nat) (aux void : Bool) : SurveySt × List Upd :=
  let u := if u.table.isSome then default else u
  let u := if void then { u with flat := true }
    else { u with hist := (s.surveyBlocks v (k * v.c) ((k + 1) * v.c)).foldl (fun h b => addHistogram v.split h b.2) u.hist }
  if aux then
    let g := s.nextObjectGen v.dst
    let t := if u.flat then flatTable g v.split else tableOf g v.split u.hist
    ({ u with table := some t }, [.mem (v.dst + 64) (t.bytes ++ zeros 440)])
  else (u, [])

/-- A size pin of a surveyed object. A void one sizes every block that is left raw. -/
def State.surveySize (s : State) (v : SurveyPin) (u : SurveySt) (k : Nat) (void : Bool) : SurveySt × List Upd :=
  if u.rest then (u, [])
  else
    let first := u.index.length
    if void then
      let left := (s.surveyBlocks v (4096 * first) v.ulen).map (fun b => (b.1, 8 + b.2.length))
      let u := { u.addSizes v.nb (left.map (·.2)) with rest := true, sized := v.nc, rawBlocks := u.rawBlocks ++ left.map (·.1) }
      (u, surveyWrites v u first)
    else
      let bs := (s.surveyBlocks v (k * v.c) ((k + 1) * v.c)).map (fun b => (b.1, u.blockOf v.split b.2))
      let u := { u.addSizes v.nb (bs.map (fun b => b.2.1.length)) with
                 sized := k + 1, rawBlocks := u.rawBlocks ++ (bs.filter (fun b => b.2.2)).map (·.1) }
      (u, surveyWrites v u first)

/-- An encode pin of a surveyed object: the blocks of its quarter, as the size sweep sized them. -/
def State.surveyEncode (s : State) (v : SurveyPin) (u : SurveySt) (q : Nat) : List Upd :=
  let bs := (s.surveyBlocks v (q * v.c / 4) ((q + 1) * v.c / 4)).map (fun b =>
    let gen := (u.table.map (·.gen)).getD 0
    let x := if u.rawBlocks.contains b.1 then (rawBlock v.split gen b.2, true) else u.blockOf v.split b.2
    (b.1, b.2, x))
  bs.map (fun b => Upd.mem (v.dst + (nth u.index b.1 (0, 0)).1) b.2.2.1) ++
    codedCounts v.ctx 0 (bs.map (·.2.1)) (bs.map (fun b => (b.2.2.1, if b.2.2.2 then 1 else 0)))

/-- A pin of the size or encode sweep issues out of its order (R229). -/
def SurveyPin.outOfOrder (v : SurveyPin) (u : SurveySt) (chunk : Nat) : Bool :=
  let w := v.sweep chunk
  if w.1 = 1 then u.table.isNone || (!u.rest && u.sized != w.2)
  else if w.1 = 2 then decide (u.sized ≤ w.2 / 4)
  else false

end Sys2Proof.Machine
end

