-- ==== Sys2Proof/Machine/Hash.lean ====
section
/-! DEFINITION. The digests, the signature and the random generator the manual names by standard: SHA-256 and SHA-384
(FIPS 180-4) of R405 and R423, ECDSA P-384 (FIPS 186-5) of R423 and R426, and ChaCha with 8 rounds of R415 and R416. -/

namespace Sys2Proof.Machine

/-- Rotation right of a `w`-bit word. -/
def rotr (w x n : Nat) : Nat := (x >>> n ||| x <<< (w - n)) % 2 ^ w

/-- Round constants of SHA-256 (FIPS 180-4). -/
def sha256K : List Nat :=
  [0x428A2F98, 0x71374491, 0xB5C0FBCF, 0xE9B5DBA5, 0x3956C25B, 0x59F111F1, 0x923F82A4, 0xAB1C5ED5,
   0xD807AA98, 0x12835B01, 0x243185BE, 0x550C7DC3, 0x72BE5D74, 0x80DEB1FE, 0x9BDC06A7, 0xC19BF174] ++
  [0xE49B69C1, 0xEFBE4786, 0x0FC19DC6, 0x240CA1CC, 0x2DE92C6F, 0x4A7484AA, 0x5CB0A9DC, 0x76F988DA,
   0x983E5152, 0xA831C66D, 0xB00327C8, 0xBF597FC7, 0xC6E00BF3, 0xD5A79147, 0x06CA6351, 0x14292967] ++
  [0x27B70A85, 0x2E1B2138, 0x4D2C6DFC, 0x53380D13, 0x650A7354, 0x766A0ABB, 0x81C2C92E, 0x92722C85,
   0xA2BFE8A1, 0xA81A664B, 0xC24B8B70, 0xC76C51A3, 0xD192E819, 0xD6990624, 0xF40E3585, 0x106AA070] ++
  [0x19A4C116, 0x1E376C08, 0x2748774C, 0x34B0BCB5, 0x391C0CB3, 0x4ED8AA4A, 0x5B9CCA4F, 0x682E6FF3,
   0x748F82EE, 0x78A5636F, 0x84C87814, 0x8CC70208, 0x90BEFFFA, 0xA4506CEB, 0xBEF9A3F7, 0xC67178F2]

/-- Round constants of SHA-384 (FIPS 180-4). -/
def sha512K : List Nat :=
  [0x428A2F98D728AE22, 0x7137449123EF65CD, 0xB5C0FBCFEC4D3B2F, 0xE9B5DBA58189DBBC,
   0x3956C25BF348B538, 0x59F111F1B605D019, 0x923F82A4AF194F9B, 0xAB1C5ED5DA6D8118] ++
  [0xD807AA98A3030242, 0x12835B0145706FBE, 0x243185BE4EE4B28C, 0x550C7DC3D5FFB4E2,
   0x72BE5D74F27B896F, 0x80DEB1FE3B1696B1, 0x9BDC06A725C71235, 0xC19BF174CF692694] ++
  [0xE49B69C19EF14AD2, 0xEFBE4786384F25E3, 0x0FC19DC68B8CD5B5, 0x240CA1CC77AC9C65,
   0x2DE92C6F592B0275, 0x4A7484AA6EA6E483, 0x5CB0A9DCBD41FBD4, 0x76F988DA831153B5] ++
  [0x983E5152EE66DFAB, 0xA831C66D2DB43210, 0xB00327C898FB213F, 0xBF597FC7BEEF0EE4,
   0xC6E00BF33DA88FC2, 0xD5A79147930AA725, 0x06CA6351E003826F, 0x142929670A0E6E70] ++
  [0x27B70A8546D22FFC, 0x2E1B21385C26C926, 0x4D2C6DFC5AC42AED, 0x53380D139D95B3DF,
   0x650A73548BAF63DE, 0x766A0ABB3C77B2A8, 0x81C2C92E47EDAEE6, 0x92722C851482353B] ++
  [0xA2BFE8A14CF10364, 0xA81A664BBC423001, 0xC24B8B70D0F89791, 0xC76C51A30654BE30,
   0xD192E819D6EF5218, 0xD69906245565A910, 0xF40E35855771202A, 0x106AA07032BBD1B8] ++
  [0x19A4C116B8D2D0C8, 0x1E376C085141AB53, 0x2748774CDF8EEB99, 0x34B0BCB5E19B48A8,
   0x391C0CB3C5C95A63, 0x4ED8AA4AE3418ACB, 0x5B9CCA4F7763E373, 0x682E6FF3D6B2B8A3] ++
  [0x748F82EE5DEFB2FC, 0x78A5636F43172F60, 0x84C87814A1F0AB72, 0x8CC702081A6439EC,
   0x90BEFFFA23631E28, 0xA4506CEBDE82BDE9, 0xBEF9A3F7B2C67915, 0xC67178F2E372532B] ++
  [0xCA273ECEEA26619C, 0xD186B8C721C0C207, 0xEADA7DD6CDE0EB1E, 0xF57D4F7FEE6ED178,
   0x06F067AA72176FBA, 0x0A637DC5A2C898A6, 0x113F9804BEF90DAE, 0x1B710B35131C471B] ++
  [0x28DB77F523047D84, 0x32CAAB7B40C72493, 0x3C9EBE0A15C9BEBC, 0x431D67C49C100D4C,
   0x4CC5D4BECB3E42B6, 0x597F299CFC657E2A, 0x5FCB6FAB3AD6FAEC, 0x6C44198C4A475817]

/-- Initial hash value of SHA-256. -/
def sha256Init : List Nat :=
  [0x6A09E667, 0xBB67AE85, 0x3C6EF372, 0xA54FF53A, 0x510E527F, 0x9B05688C, 0x1F83D9AB, 0x5BE0CD19]

/-- Initial hash value of SHA-384. -/
def sha384Init : List Nat :=
  [0xCBBB9D5DC1059ED8, 0x629A292A367CD507, 0x9159015A3070DD17, 0x152FECD8F70E5939,
   0x67332667FFC00B31, 0x8EB44A8768581511, 0xDB0C2E0D64F98FA7, 0x47B5481DBEFA4FA4]

/-- The eight working variables of a hash. -/
structure Hash8 where
  a : Nat
  b : Nat
  c : Nat
  d : Nat
  e : Nat
  f : Nat
  g : Nat
  h : Nat
  deriving DecidableEq, Repr

/-- A hash state from a list of eight words. -/
def Hash8.ofList (xs : List Nat) : Hash8 :=
  ⟨nth xs 0 0, nth xs 1 0, nth xs 2 0, nth xs 3 0, nth xs 4 0, nth xs 5 0, nth xs 6 0, nth xs 7 0⟩

/-- The eight words of a hash state. -/
def Hash8.toList (s : Hash8) : List Nat := [s.a, s.b, s.c, s.d, s.e, s.f, s.g, s.h]

/-- The rotation amounts of a member of the SHA-2 family. -/
structure ShaKind where
  w : Nat
  big0 : Nat × Nat × Nat
  big1 : Nat × Nat × Nat
  small0 : Nat × Nat × Nat
  small1 : Nat × Nat × Nat
  deriving DecidableEq, Repr

/-- SHA-256. -/
def sha256Kind : ShaKind := ⟨32, (2, 13, 22), (6, 11, 25), (7, 18, 3), (17, 19, 10)⟩

/-- SHA-384, which has the round function of SHA-512. -/
def sha512Kind : ShaKind := ⟨64, (28, 34, 39), (14, 18, 41), (1, 8, 7), (19, 61, 6)⟩

/-- XOR of three rotations. -/
def rot3 (w : Nat) (r : Nat × Nat × Nat) (x : Nat) : Nat := rotr w x r.1 ^^^ rotr w x r.2.1 ^^^ rotr w x r.2.2

/-- XOR of two rotations and a shift. -/
def rot2s (w : Nat) (r : Nat × Nat × Nat) (x : Nat) : Nat := rotr w x r.1 ^^^ rotr w x r.2.1 ^^^ x >>> r.2.2

/-- One round of the compression. -/
def shaRound (k : ShaKind) (s : Hash8) (kw : Nat × Nat) : Hash8 :=
  let m := 2 ^ k.w
  let ch := (s.e &&& s.f) ^^^ ((m - 1 - s.e) &&& s.g)
  let t1 := s.h + rot3 k.w k.big1 s.e + ch + kw.1 + kw.2
  let maj := (s.a &&& s.b) ^^^ (s.a &&& s.c) ^^^ (s.b &&& s.c)
  let t2 := rot3 k.w k.big0 s.a + maj
  ⟨(t1 + t2) % m, s.a, s.b, s.c, (s.d + t1) % m, s.e, s.f, s.g⟩

/-- The message schedule, grown to `n` more words; the list is kept newest first. -/
def shaSchedule (k : ShaKind) : Nat → List Nat → List Nat
  | 0, ws => ws
  | n + 1, ws =>
    let w := (rot2s k.w k.small1 (nth ws 1 0) + nth ws 6 0 + rot2s k.w k.small0 (nth ws 14 0) + nth ws 15 0) % 2 ^ k.w
    shaSchedule k n (w :: ws)

/-- One block of the hash. -/
def shaBlock (k : ShaKind) (ks : List Nat) (s : Hash8) (blk : List Byte) : Hash8 :=
  let w0 := (pieces (k.w / 8) blk).map beNat
  let ws := (shaSchedule k (ks.length - 16) w0.reverse).reverse
  let t := (ks.zip ws).foldl (shaRound k) s
  let m := 2 ^ k.w
  ⟨(s.a + t.a) % m, (s.b + t.b) % m, (s.c + t.c) % m, (s.d + t.d) % m,
   (s.e + t.e) % m, (s.f + t.f) % m, (s.g + t.g) % m, (s.h + t.h) % m⟩

/-- The padded message: a one bit, zeros, and the length in bits. -/
def shaPad (k : ShaKind) (msg : List Byte) : List Byte :=
  let blk := 2 * k.w
  let len := k.w / 4
  let n := msg.length + 1 + len
  msg ++ [0x80#8] ++ zeros (roundUp n blk - n) ++ beBytes len (8 * msg.length)

/-- The hash of a message, as the words of the state. -/
def shaWords (k : ShaKind) (ks init : List Nat) (msg : List Byte) : List Nat :=
  ((pieces (2 * k.w) (shaPad k msg)).foldl (shaBlock k ks) (Hash8.ofList init)).toList

/-- SHA-256 of a byte string: 32 bytes, in the byte order of the standard (R5). -/
def sha256 (msg : List Byte) : List Byte :=
  (shaWords sha256Kind sha256K sha256Init msg).flatMap (beBytes 4)

/-- SHA-384 of a byte string: 48 bytes. -/
def sha384 (msg : List Byte) : List Byte :=
  ((shaWords sha512Kind sha512K sha384Init msg).take 6).flatMap (beBytes 8)

/-! ### ECDSA P-384 (R423, R426) -/

/-- The field prime of P-384. -/
def p384P : Nat := 2 ^ 384 - 2 ^ 128 - 2 ^ 96 + 2 ^ 32 - 1

/-- The group order of P-384. -/
def p384N : Nat := 0xFFFFFFFFFFFFFFFFFFFFFFFFFFFFFFFFFFFFFFFFFFFFFFFFC7634D81F4372DDF581A0DB248B0A77AECEC196ACCC52973

/-- The curve coefficient b of P-384. -/
def p384B : Nat := 0xB3312FA7E23EE7E4988E056BE3F82D19181D9C6EFE8141120314088F5013875AC656398D8A2ED19D2A85C8EDD3EC2AEF

/-- The base point of P-384. -/
def p384G : Nat × Nat :=
  (0xAA87CA22BE8B05378EB1C71EF320AD746E1D3B628BA79B9859F741E082542A385502F25DBF55296C3A545E3872760AB7,
   0x3617DE4A96262C6F5D9E98BF9292DC29F8F41DBD289A147CE9DA3113B5F0B8C00A60B1CE1D7E819D7A431D7C90EA0E5F)

/-- `b ^ e mod m` over the low `k` bits of `e`, from the top bit down. -/
def powMod (m b e : Nat) : Nat → Nat → Nat
  | 0, acc => acc
  | k + 1, acc =>
    let a := acc * acc % m
    powMod m b e k (if flag e k then a * b % m else a)

/-- The inverse of `a` modulo the prime `m`, by Fermat. -/
def invMod (m a : Nat) : Nat := powMod m (a % m) (m - 2) 384 1

/-- A point of the curve, or the point at infinity. -/
abbrev EcPoint := Option (Nat × Nat)

/-- The sum of two points of P-384. -/
def ecAdd (x y : EcPoint) : EcPoint :=
  match x, y with
  | none, q => q
  | q, none => q
  | some (x1, y1), some (x2, y2) =>
    let p := p384P
    if x1 = x2 ∧ (y1 + y2) % p = 0 then none
    else
      let l :=
        if x1 = x2 then (3 * x1 * x1 + (p - 3)) * invMod p (2 * y1) % p
        else (y2 + p - y1) * invMod p (x2 + p - x1) % p
      let x3 := (l * l + 2 * p - x1 - x2) % p
      some (x3, (l * (x1 + p - x3) + p - y1) % p)

/-- `n · q` over the low `k` bits of `n`, from the top bit down. -/
def ecMul (n : Nat) (q : EcPoint) : Nat → EcPoint → EcPoint
  | 0, acc => acc
  | k + 1, acc =>
    let a := ecAdd acc acc
    ecMul n q k (if flag n k then ecAdd a q else a)

/-- The point lies on P-384. -/
def ecOnCurve (q : Nat × Nat) : Bool :=
  q.1 < p384P && q.2 < p384P &&
    (q.2 * q.2) % p384P == (q.1 * q.1 * q.1 + (p384P - 3) * q.1 + p384B) % p384P

/-- An ECDSA P-384 signature `(r, s)` over the SHA-384 digest verifies under the public key `q` (FIPS 186-5). -/
def ecdsaVerify (q : Nat × Nat) (digest : List Byte) (r s : Nat) : Bool :=
  if r = 0 || s = 0 || r ≥ p384N || s ≥ p384N || !(ecOnCurve q) then false
  else
    let w := invMod p384N s
    let u1 := beNat digest * w % p384N
    let u2 := r * w % p384N
    match ecAdd (ecMul u1 (some p384G) 384 none) (ecMul u2 (some q) 384 none) with
    | none => false
    | some (x, _) => x % p384N == r

/-! ### The random generator (R415, R416) -/

/-- The quarter round of ChaCha on four words. -/
def quarter (a b c d : Nat) : Nat × Nat × Nat × Nat :=
  let m := 2 ^ 32
  let rotl := fun x n => rotr 32 x (32 - n)
  let a := (a + b) % m
  let d := rotl (d ^^^ a) 16
  let c := (c + d) % m
  let b := rotl (b ^^^ c) 12
  let a := (a + b) % m
  let d := rotl (d ^^^ a) 8
  let c := (c + d) % m
  let b := rotl (b ^^^ c) 7
  (a, b, c, d)

/-- The quarter round at positions `i j k l` of the sixteen words. -/
def quarterAt (i j k l : Nat) (st : List Nat) : List Nat :=
  let q := quarter (nth st i 0) (nth st j 0) (nth st k 0) (nth st l 0)
  setAt (setAt (setAt (setAt st i q.1) j q.2.1) k q.2.2.1) l q.2.2.2

/-- One double round. -/
def doubleRound (st : List Nat) : List Nat :=
  let st := quarterAt 3 7 11 15 (quarterAt 2 6 10 14 (quarterAt 1 5 9 13 (quarterAt 0 4 8 12 st)))
  quarterAt 3 4 9 14 (quarterAt 2 7 8 13 (quarterAt 1 6 11 12 (quarterAt 0 5 10 15 st)))

/-- The sixteen output words of the generator's block (R415). -/
def chachaBlock (seed : List Nat) (block stream step : Nat) : List Nat :=
  let init := [0x61707865, 0x3320646E, 0x79622D32, 0x6B206574] ++ (List.range 8).map (fun i => nth seed i 0 % 2 ^ 32) ++
    [block % 2 ^ 32, stream % 2 ^ 24, step % 2 ^ 32, (step / 2 ^ 32) % 2 ^ 16]
  let out := doubleRound (doubleRound (doubleRound (doubleRound init)))
  (init.zip out).map (fun p => (p.1 + p.2) % 2 ^ 32)

/-- The 16-bit draw of element `e` (R54, R416): use, tensor id, step and run seed address it. -/
def draw (seed : List Nat) (use tensor step e : Nat) : Nat :=
  let w := nth (chachaBlock seed (e / 32) (use * 2 ^ 20 + tensor) step) (e % 32 / 2) 0
  if e % 2 = 0 then w % 2 ^ 16 else w / 2 ^ 16

end Sys2Proof.Machine
end

