-- ==== Sys2Proof/Machine/Selection.lean ====
section
/-! DEFINITION. Intake, heat and selection (chapter Intake, Selection and Error Feedback): tiles (R78 to R92, R111), the
residual store (R107), heat and the heat settle (R93 to R100), the layouts of R501 and R502, quantisation by mode (R103). -/

namespace Sys2Proof.Machine

/-! ### Keys and views -/

/-- The heat table entry of a block on its home slice (R86). -/
def Policy.entry (pol : Policy) (b : Nat) : Nat := pol.heatBase + (pol.home b).2

/-- What the slice keeps of a block for the step. -/
def State.block (s : State) (sl e : Nat) : BlockSt := (s.slice sl).blocks.get default e

/-- The block changed. -/
def State.onBlock (s : State) (sl e : Nat) (f : BlockSt → BlockSt) : State :=
  s.onSlice sl (fun x => { x with blocks := x.blocks.put e (f (x.blocks.get default e)) })

/-- What the slice keeps of a tensor for the step. -/
def State.tensor (s : State) (sl t : Nat) : TensorSt := (s.slice sl).tensors.get default t

/-- The tensor changed. -/
def State.onTensor (s : State) (sl t : Nat) (f : TensorSt → TensorSt) : State :=
  s.onSlice sl (fun x => { x with tensors := x.tensors.put t (f (x.tensors.get default t)) })

/-! ### Residual store (R52, R88, R107, R108) -/

/-- Elements of a block in the residual store, unreadable ones as 0; and whether any is unreadable (R473). -/
def State.residual (s : State) (t b : Nat) : List Nat × Bool :=
  let pol := s.image.policyOf t
  let a := pol.resBase + 4096 * b
  let n := pol.blockElems b
  ((List.range n).map (fun i => if s.hbmFaulty (a + 4 * i) 4 then 0 else s.hbmNat (a + 4 * i) 4), s.hbmFaulty a (4 * n))

/-- A block of the residual store written. -/
def State.setResidual (s : State) (t b : Nat) (xs : List Nat) : State :=
  s.hbmWrite ((s.image.policyOf t).resBase + 4096 * b) (xs.flatMap (leBytes 4))

/-- Element-wise r + g: the sums, and how many saturated (R52). -/
def addTile (r g : List Nat) : List Nat × Nat :=
  let ps := (indexed r).map (fun e => residualAdd e.2 (nth g e.1 0))
  (ps.map (·.1), (ps.filter (·.2)).length)

/-- The unit word of a scaling unit's counter. -/
def unitOfBlock (pol : Policy) (t b : Nat) : Nat := unitWord t (pol.unitOf b) 0

/-- A tile added into the residual store (R88). -/
def State.addResidual (s : State) (sl t b : Nat) (g : List Nat) : State :=
  let pol := s.image.policyOf t
  let r := s.residual t b
  let s := if r.2 then s.hbmError (sliceSource 1 sl) (pol.resBase + 4096 * b) else s
  let x := addTile r.1 g
  (s.bump 4 (unitOfBlock pol t b) x.2).setResidual t b x.1

/-! ### Gradient tiles -/

/-- The tile's elements widened to binary32, non-finite ones replaced by 0, and how many were non-finite (R38, R39, R76). -/
def tileElems (fmt count : Nat) (payload : List Byte) : List Nat × Nat :=
  let w := ingressBytes fmt
  let vs := (List.range count).map (fun i => ingressWiden fmt (bytesAt payload (w * i) w))
  (vs.map (fun v => plusZero (v.getD 0)), (vs.filter (·.isNone)).length)

/-- A SELECT of the block is in progress on the slice. -/
def State.selecting (s : State) (sl t off : Nat) : Bool :=
  s.seq.flights.any (fun f => f.pin.op == 6 && !f.pin.wide && f.stream == sl && f.pin.pitch == t && f.pin.chunk ≤ off && off < f.pin.chunk + f.pin.arg)

/-- A tile rejected for a reason of Table 3-2. -/
def State.tileReject (s : State) (sl t b reason : Nat) : State :=
  (s.bump (0x40 + 4 * reason) (unitWord 0 sl 0) 1).dev ⟨0x11, reason, sl, t, b, 0, 0⟩

/-- The replay record names the block late (Table 11-12). -/
def State.forcedLate (s : State) (t b : Nat) : Bool :=
  s.req.replay && s.req.replayDevs.any (fun d => d.cause = 0x10 ∧ d.object = t ∧ d.index = b)

/-- In replay mode, a reject of the block for this reason is recorded and has not been made yet (Table 11-12). -/
def State.forcedReject (s : State) (t b reason : Nat) : Bool :=
  let n := fun (ds : List Dev) => (ds.filter (fun d => d.cause = 0x11 ∧ d.detail = reason ∧ d.object = t ∧ d.index = b)).length
  decide (n s.srec.stored < n s.req.replayDevs)

/-- The intake area of a slice is full (R92); in replay mode, where the record says so. -/
def State.intakeFull (s : State) (sl t b : Nat) : Bool :=
  if s.req.replay then s.forcedReject t b 9 else decide ((s.slice sl).tiles.length ≥ nth s.image.config.intake sl 0)

/-- A tile event of the step, for its INTAKE section (Table 11-11): bit 56, which the section does not carry, says that the
block is out of order. -/
def State.intakeItem (s : State) (t b mb : Nat) (after earlier ooo : Bool) : State :=
  s.onRec (fun r => { r with intake := r.intake ++ [leBytes 8
    (t + b * 2 ^ 20 + mb * 2 ^ 46 + ofBool after * 2 ^ 54 + ofBool earlier * 2 ^ 55 + ofBool ooo * 2 ^ 56)] })

/-- The micro-batch judgement of an ACC = 1 tile (R90): none where it is rejected, else the block's new state. -/
def BlockSt.accept (b : BlockSt) (mbs mb : Nat) (final : Bool) : Option BlockSt :=
  if mb > mbs then none
  else if !b.window ∧ mb < b.j then none
  else
    let inOrder := !b.window && mb == b.j
    let wrongFinal := final ≠ (mb == mbs)
    let ooo := b.outOfOrder || (!b.window && mb > b.j) || wrongFinal
    let opens := b.window || mb > b.j || (mb == mbs && !final)
    some { b with
      j := if mb = b.j then b.j + 1 else b.j
      outOfOrder := ooo
      window := opens && !final
      complete := b.complete || (inOrder && mb == mbs && final && !ooo) }

/-- The tile's data: counted, its disagreeing summary reported, and added or staged (R76, R87, R88, R111). -/
def State.takeTile (s : State) (sl : Nat) (h : TileHead) (payload : List Byte) (earlier : Bool) : State :=
  let t := h.tensor
  let pol := s.image.policyOf t
  let e := tileElems h.fmt h.count payload
  let ent := pol.entry h.block
  let blk := s.block sl ent
  let s := s.bump 0x40 (unitWord t 0 0) 1
  let s := (s.bump 0x2C (unitWord t 0 0) e.2).onRec (fun r => { r with nfLocal := r.nfLocal + e.2 })
  let s := if e.2 ≠ h.nf then s.raise 0x12 (sliceSource 1 sl) 0 t (e.2 % 2 ^ 16 + h.nf * 2 ^ 16) else s
  let busy := s.selecting sl t (pol.home h.block).2
  let after := !earlier && blk.selected
  let wait := !earlier && ((after && busy) || (s.forcedLate t h.block && !blk.selected))
  let s := if earlier || after then s.bump 0x6C (unitWord t 0 0) 1 else s
  let s := s.intakeItem t h.block h.mb after earlier (!earlier && blk.outOfOrder)
  if earlier then s.addResidual sl t h.block e.1
  else if wait then s.onSlice sl (fun x => { x with held := x.held ++ [⟨t, h.block, e.1⟩] })
  else if pol.acc ∨ after then s.addResidual sl t h.block e.1
  else if h.fmt > 3 then s
  else s.onSlice sl (fun x => { x with tiles := x.tiles ++ [⟨t, h.block, e.1⟩] })

/-- A gradient tile at an ingress port of a running engine, judged by Table 3-2 (R81). -/
def State.gradientTile (s : State) (sl : Nat) (h : TileHead) (payload : List Byte) : State :=
  let t := h.tensor
  let b := h.block
  let pol := s.image.policyOf t
  let ord := tagOrder h.tag s.seq.step
  if h.kind = 2 ∨ h.kind = 3 then s.tileReject sl t b 1
  else if t ≥ 65536 ∨ pol.mode = 0 then s.tileReject sl t b 2
  else if b ≥ pol.n then s.tileReject sl t b 3
  else if (pol.home b).1 ≠ sl then s.tileReject sl t b 4
  else if h.count ≠ pol.blockElems b then s.tileReject sl t b 5
  else if ord = .later then s.tileReject sl t b 6
  else if ord = .earlier then s.takeTile sl h payload true
  else
    let ent := pol.entry b
    let blk := s.block sl ent
    let late := s.forcedLate t b
    if pol.acc then
      match blk.accept pol.mbs h.mb h.final with
      | none => s.tileReject sl t b 7
      | some nb =>
        let s := if nb.outOfOrder ∧ !blk.outOfOrder then s.bump 0x70 (unitWord t 0 0) 1 else s
        (s.onBlock sl ent (fun _ => { nb with complete := nb.complete && !late })).takeTile sl h payload false
    else if h.mb ≠ 0 ∨ !h.final then s.tileReject sl t b 7
    else if blk.complete then s.tileReject sl t b 8
    else if !blk.selected ∧ !late ∧ h.fmt ≤ 3 ∧ s.intakeFull sl t b then s.tileReject sl t b 9
    else (s.onBlock sl ent (fun x => { x with complete := !late })).takeTile sl h payload false

/-- ACC = 0 tiles still unread at a step origin are added into the residual store (R87). -/
def State.flushTiles (s : State) : State :=
  (List.range 8).foldl (fun s sl =>
    let ts := (s.slice sl).tiles
    let s := s.onSlice sl (fun x => { x with tiles := [] })
    ts.foldl (fun s x => ((s.bump 0x6C (unitWord x.tensor 0 0) 1).intakeItem x.tensor x.block 0 true false false).addResidual sl
      x.tensor x.block x.data) s) s

/-! ### What a pin reads of a block -/

/-- x of a block at a pin: r + g with a staged tile, else r; how many sums saturated; and whether r was unreadable. -/
def State.blockX (s : State) (sl t b : Nat) : List Nat × Nat × Bool :=
  let r := s.residual t b
  match (s.slice sl).tiles.find? (fun x => x.tensor = t ∧ x.block = b) with
  | some g => let a := addTile r.1 g.data; (a.1, a.2, r.2)
  | none => (r.1, 0, r.2)

/-- A block marked late for the step: its bit, a LATE-BLOCK entry and its count (R110, R112). -/
def State.markLate (s : State) (sl t b : Nat) : State :=
  let e := (s.image.policyOf t).entry b
  if (s.block sl e).late then s
  else ((s.onBlock sl e (fun x => { x with late := true })).bump 0x68 (unitWord t 0 0) 1).dev ⟨0x10, 0, sl, t, b, 0, 0⟩

/-- The blocks that a HEAT or SELECT pin names on its slice. -/
def Policy.pinBlocks (pol : Policy) (sl first n : Nat) : List Nat :=
  (List.range n).filterMap (fun i => pol.blockAt sl (first + i))

/-! ### Heat (R93 to R100, R502) -/

/-- The local heat of a block at its HEAT pin; the state with the block judged. -/
def State.heatOf (s : State) (sl t b : Nat) (eh : Int) : State × Nat :=
  let pol := s.image.policyOf t
  if !(s.block sl (pol.entry b)).complete then (s.markLate sl t b, 0)
  else
    let x := s.blockX sl t b
    if x.2.2 then ((s.markLate sl t b).hbmError (sliceSource 2 sl) (pol.resBase + 4096 * b), 0)
    else
      let h := localHeat (sumNat (x.1.map squareUnits)) eh
      (if h.2 then s.bump 0x18 (unitWord t 0 0) 1 else s, h.1)

/-- The chunk of local heats `hs`: Q16 under eh, or null while the heat exponent is not derived (R96). -/
def heatChunk (pol : Policy) (step : Nat) (eh : Option Int) (raw : Int) (hs : List Nat) (cap : Nat) : Chunk :=
  let vs := hs.map Int.ofNat
  match eh with
  | some e =>
    { nullChunk 0 1 hs.length step pol.routed false with
      null := false, exp := e, data := packElems 1 vs, cord := cordOf 0 pol.routed false vs }
  | none => { nullChunk 0 1 cap step pol.routed false with exp := raw }

/-- The heat codes of all the tensor's blocks, in block order (R97, R99). -/
def State.heatCodes (s : State) (t : Nat) : List Nat :=
  let pol := s.image.policyOf t
  (List.range pol.n).map (fun b => (s.slice (pol.home b).1).heat.get 0 (pol.entry b))

/-- The loop of R98 from code `t` down: T and the number of blocks above it. -/
def thresholdFrom (hc : List Nat) (budget : Nat) : Nat → Nat → Nat × Nat
  | 0, above => (0, above)
  | t + 1, above =>
    let n := (hc.filter (· = t + 1)).length
    if above + n < budget then thresholdFrom hc budget t (above + n) else (t + 1, above)

/-- The blocks with the highest codes, ties to the lower block, `n` of them (R98). -/
def hottest (hc : List Nat) (cands : List Nat) (n : Nat) : List Nat :=
  let cs := cands.map (fun b => nth hc b 0)
  let r := thresholdFrom cs n 65535 0
  let above := cands.filter (fun b => nth hc b 0 > r.1)
  let ties := (cands.filter (fun b => nth hc b 0 = r.1)).take (n - r.2)
  (above ++ ties).mergeSort (fun a b => decide (a ≤ b))

/-- The lower median code: the code at rank ⌈n ÷ 2⌉ in ascending order (R100). -/
def lowerMedian (hc : List Nat) : Nat := nth (hc.mergeSort (fun a b => decide (a ≤ b))) (ceilDiv hc.length 2 - 1) 0

/-- The heat settle of a tensor: its main and wide sets over all slices (R98, R100, R101). -/
def settleOf (pol : Policy) (hc : List Nat) : List Nat × List Nat :=
  let all := List.range pol.n
  let sel := if pol.runMode = 3 then hottest hc all pol.budget else all
  let wide :=
    if pol.wideK = 0 then []
    else
      let d := Nat.max 1 (heatValue (lowerMedian hc))
      let cands := sel.filter (fun b => heatValue (nth hc b 0) > 2 ^ pol.wideK * d)
      if cands.length ≤ pol.wideMax then cands else hottest hc cands pol.wideMax
  (sel.filter (fun b => !wide.contains b), wide)

/-- What a settle fixes on a slice. -/
def settledOn (pol : Policy) (sl : Nat) (r : List Nat × List Nat) : Settled :=
  ⟨r.1.filter (fun b => (pol.home b).1 = sl), r.2.filter (fun b => (pol.home b).1 = sl), r.2.length⟩

/-! ### Layout (R101, R102, R501) -/

/-- Payload bytes of a main block (Table 3-4). -/
def Policy.mainBytes (pol : Policy) : Nat := if pol.runMode = 1 then 2048 else if pol.runMode = 4 then 128 else 1024

/-- Wire format of the main set. -/
def Policy.mainFmt (pol : Policy) : Nat := if pol.runMode = 1 then 1 else if pol.runMode = 4 then 3 else 2

/-- Blocks laid out in chunks of `c` bytes at `sz` bytes each, a new chunk at each unit boundary (R501). -/
def layoutFrom (pol : Policy) (c sz : Nat) : List (List Nat) → List Nat → List (List Nat)
  | done, [] => done
  | done, b :: bs =>
    match done.getLast? with
    | some cur =>
      if (cur.length + 1) * sz ≤ c ∧ cur.getLast?.map pol.unitOf = some (pol.unitOf b) then
        layoutFrom pol c sz (done.dropLast ++ [cur ++ [b]]) bs
      else layoutFrom pol c sz (done ++ [[b]]) bs
    | none => layoutFrom pol c sz [[b]] bs

/-- The blocks of each chunk of an area, in order. -/
def layout (pol : Policy) (c sz : Nat) (bs : List Nat) : List (List Nat) := layoutFrom pol c sz [] bs

/-- Scaling units of which the slice holds blocks. -/
def Policy.unitsOn (pol : Policy) (sl : Nat) : Nat := ((pol.blocksOf sl).map pol.unitOf).eraseDups.length

/-- The chunk count of a slice's main area (R501). -/
def Policy.mainChunks (pol : Policy) (sl c : Nat) : Nat :=
  let ns := pol.nS sl
  if pol.runMode = 3 then
    let m := Nat.min pol.budget ns
    ceilDiv m (c / pol.mainBytes) + Nat.min (pol.unitsOn sl) m - 1
  else (layout pol c pol.mainBytes (pol.blocksOf sl)).length

/-- Least ARG of a SELECT with WIDE set (R168). -/
def Policy.sideChunks (pol : Policy) (sl c : Nat) : Nat :=
  let m := Nat.min pol.wideMax (pol.nS sl)
  ceilDiv m (c / 2048) + Nat.min (pol.unitsOn sl) m - 1

/-- Main and wide blocks of the tensor on the slice: as settled, else every block (R101). -/
def State.mainSet (s : State) (sl t : Nat) : List Nat :=
  match (s.tensor sl t).settled with
  | some x => x.main
  | none => (s.image.policyOf t).blocksOf sl

/-- Wide blocks of the tensor on the slice. -/
def State.wideSet (s : State) (sl t : Nat) : List Nat :=
  match (s.tensor sl t).settled with
  | some x => x.wide
  | none => []

/-- Chunk size of a CSIZE code. -/
def csizeBytes (k : Nat) : Nat := 2 ^ (k + 12)

/-- The layout of the main or the side area of a tensor on a slice. -/
def State.areaLayout (s : State) (sl t : Nat) (wide : Bool) (csize : Nat) : List (List Nat) :=
  let pol := s.image.policyOf t
  if wide then layout pol (csizeBytes csize) 2048 (s.wideSet sl t)
  else layout pol (csizeBytes csize) pol.mainBytes (s.mainSet sl t)

/-- The chunk of an area that a chunk of a pitch carries: counted from the first chunk of the same tensor and set on the
pitch (R126, R501). -/
def Pricking.areaIndex (pk : Pricking) (pitch chunk : Nat) (e : PMapEnt) : Nat :=
  match pk.pmap.find? (fun x => x.pitch = pitch ∧ x.tensor = e.tensor ∧ x.set = e.set) with
  | some f => chunk - f.first
  | none => chunk

/-- The blocks that a chunk of a pitch carries on a slice, by the layouts of R101 and R126. -/
def State.blocksCarried (s : State) (sl pitch chunk : Nat) : List Nat :=
  match s.pricking.payload pitch chunk with
  | none => []
  | some e =>
    if e.set = 2 then []
    else
      let ts := s.tensor sl e.tensor
      let cs := if e.set = 1 then (ts.side.map (·.2.1)).getD 0 else (ts.main.map (·.2)).getD 0
      nth (s.areaLayout sl e.tensor (e.set == 1) cs) (s.pricking.areaIndex pitch chunk e) []

/-! ### Quantisation of a block (R103, R106, Table 3-5) -/

/-- A block's payload and its residual. -/
structure Quantised where
  payload : List Int
  resid : List Nat
  clamped : Nat
  saturated : Nat
  deriving Repr

/-- Quantised to width q under e, with the residual of R51. -/
def quantBlock (xs : List Nat) (e : Int) (q : Nat) : Quantised :=
  let ks := xs.map (fun x => (x, quantise x e q))
  let rs := ks.map (fun k => residualOf k.1 k.2.1 e)
  ⟨ks.map (·.2.1), rs.map (fun r => plusZero r.1), (ks.filter (·.2.2)).length, (rs.filter (·.2)).length⟩

/-- The signs of a block and the residual x − sg × s_b (R103); an exact zero draws a random bit (use 0x4). -/
def signBlock (seed : List Nat) (t step b sb : Nat) (xs : List Nat) : Quantised :=
  let sg := (indexed xs).map (fun x =>
    if f32Abs x.2 = 0 then (if draw seed 4 t step (1024 * b + x.1) % 2 = 0 then (1 : Int) else -1)
    else if flag x.2 31 then -1 else 1)
  let rs := (xs.zip sg).map (fun x => f32Sat (plusZero (fsub x.1 (if x.2 > 0 then sb else fneg sb))))
  ⟨sg, rs.map (·.1), 0, (rs.filter (·.2)).length⟩

/-- Elements beyond the block's own are padded to 1,024: 0, or +1 in S1 (R103). -/
def padBlock (sign : Bool) (ks : List Int) : List Int := ks ++ List.replicate (1024 - ks.length) (if sign then 1 else 0)

/-- `select_block` of R103 on x: what the block sends, if anything, and its residual. `nul` is a null contribution. -/
def State.selectBlock (s : State) (sl t b : Nat) (xs : List Nat) (nul void unread : Bool) : Option (List Int) × Quantised :=
  let pol := s.image.policyOf t
  let keep : Quantised := ⟨[], xs, 0, 0⟩
  let wide := (s.wideSet sl t).contains b
  let sent := wide || (s.mainSet sl t).contains b
  let late := (s.block sl (pol.entry b)).late || unread
  let sign := pol.runMode = 4 && !wide
  let u := pol.unitOf b
  let zero := List.replicate 1024 (0 : Int)
  if !sent then (none, keep)
  else if void ∨ nul then (some (if sign then List.replicate 1024 1 else zero), keep)
  else if late ∧ pol.runMode ≠ 4 then (some zero, keep)
  else if wide ∨ pol.runMode = 1 then
    let q := quantBlock xs ((s.unitExp t u 16).getD 0) 16
    (some (padBlock false q.payload), q)
  else if pol.runMode = 4 then
    let code := (s.slice sl).heat.get 0 (pol.entry b)
    let sb := signScale code ((s.heatExp t).getD 0) pol.hgroup
    let q := signBlock s.seed t s.seq.step b sb.1 xs
    (some (padBlock true q.payload), q)
  else
    let q := quantBlock xs ((s.unitExp t u 8).getD 0) 8
    (some (padBlock false q.payload), q)

/-- The engine sends null for the unit: its scale or the tensor's heat is unsettled, or part of the step's global heat was lacking at a
settle, on which nothing that depends on selection may rest (R48, R96). Heat counts for tensors with HEAT pins. -/
def State.sendsNull (s : State) (t u : Nat) : Bool :=
  unsettled (s.scaleWin t u) || (s.pricking.heatTensors.contains t && (s.heatExp t).isNone) ||
    s.slices.any (fun sl => (sl.tensors.get default t).lacking)

/-- The chunk of an area before any SELECT writes it: its fields by the layout (R501), null where it is to be. -/
def State.areaChunk (s : State) (t : Nat) (wide nul : Bool) (blocks : List Nat) (csize : Nat) : Chunk :=
  let pol := s.image.policyOf t
  let fmt := if wide then 1 else pol.mainFmt
  let sz := if wide then 2048 else pol.mainBytes
  let u := match blocks with | b :: _ => pol.unitOf b | [] => 0
  let e := if wide then s.unitExpRaw t u 16 else if pol.runMode = 4 then 0 else s.unitExpRaw t u pol.mainWidth
  let nul := nul || blocks = []
  { nullChunk 0 fmt (if nul then csizeBytes csize * 8 / formatBits fmt else 1024 * blocks.length) s.seq.step pol.routed wide with
    null := nul, exp := e, data := if nul then [] else zeros (sz * blocks.length) }

/-- A list with `bs` written at offset `o`. -/
def writeAt {α : Type} (xs : List α) (o : Nat) (bs : List α) : List α := xs.take o ++ bs ++ xs.drop (o + bs.length)

end Sys2Proof.Machine
end

