-- ==== Sys2Proof/Machine/Stations.lean ====
section
/-! DEFINITION. Update stations (chapter Update Stations): deliveries into a station's input buffer (R277, R278, R159), norm
registers (R280), the step decision (R284 to R287) and the update (R288 to R293, R298). -/

namespace Sys2Proof.Machine

/-! ### Constants -/

/-- 1 as binary32. -/
def f32One : Nat := 0x3F800000

/-- Counter offset of row `i` of Table 8-8. -/
def stationCounter (i : Nat) : Nat := 0x140 + 4 * i

/-- Input buffer slots of a station (2 MiB of 4 KiB). -/
def stationSlots : Nat := 512

/-! ### Deliveries (R159, R277) -/

/-- The slot that block `b` takes under a descriptor, if it lies in the input buffer at or above BASE. -/
def slotFor (md : MDesc) (b : Nat) : Option Nat :=
  let b0 := md.length % 2 ^ 26
  if b < b0 then none
  else
    let n := md.base / 4096 + (b - b0)
    if n < stationSlots then some n else none

/-- The element of a final sum as the binary32 gradient (R60, R139): `sb` is the block scale of a SIGN block. -/
def gradientOf (v e : Int) (sb : Option Nat) : Nat × Bool :=
  let d := dequantise v e
  match sb with
  | none => (plusZero d.1, d.2)
  | some x => let m := f32Sat (fmul d.1 x); (plusZero m.1, d.2 || m.2)

/-- The block scale of a SIGN main block from the heat table of the slice (R104). -/
def State.blockScale (s : State) (sl : Nat) (e : PMapEnt) (b : Nat) : Option Nat :=
  let pol := s.image.policyOf e.tensor
  if pol.runMode = 4 ∧ e.set = 0 then
    some (signScale ((s.slice sl).heat.get 0 (pol.entry b)) ((s.heatExp e.tensor).getD 0) pol.hgroup).1
  else none

/-- Binary32 elements of a chunk of a scatter result, block by block where it carries blocks (R159, R160): the values, and how
many saturated. -/
def State.gradients (s : State) (sl pitch chunk : Nat) (c : Chunk) : List Nat × Nat :=
  let xs := if c.null then List.replicate c.elems (0 : Int) else c.ints
  let e := s.pricking.payload pitch chunk
  let bs := s.blocksCarried sl pitch chunk
  let scaleAt := fun (i : Nat) => (show Option Nat from
    match e, bs[i / 1024]? with
    | some m, some b => s.blockScale sl m b
    | _, _ => none)
  let ys := (indexed xs).map (fun x => gradientOf x.2 c.exp (scaleAt x.1))
  (ys.map (·.1), (ys.filter (·.2)).length)

/-- What a DELIVER to station `k` writes: the slots of the chunk's blocks, MISSING ones where the buffer is; how many blocks
are refused; and how many elements saturated. -/
def State.stationWrites (s : State) (sl : Nat) (p : Pin) (c : Option Chunk) : List (Nat × StSlot) × Nat × Nat :=
  match s.pricking.payload p.pitch p.chunk with
  | none => ([], 0, 0)
  | some e =>
    let pol := s.image.policyOf e.tensor
    let md := s.pricking.mdescAt p.arg
    let bs := s.blocksCarried sl p.pitch p.chunk
    let g := match c with | some c => s.gradients sl p.pitch p.chunk c | none => ([], 0)
    let ws := (indexed bs).map (fun b => (slotFor md b.2, b.1, b.2))
    let slot := fun (x : Option Nat × Nat × Nat) => (show Option (Nat × StSlot) from
      match x.1 with
      | none => none
      | some n =>
        let ys := ((g.1.drop (1024 * x.2.1)).take (Nat.min 1024 (pol.blockElems x.2.2)))
        some (n, ⟨c.isNone, e.tensor, x.2.2, if c.isNone then [] else ys ++ List.replicate (1024 - ys.length) 0, false⟩))
    (ws.filterMap slot, (ws.filter (fun x => x.1.isNone)).length, g.2)

/-- An UPDATE of station `k` in flight reads slot `n`. -/
def State.slotInUse (s : State) (k n : Nat) : Bool :=
  s.seq.flights.any (fun f => f.pin.op == 14 && f.pin.portq == k && 2 * f.pin.buf ≤ n && n < 2 * f.pin.buf + f.pin.arg)

/-- A slot takes a delivery (Table 8-7): a late or second write is counted. -/
def State.writeSlot (s : State) (k n : Nat) (x : StSlot) : State :=
  let dup := s.slotInUse k n || ((s.station k).slots.find n).isSome
  let s := if dup then s.bump (stationCounter 5) (unitWord 0 k 0) 1 else s
  s.onStation k (fun st => { st with slots := st.slots.put n x })

/-! ### Norm registers (R280) -/

/-- The norm registers of a set. -/
def Station.norm (st : Station) (set which : Nat) : Norm :=
  let n := st.norms.get ⟨Norm.zero, Norm.zero, Norm.zero⟩ set
  if which = 0 then n.g else if which = 1 then n.w else n.d

/-- Squares added into a norm register; a saturation is counted and entered once (R67). -/
def State.addNorm (s : State) (k set which t : Nat) (units : Int) : State :=
  let old := (s.station k).norm set which
  let new := Norm.clamp (old.units + units) old.sat
  let s := s.onStation k (fun st =>
    let n := st.norms.get ⟨Norm.zero, Norm.zero, Norm.zero⟩ set
    { st with norms := st.norms.put set (if which = 0 then { n with g := new } else if which = 1 then { n with w := new } else { n with d := new }) })
  if new.sat ∧ !old.sat then (s.bump 0x20 (unitWord t set 0) 1).dev ⟨0x18, 5, 8 + k, t, set, 0, 1⟩ else s

/-- The sum of a set's register over the stations, with R67 (R282). -/
def State.normSum (s : State) (set which : Nat) : Norm :=
  s.stations.foldl (fun a e => let n := e.2.norm set which; Norm.clamp (a.units + n.units) (a.sat || n.sat)) Norm.zero

/-! ### The step decision (R284 to R287) -/

/-- The clip pitches of the running step: clip entries of the norm picot map whose pitch has a PICOT pin in the step section. -/
def State.clipEnts (s : State) : List NormEnt :=
  s.image.optim.norms.filter (fun e => e.valid && e.clip &&
    (List.range 8).any (fun st => (s.pricking.stream 0 st).any (fun p => p.op == 11 && p.pitch == e.pitch)))

/-- A 48-bit value of a picot SUM as a signed number. -/
def signed48 (v : Nat) : Int := sext 48 v

/-- The recombined registers of a picot result: 25 groups of 20 limbs (R68). -/
def recombine (vals : List Nat) (i : Nat) : Norm :=
  Norm.ofLimbs (((vals.drop (20 * i)).take 20).map signed48)

/-- A step decision: code, deciding row, n, c, F. -/
structure Decision where
  code : Nat
  row : Nat
  n : Nat
  c : Nat
  nf : Nat
  /-- The total S saturated (R67). -/
  sat : Bool
  deriving DecidableEq, Repr

/-- Largest of binary32 values that are not negative. -/
def maxF32 (xs : List Nat) : Nat := maxNat xs

/-- The decision on the clip picots of a step: `sums` are those that ran (map entry, values, incomplete or void), `n` of them
were due (Table 8-6). -/
def decideOn (o : OptimSec) (spikes : List Nat) (due : Nat) (sums : List (NormEnt × List Nat × Bool))
    (forced : Option (Nat × Nat)) : Decision :=
  let parts := sums.flatMap (fun x => (List.range x.1.count).map (recombine x.2.1))
  let tot := parts.foldl (fun (a : Norm) b => Norm.clamp (a.units + b.units) (a.sat || b.sat)) Norm.zero
  let n := fsqrt tot.toF32
  let f := sumNat (sums.map (fun x => nth x.2.1 500 0))
  let row :=
    if sums.length < due ∨ sums.any (fun x => x.2.2) then 1
    else if tot.sat then 2
    else if o.skipNf ∧ f > 0 then 3
    else if o.kappa % 2 ^ 31 ≠ 0 ∧ spikes ≠ [] ∧ fgt n (fmul o.kappa (maxF32 spikes)) then 4
    else 5
  let d := forced.getD (if row = 1 then 1 else if row = 5 then 0 else 2, row)
  let c := if d.1 ≠ 0 then 0 else if o.tau % 2 ^ 31 = 0 ∨ !fgt n o.tau then f32One else fdiv o.tau n
  ⟨d.1, d.2, n, c, f % 2 ^ 32, tot.sat⟩

/-- A decision taken: recorded, its cairn raised, and n kept for the spike history under APPLY (R284, R286). -/
def State.takeDecision (s : State) (d : Decision) : State :=
  let first := match s.clipEnts with | e :: _ => e.pitch | [] => 0
  let s := s.onRec (fun r => { r with decision := some d.code, drow := d.row, n := d.n, c := d.c, nf := d.nf })
  let s := ((s.setReg 0x304000 (d.code + d.row * 32)).setReg 0x304004 d.n).setReg 0x304008 d.c
  let s := if d.sat then (s.bump 0x20 (unitWord 0 0 first) 1).dev ⟨0x18, 5, 33, first, 0, 0, 1⟩ else s
  let s :=
    if d.code = 0 ∧ s.clipEnts ≠ [] then
      let l := s.spikes ++ [d.n]
      { s with spikes := l.drop (l.length - Nat.max 1 s.image.optim.spikeH) }
    else s
  if d.row = 1 then s.raise 0x0D (source 3 1) 2 first 1
  else if d.row = 2 ∨ d.row = 4 then s.raise 0x13 (source 3 1) 0 d.n d.row
  else if d.row = 3 then s.raise 0x12 (source 3 1) 0 0xFFFFFFFF d.nf
  else s

/-! ### The update (R288 to R293) -/

/-- The constants of an UPDATE. -/
structure UpdConst where
  /-- Stepping A1 flushes subnormals (R292). -/
  flush : Bool
  c : Nat
  lr : Nat
  lam : Nat
  beta1 : Nat
  beta2 : Nat
  eps : Nat
  b1 : Nat
  b2 : Nat
  deriving DecidableEq, Repr

/-- A subnormal flushed to zero of its sign, where the stepping flushes (R292). -/
def flushTo (fl : Bool) (x : Nat) : Nat := if fl && field x 30 23 == 0 then x / 2 ^ 31 * 2 ^ 31 else x

/-- `pow(beta, n)` of R289: from bit `k - 1` of n down. -/
def powFrom (fl : Bool) (beta n : Nat) : Nat → Nat → Nat
  | 0, y => y
  | k + 1, y =>
    let y := flushTo fl (fmul y y)
    powFrom fl beta n k (if flag n k then flushTo fl (fmul y beta) else y)

/-- `pow(beta, n)` of R289. -/
def biasPow (fl : Bool) (beta n : Nat) : Nat := powFrom fl beta n (bitlen n) f32One

/-- The constants of an UPDATE of a tensor at a step (R275, R288, R289). -/
def updConst (fl : Bool) (cl : OptClass) (e : OptEnt) (step c sched : Nat) : UpdConst :=
  let n := step - cl.t0 + 1
  let z := flushTo fl
  { flush := fl, c := if e.noclip then f32One else c, lr := z (fmul sched cl.lrMult), lam := if e.nodecay then 0 else cl.lambda,
    beta1 := cl.beta1, beta2 := cl.beta2, eps := cl.eps,
    b1 := if cl.mode = 1 then f32One else z (fsub f32One (biasPow fl cl.beta1 n)),
    b2 := if cl.mode = 1 then f32One else z (fsqrt (z (fsub f32One (biasPow fl cl.beta2 n)))) }

/-- d, and the new moments, of one parameter (R288). -/
def updElem (k : UpdConst) (g pv m s : Nat) : Nat × Nat × Nat :=
  let z := flushTo k.flush
  let mul := fun a b => z (fmul a b)
  let add := fun a b => z (fadd a b)
  let gc := mul k.c g
  let m' := add (mul k.beta1 m) (mul (z (fsub f32One k.beta1)) gc)
  let v := add (mul k.beta2 (mul s s)) (mul (z (fsub f32One k.beta2)) (mul gc gc))
  let s' := z (fsqrt v)
  let u := z (fdiv (z (fdiv m' k.b1)) (add (z (fdiv s' k.b2)) k.eps))
  let d := z (fsub (fneg (mul k.lr u)) (mul (mul k.lr k.lam) pv))
  (d, m', s')

/-- d under the lazy rule 2: decay alone (R293). -/
def lazyElem (k : UpdConst) (pv : Nat) : Nat :=
  let z := flushTo k.flush
  fneg (z (fmul (z (fmul k.lr k.lam)) pv))

/-- A value that is to be written: the largest finite one for an overflow, zero for a NaN (R291); and whether it was replaced. -/
def finite (x : Nat) : Nat × Bool :=
  if field x 30 23 = 255 ∧ field x 22 0 ≠ 0 then (0, true) else f32Sat x

/-- A stored parameter's value (R70 for FORM 0). -/
def paramValue (form : Nat) (bs : List Byte) : Nat :=
  if form = 0 then fadd (bf16Widen (bytesAt bs 0 2)) (bf16Widen (bytesAt bs 2 2))
  else if form = 1 then bf16Widen (bytesAt bs 0 2)
  else bytesAt bs 0 4

/-- Bytes of a parameter in storage (R274). -/
def formBytes (form : Nat) : Nat := if form = 1 then 2 else 4

/-- A parameter written with d (R71, R72, R288): its bytes, its value, whether it saturated and whether it was non-finite. -/
def paramWrite (fl : Bool) (form : Nat) (bs : List Byte) (d w : Nat) : List Byte × Nat × Bool × Bool :=
  let z := flushTo fl
  if form = 0 then
    let p := z (paramValue 0 bs)
    let p2 := z (fadd p d)
    let nf := finite p2
    let nan := nf.2 && nf.1 == 0
    let h := bf16Round p2
    let r := if nan then (0, 0, false)
      else if h % 2 ^ 15 ≥ 0x7F80 then (h / 2 ^ 15 * 2 ^ 15 + 0x7F7F, 0, true)
      else (h, bf16Round (z (fsub p2 (bf16Widen h))), false)
    (leBytes 2 r.1 ++ leBytes 2 r.2.1, fadd (bf16Widen r.1) (bf16Widen r.2.1), r.2.2 || nf.2, nf.2)
  else
    let x := z (fadd (paramValue form bs) d)
    let nf := finite x
    if form = 1 then
      let r := bf16Stoch nf.1 w
      (leBytes 2 r.1, bf16Widen r.1, r.2 || nf.2, nf.2)
    else (leBytes 4 nf.1, nf.1, nf.2, nf.2)

/-- What an UPDATE does to one MX block of 32 parameters. -/
structure MxUpd where
  writes : List (Nat × List Byte)
  w : Int
  d : Int
  updated : Nat
  saturated : Nat
  nonfinite : Nat
  floors : Nat
  unreadable : Nat
  fault : Bool
  deriving DecidableEq, Repr, Inhabited

/-- The addresses of an MX block: parameters, first and second moments. -/
structure MxAt where
  form : Nat
  param : Nat
  m1 : Nat
  m2 : Nat
  /-- Index of its first element in the tensor, and elements that the tensor has there. -/
  first : Nat
  elems : Nat
  deriving DecidableEq, Repr

/-- One MX block updated (R288, R290, R291). `decay` is the lazy rule 2. -/
def State.updateMx (s : State) (k : UpdConst) (t : Nat) (decay : Bool) (a : MxAt) (gs : List Nat) : MxUpd :=
  let z := formBytes a.form
  let n := a.elems
  if s.hbmFaulty a.param (z * n) ∨ s.hbmFaulty a.m1 33 ∨ s.hbmFaulty a.m2 33 then { (default : MxUpd) with fault := true }
  else
    let ps := pieces z (s.hbmRead a.param (z * n))
    let m := mxRead true (s.hbmRead a.m1 33)
    let v := mxRead false (s.hbmRead a.m2 33)
    let upd := (indexed ps).map (fun p =>
      let pv := paramValue a.form p.2
      if decay then (lazyElem k pv, nth m.1 p.1 0, nth v.1 p.1 0) else updElem k (nth gs p.1 0) pv (nth m.1 p.1 0) (nth v.1 p.1 0))
    let draws := fun use => (List.range 32).map (fun i => draw s.seed use t s.seq.step (a.first + i))
    let ws := (indexed (ps.zip upd)).map (fun p => paramWrite k.flush a.form p.2.1 p.2.2.1 (draw s.seed 3 t s.seq.step (a.first + p.1)))
    let fm := upd.map (fun u => finite u.2.1)
    let fv := upd.map (fun u => finite u.2.2)
    let pad := fun (xs : List Nat) => xs ++ List.replicate (32 - xs.length) 0
    let w1 := mxWrite true (pad (fm.map (·.1))) (draws 1)
    let w2 := mxWrite false (pad (fv.map (·.1))) (draws 2)
    let mw := if decay then [] else [(a.m1, w1.1), (a.m2, w2.1)]
    let mnf := if decay then 0 else (fm.filter (·.2)).length + (fv.filter (·.2)).length
    { writes := (a.param, ws.flatMap (·.1)) :: mw
      w := sumNat (ws.map (fun x => squareUnits x.2.1))
      d := sumNat (upd.map (fun u => squareUnits (finite u.1).1))
      updated := n
      saturated := (ws.filter (fun x => x.2.2.1)).length + mnf
      nonfinite := (ws.filter (fun x => x.2.2.2)).length + mnf
      floors := if decay then 0 else ofBool w1.2 + ofBool w2.2
      unreadable := ofBool m.2 + ofBool v.2
      fault := false }

/-- The extent of a tensor that holds parameter block `b`. -/
def OptimSec.extentOf (o : OptimSec) (e : OptEnt) (b : Nat) : Extent :=
  (((o.extents.drop e.extFirst).take e.extCount).find? (fun x => x.first ≤ b ∧ b < x.first + x.count)).getD default

/-- Elements of a parameter block: those of the policy entry, or a whole block without one. -/
def Image.paramElems (im : Image) (t b : Nat) : Nat :=
  let pol := im.policyOf t
  if pol.elems = 0 then 1024 else Nat.min 1024 (pol.elems - 1024 * b)

/-- The MX blocks of parameter block `b` that hold elements. -/
def State.mxBlocks (s : State) (t b : Nat) : List MxAt :=
  let e := s.image.optim.entries.get default t
  let x := s.image.optim.extentOf e b
  let j := b - x.first
  let n := s.image.paramElems t b
  (List.range (ceilDiv n 32)).map (fun m =>
    { form := e.form, param := x.pbase + (1024 * j + 32 * m) * formBytes e.form, m1 := x.mbase + 1056 * j + 33 * m,
      m2 := x.mbase + 1056 * (x.count + j) + 33 * m, first := 1024 * b + 32 * m, elems := Nat.min 32 (n - 32 * m) })

/-- The parameter bytes of a block: address and length. -/
def State.paramBytes (s : State) (t b : Nat) : Nat × Nat :=
  let e := s.image.optim.entries.get default t
  let x := s.image.optim.extentOf e b
  (x.pbase + (b - x.first) * 1024 * formBytes e.form, 1024 * formBytes e.form)

/-- The addend of a block in the shard checksum, from its parameter bytes (R298). -/
def shardAddend (t b : Nat) (bs : List Byte) : Nat := ((t * 2 ^ 26 + b) % 2 ^ 32) * 2 ^ 32 + crc32c bs

/-- Bytes of HBM after writes that are to land. -/
def overlay (a : Nat) (bs : List Byte) (ws : List (Nat × List Byte)) : List Byte :=
  (indexed bs).map (fun x => ws.foldl (fun v w =>
    if w.1 ≤ a + x.1 ∧ a + x.1 < w.1 + w.2.length then nth w.2 (a + x.1 - w.1) v else v) x.2)

/-- The expert of a tensor has no visit in the step, by the visit table (R265, R293). -/
def State.unvisited (s : State) (t : Nat) : Bool :=
  match s.image.routed.experts.find t with
  | none => false
  | some (l, e) =>
    let a := (s.image.layerOf l).visit + 8 * e
    let v := s.hbmNat a 8
    !s.hbmFaulty a 8 && field v 47 0 == 0 && !flag v 63

/-- One block of an UPDATE under APPLY: what becomes visible at its completion, and its entries. -/
def State.updateBlock (s : State) (k t slot : Nat) (uc : UpdConst) (b : Nat) : List Upd :=
  let im := s.image
  let e := im.optim.entries.get default t
  let u := fun i n => (if n = 0 then [] else [Upd.count (stationCounter i) (unitWord t 0 0) n])
  let num := fun row n => (if n = 0 then [] else [Upd.count (4 * row) (unitWord t 0 0) n])
  let sum := fun ws => (show List Upd from
    let a := s.paramBytes t b
    [Upd.shard (shardAddend t b (overlay a.1 (s.hbmRead a.1 a.2) ws))])
  let held := fun d row => u row 1 ++ [Upd.dev ⟨0x22, d, 8 + k, t, b, 0, 0⟩] ++ sum []
  let go := fun (gs : List Nat) (extra : List Upd) => (show List Upd from
    let lazy := if e.lazy ≠ 0 ∧ s.unvisited t then e.lazy else 0
    if lazy = 1 then extra ++ u 4 1 ++ sum []
    else
      let xs := (s.mxBlocks t b).map (fun a => s.updateMx uc t (lazy == 2) a ((gs.drop (a.first - 1024 * b)).take 32))
      let faults := (xs.filter (·.fault)).length
      let ws := xs.flatMap (·.writes)
      extra ++ (if lazy = 2 then u 4 1 else []) ++ ws.map (fun w => Upd.mem w.1 w.2)
        ++ [Upd.norm k e.nset 1 t (xs.foldl (fun a x => a + x.w) 0), Upd.norm k e.nset 2 t (xs.foldl (fun a x => a + x.d) 0)]
        ++ u 0 (sumNat (xs.map (·.updated))) ++ num 9 (sumNat (xs.map (·.saturated))) ++ num 10 (sumNat (xs.map (·.floors)))
        ++ num 11 (sumNat (xs.map (·.unreadable))) ++ u 7 (sumNat (xs.map (·.nonfinite)))
        ++ (if faults = 0 then [] else
            [Upd.count (stationCounter 6) (unitWord 0 k 0) faults, Upd.dev ⟨0x22, 3, 8 + k, t, b, 0, 0⟩,
             Upd.cairn ⟨0x08, source 7 k, 0, 11, (s.paramBytes t b).1 / 4096⟩])
        ++ sum ws)
  match (s.station k).slots.find slot with
  | some x => if x.missing then held 1 1 else go x.data []
  | none => if e.emptyz then go [] (u 3 1) else held 2 2

/-- What an UPDATE makes visible (R278, R287, R288, R298): `apply` says that the decision is APPLY. -/
def State.updateUpds (s : State) (p : Pin) (apply : Bool) (c : Nat) : List Upd :=
  let t := p.pitch
  let k := p.portq
  let o := s.image.optim
  let e := o.entries.get default t
  let cl := o.classes.get default e.cls
  let blocks := (List.range p.arg).map (· + p.chunk)
  let free := (List.range p.arg).map (fun i => Upd.unslot k (2 * p.buf + i))
  if !apply ∨ cl.t0 > s.seq.step then
    blocks.map (fun b => let a := s.paramBytes t b; Upd.shard (shardAddend t b (s.hbmRead a.1 a.2))) ++ free
  else
    let idx := Nat.min (s.seq.step - cl.t0) (o.schedLen - 1)
    let uc := updConst (decide (Config.stepping = 1)) cl e s.seq.step c (s.hbmNat (o.schedBase + 4 * idx) 4)
    blocks.flatMap (fun b => s.updateBlock k t (2 * p.buf + (b - p.chunk)) uc b) ++ free

end Sys2Proof.Machine
end

