-- ==== Sys2Proof/Machine/Picots.lean ====
section
/-! DEFINITION. Picots (R132, R145, R146): what a picot's L0 round loads (R49, R264, R282), its package rounds, the inputs it
accepts, its end, and what is recorded then (R49, R284). -/

namespace Sys2Proof.Machine

/-! ### What the L0 round loads -/

/-- The entry of the scale picot map of a pitch (R49). -/
def Image.scaleEnt (im : Image) (pitch : Nat) : Option ScaleEnt := im.config.scales.find? (fun e => e.valid && e.pitch == pitch)

/-- The entry of the norm picot map of a pitch (R281). -/
def Image.normEnt (im : Image) (pitch : Nat) : Option NormEnt := im.optim.norms.find? (fun e => e.valid && e.pitch == pitch)

/-- The routed layer, and the first expert, of a visit-count picot (R264). -/
def Image.visitPicot (im : Image) (pitch : Nat) : Option (Nat × Nat) :=
  (im.routed.layers.find? (fun e => e.2.valid && e.2.vpitch ≤ pitch && pitch < e.2.vpitch + ceilDiv e.2.x 512)).map
    (fun e => (e.1, 512 * (pitch - e.2.vpitch)))

/-- The local visit count of global expert `e`, where this engine holds it (R238, R263, R264). -/
def State.visitCount (s : State) (l e : Nat) : Nat :=
  let im := s.image
  let d := im.layerOf l
  let p := Nat.max 1 (im.routedP d)
  if e < d.x ∧ e / p = (im.group d.group).rank s.coord then Nat.min (s.tok.visits.get 0 (l * 1024 + e % p)) (2 ^ 31 - 1) else 0

/-- The 512 values that a picot's L0 round leaves: the slices' contributions added, or their maximum (R49, R132, R264, R282). -/
def State.picotLoad (s : State) (pitch : Nat) : List Nat :=
  let im := s.image
  let r := s.pricking.pitchAt pitch
  if r.kind = 3 then
    match im.scaleEnt pitch with
    | none => List.replicate 512 0
    | some e =>
      (List.range 512).map (fun i =>
        if i ≥ e.count then 0
        else if e.level then s.levelMax.get 0 (unitKey e.tensor (e.first + i))
        else maxNat (s.slices.map (fun sl => (sl.tensors.get default e.tensor).localMax.get 0 (e.first + i))))
  else
    match im.normEnt pitch with
    | some e =>
      let sums := (List.range e.count).map (fun i => s.normSum (e.first + i) e.type)
      (List.range 512).map (fun i =>
        if i < 20 * e.count then twos 48 ((nth sums (i / 20) Norm.zero).limb (i % 20))
        else if i = 500 ∧ e.clip then Nat.min s.srec.nfLocal (2 ^ 31 - 1)
        else 0)
    | none =>
      match im.visitPicot pitch with
      | some (l, e0) => (List.range 512).map (fun i => s.visitCount l (e0 + i))
      | none => List.replicate 512 0

/-! ### Picots in progress -/

/-- The picot of a pitch. -/
def State.picot (s : State) (pitch : Nat) : Option PicotSt := s.seq.picots.find? (fun p => p.pitch = pitch)

/-- The picot of a pitch changed. -/
def State.onPicot (s : State) (pitch : Nat) (f : PicotSt → PicotSt) : State :=
  { s with seq := { s.seq with picots := s.seq.picots.map (fun p => if p.pitch = pitch then f p else p) } }

/-- Two vectors combined: sums of signed 48-bit values, or maxima of unsigned ones (R145). -/
def picotCombine (max_ : Bool) (xs ys : List Nat) : List Nat :=
  (xs.zip ys).map (fun e => if max_ then Nat.max e.1 e.2 else (e.1 + e.2) % 2 ^ 48)

/-- The package rounds of a picot pitch. -/
def State.picotRounds (s : State) (pitch : Nat) : List (Nat × Nat) :=
  (s.image.group (s.pricking.pitchAt pitch).group).picotRounds

/-- The group ranks whose vectors a package round brings (R145). -/
def State.picotSources (s : State) (pitch round : Nat) : List Nat :=
  let g := s.image.group (s.pricking.pitchAt pitch).group
  let rd := nth (s.picotRounds pitch) (round - 1) (0, 0)
  let mine := g.digits s.coord
  if rd.1 = 1 then
    ((List.range (g.axis 1).ext).filter (fun j => j ≠ nth mine 0 0)).map (fun j => g.rank (g.at_ s.coord (mine.set 0 j)))
  else [g.rank (g.at_ s.coord (mine.modify (rd.1 - 1) (fun i => i ^^^ 2 ^ rd.2)))]

/-- An expected input of a picot is in. -/
def PicotSt.has (p : PicotSt) (e : Nat × Nat) : Bool := p.inputs.any (fun i => i.round == e.1 && i.rank == e.2)

/-- The chunk that a picot's buffer holds. -/
def State.picotChunk (s : State) (p : PicotSt) : Chunk :=
  { nullChunk 2 0 512 s.seq.step (s.pricking.pitchAt p.pitch).routed false with null := false, dev := p.dev, data := pack48 p.vals }

/-- The buffer of a picot takes its vector. -/
def State.showPicot (s : State) (pitch : Nat) : State :=
  match s.picot pitch with
  | none => s
  | some p => s.setBuf p.slice p.buf .ready (s.picotChunk p)

/-- The step decision is formed once every clip picot of the step has ended (R284). In replay mode it is the recorded one. -/
def State.decideIfDue (s : State) : State :=
  let es := s.clipEnts
  let done := es.filterMap (fun e => match s.picot e.pitch with
    | some p => if p.done then some (e, p.vals, p.dev) else none
    | none => none)
  if s.srec.decision.isNone ∧ es ≠ [] ∧ done.length = es.length then
    s.takeDecision (decideOn s.image.optim s.spikes es.length done s.req.replayDecision)
  else s

/-- History entries from a picot MAX that has ended: unsettled where it is incomplete (R48, R49). -/
def State.recordMax (s : State) (p : PicotSt) : State :=
  match s.image.scaleEnt p.pitch with
  | none => s
  | some e =>
    (List.range e.count).foldl (fun s i =>
      let v := if p.dev then none else some (Int.ofNat (nth p.vals i 0))
      if e.level then s.recordLevel e.tensor (e.first + i) v else s.recordScale e.tensor (e.first + i) v) s

/-- A picot ends (R49, R146, R284). -/
def State.endPicot (s : State) (pitch : Nat) : State :=
  match s.picot pitch with
  | none => s
  | some p =>
    if p.done then s
    else
      let s := s.onPicot pitch (fun p => { p with done := true, expect := [] })
      let s := s.showPicot pitch
      let s := if (s.pricking.pitchAt pitch).kind = 3 then s.recordMax p else s
      s.decideIfDue

/-- A picot ends where its last round has landed with every input in. -/
def State.endPicotIfWhole (s : State) (pitch : Nat) : State :=
  match s.picot pitch with
  | none => s
  | some p => if p.landed ≥ (s.picotRounds pitch).length ∧ p.expect.all p.has then s.endPicot pitch else s

/-- Inputs still expected of rounds up to `upto` are judged missing (Table 5-9): the result is incomplete (R146). -/
def State.judgePicot (s : State) (pitch upto : Nat) : State :=
  match s.picot pitch with
  | none => s
  | some p =>
    let lost := p.expect.filter (fun e => e.1 ≤ upto && !p.has e)
    let s := lost.foldl (fun s e =>
      s.slotDev p.slice 0x01 0 pitch e.1 e.2 0) s
    s.onPicot pitch (fun p => { p with dev := p.dev || lost ≠ [], expect := p.expect.filter (fun e => e.1 > upto) })

/-- A pin reads the picot buffer of a slice: its last round is judged, and the picot ends (Table 5-9). -/
def State.readPicot (s : State) (sl u : Nat) : State :=
  match s.seq.picots.find? (fun p => p.slice = sl ∧ p.buf = u ∧ !p.done) with
  | none => s
  | some p =>
    if p.landed ≥ (s.picotRounds p.pitch).length then (s.judgePicot p.pitch p.round).endPicot p.pitch else s

/-- The L0 round of a picot issues (R132). A further L0 pin of the pitch in the step adds nothing: the first took every
slice's values. -/
def State.startPicot (s : State) (sl : Nat) (p : Pin) (void : Bool) : State :=
  if (s.picot p.pitch).isSome then s
  else
    let v := s.picotLoad p.pitch
    { s with seq := { s.seq with picots := s.seq.picots ++
        [⟨p.pitch, sl, p.buf, 0, 0, v, v, void, [], [], void, false⟩] } }

/-- A package round issues: rounds before it are judged, its base is fixed and its inputs are expected (R145). -/
def State.openRound (s : State) (p : Pin) (void : Bool) : State :=
  let s := s.judgePicot p.pitch (p.chunk - 1)
  s.onPicot p.pitch (fun q =>
    let first := q.round < p.chunk
    let q := { q with dev := q.dev || void, void := q.void || void }
    if first then
      { q with round := p.chunk, base := q.vals,
               expect := q.expect ++ (if void then [] else (s.picotSources p.pitch p.chunk).map (fun r => (p.chunk, r))) }
    else q)

/-- The packets of a package round's pin: the whole vector as it stood when the round began (R145). -/
def State.picotPackets (s : State) (p : Pin) : List (List Byte) :=
  match s.picot p.pitch with
  | none => []
  | some q =>
    let r := s.pricking.pitchAt p.pitch
    let rd := nth (s.picotRounds p.pitch) (p.chunk - 1) (0, 0)
    let dst := s.picotPartner (s.image.group r.group) rd p.portq
    let c := { s.picotChunk q with data := pack48 q.base }
    chunkPackets 1 r.group s.coord dst p.pitch p.chunk s.seq.step (c.data ++ trailerBytes c p.pitch p.chunk)

/-- A round lands (Table 5-6). -/
def State.landPicot (s : State) (pitch round : Nat) : State :=
  ((s.onPicot pitch (fun p => { p with landed := Nat.max p.landed round })).showPicot pitch).endPicotIfWhole pitch

/-- A picot vector arrives (R136, R145): added to the round that expects it; one that comes before its round's pin is discarded
(R178), and one whose round has been judged is late. -/
def State.picotInput (s : State) (src : Nat) (pitch round : Nat) (whole : List Byte) : State :=
  let r := s.pricking.pitchAt pitch
  let rank := s.image.rankOf r.group src
  match s.picot pitch with
  | none => s
  | some p =>
    if round > p.round ∨ p.void then s
    else
      match s.checkChunk p.slice pitch round false none whole with
      | .error f => (s.chunkFailed p.slice pitch round rank f).slotDev p.slice f.dev.1 f.dev.2 pitch round rank 0
      | .ok c =>
        if c.step ≠ s.seq.step then s.slotDev p.slice 0x08 0 pitch round rank 0
        else if p.has (round, rank) then s.duplicate
        else if !p.expect.contains (round, rank) then s.slotDev p.slice 0x08 0 pitch round rank 0
        else
          let vs := (unpack48 c.data).take 512
          let vs := vs ++ List.replicate (512 - vs.length) 0
          let vs := if c.null then List.replicate 512 0 else vs
          let s := s.onPicot pitch (fun p =>
            { p with vals := picotCombine (r.kind == 3) p.vals vs, dev := p.dev || c.dev,
                     inputs := p.inputs ++ [⟨round, rank, vs, c.dev, bytesAt (whole.drop (whole.length - 32)) 8 4⟩] })
          (s.showPicot pitch).endPicotIfWhole pitch

/-- The bytes that a DELIVER to HBM writes of a picot buffer (R265, R283). -/
def State.picotBytes (s : State) (p : PicotSt) : List Byte :=
  match s.image.normEnt p.pitch with
  | some e =>
    (List.range e.count).flatMap (fun i =>
      let n := recombine p.vals i
      let v := n.toF32
      leBytes 80 (twos 640 n.units) ++ leBytes 4 v ++ leBytes 4 (fsqrt v) ++ leBytes 1 (ofBool p.dev + 2 * ofBool n.sat) ++ zeros 7)
  | none => p.vals.flatMap (fun v => leBytes 8 (v % 2 ^ 48 + ofBool p.dev * 2 ^ 63))

end Sys2Proof.Machine
end

