-- ==== Sys2Proof/Machine/Collective.lean ====
section
/-! DEFINITION. The pins of the collectives (chapter The Pricking, Table 5-3): SEND in its five kinds (R131, R169, R184, R186, R295),
EXPECT (R176, R178), REDUCE (R148) and REQUANT (R58). -/

namespace Sys2Proof.Machine

/-! ### Shared -/

/-- A pin is about to read a buffer: a gather chunk or a picot that it decides is judged first (Table 5-9). -/
def State.judgeRead (s : State) (sl u : Nat) : State := (s.judge sl u).readPicot sl u

/-- A chunk and its trailer, as they travel (R315). -/
def Chunk.whole (c : Chunk) (pitch chunk : Nat) : List Byte := c.data ++ trailerBytes c pitch chunk

/-- The part of a pin's flight that is not the pin's own completion: its pin counts in no group queue and releases nothing. -/
def Issue.side (x : Issue) : Issue := { x with pin := { x.pin with op := 0, release := false } }

/-! ### SEND -/

/-- What a data SEND takes from its buffer: the chunk, and the raw buffer that stands in for a coded one (R169). -/
def State.sendSource (s : State) (sl : Nat) (p : Pin) : Option Chunk × Option Nat :=
  match s.buf sl p.buf with
  | none => (none, none)
  | some b =>
    if b.st = .ready then (some b.chunk, none)
    else
      match b.rawOf with
      | some u => if p.coded then (s.chunkAt sl u, some u) else (none, none)
      | none => (none, none)

/-- A chunk leaves by a port at the pin's completion, or crosses to another slice (R131, R132). -/
def State.sendChunk (s : State) (st : Nat) (x : Issue) (c : Chunk) (upds : List Upd) : State :=
  let p := x.pin
  let r := s.pitchOf p
  if p.portq = 36 then
    let d := if p.coded then ceilDiv r.bytes 384 else 0
    (s.flyHeld st x false upds).fly st x.side (20 + 6 + Nat.max (pinWire s.image s.pricking p) d + 14) false
      [.cross p.pitch p.chunk (c.whole p.pitch p.chunk)]
  else
    let dst := s.sendDest r p.portq p.chunk
    let pk := chunkPackets 0 r.group s.coord dst p.pitch p.chunk s.seq.step (c.whole p.pitch p.chunk)
    s.flyHeld st x false ((if s.upTowards p.portq dst then [.send p.portq pk] else []) ++ upds)

/-- SEND_DATA (R169, R174). -/
def State.sendDataPin (s : State) (stream : Nat) (x : Issue) : State :=
  let p := x.pin
  let s := s.judgeRead stream p.buf
  let cond := firstRow (s.portBusy stream x || s.resBusy (pinRes stream p)) false (!s.readable stream p.buf)
  s.issuePin stream x cond (fun s void =>
    if void then s.flyHeld stream x true (releaseUpd stream p)
    else
      let s := s.takePort stream x
      match s.sendSource stream p with
      | (some c, raw) =>
        s.sendChunk stream x c (releaseUpd stream p ++ (match raw with
          | some u => if p.release then [.free stream u] else []
          | none => []))
      | (none, _) => (s.gapIf stream p).flyHeld stream x false (releaseUpd stream p))

/-- The row SEND_DATA. -/
def execSendData (stream : Nat) (s : State) : Host.Outcome State Fault Refusal :=
  answer s (s.runPin stream (fun p => p.isSend 0) (fun x s => s.sendDataPin stream x))

/-- SEND_FORWARD_WINDOW (R131): the port is held for the packets that pass through. -/
def State.sendForwardWindowPin (s : State) (stream : Nat) (x : Issue) : State :=
  s.issuePin stream x (firstRow (s.portBusy stream x) false false) (fun s void =>
    (if void then s else s.takePort stream x).flyHeld stream x void [])

/-- The row SEND_FORWARD_WINDOW. -/
def execSendForwardWindow (stream : Nat) (s : State) : Host.Outcome State Fault Refusal :=
  answer s (s.runPin stream (fun p => p.isSend 1) (fun x s => s.sendForwardWindowPin stream x))

/-- The copy that answers a held prusik request (R149): PRUSIK set, PITCH and CHUNK the requester's. -/
def State.prusikCopy (s : State) (r : PrusikHeld) (c : Chunk) : List (List Byte) :=
  let c := { c with prusik := true }
  chunkPackets 0 r.group s.coord r.from_ r.rpitch r.rchunk s.seq.step (c.whole r.rpitch r.rchunk)

/-- SEND_PRUSIK_ANSWER_WINDOW (R149, R150, R184): the window carries the copy where a request waits and the buffer holds it. -/
def State.sendPrusikAnswerWindowPin (s : State) (stream : Nat) (x : Issue) : State :=
  let p := x.pin
  s.issuePin stream x (firstRow (s.portBusy stream x) false false) (fun s void =>
    if void then s.flyHeld stream x true []
    else
      let s := s.takePort stream x
      let stop := 20 + crossing stream p.portq + pinWire s.image s.pricking p
      let s := s.onSlice stream (fun sl => { sl with bufs := sl.bufs.map (fun e =>
        if e.1 = p.buf then (e.1, { e.2 with holdUntil := Nat.max e.2.holdUntil (s.count + stop) }) else e) })
      let mine := fun (r : PrusikHeld) => !r.answered && r.pitch == p.pitch && r.chunk == p.chunk &&
        (match s.route s.coord r.from_ with | some q => q.1 == p.portq | none => false)
      let s := s.flyHeld stream x false []
      match (s.slice stream).prusik.find? mine, s.chunkAt stream p.buf with
      | some r, some c =>
        let s := s.onSlice stream (fun sl => { sl with prusik := sl.prusik.map (fun y => if y = r then { y with answered := true } else y) })
        if s.upTowards p.portq r.from_ then s.fly stream x.side stop false [.send p.portq (s.prusikCopy r c)] else s
      | _, _ => s)

/-- The row SEND_PRUSIK_ANSWER_WINDOW. -/
def execSendPrusikAnswerWindow (stream : Nat) (s : State) : Host.Outcome State Fault Refusal :=
  answer s (s.runPin stream (fun p => p.isSend 2) (fun x s => s.sendPrusikAnswerWindowPin stream x))

/-- SEND_ARM_GROUND_QUEUE (R186, Table 10-12). -/
def State.sendArmGroundQueuePin (s : State) (stream : Nat) (x : Issue) : State :=
  s.issuePin stream x 0 (fun s void => s.flyHeld stream x void (if void then [] else [.arm x.pin.portq]))

/-- The row SEND_ARM_GROUND_QUEUE. -/
def execSendArmGroundQueue (stream : Nat) (s : State) : Host.Outcome State Fault Refusal :=
  answer s (s.runPin stream (fun p => p.isSend 3) (fun x s => s.sendArmGroundQueuePin stream x))

/-- The tensor whose object a memory descriptor covers: that of the SURVEY pin that writes the object (R228, R295). -/
def Pricking.objectTensor (pk : Pricking) (base : Nat) : Option Nat :=
  ((List.range 3).flatMap (fun sec => (List.range 8).flatMap (fun st => (pk.stream sec st).filterMap (fun p =>
    if p.op = 8 ∧ (pk.mdescAt (p.arg + 1)).base = base then some p.pitch else none)))).head?

/-- The chunk of an object that a memory-sourced SEND carries (R295), or none where its bytes cannot be read. -/
def State.memChunk (s : State) (p : Pin) : Option Chunk :=
  let r := s.pitchOf p
  let md := s.pricking.mdescAt p.buf
  let a := md.base + p.chunk * r.bytes
  let n := Nat.min r.bytes (md.length - p.chunk * r.bytes)
  let form := match s.pricking.objectTensor md.base with
    | some t => (s.image.optim.entries.get default t).form
    | none => 0
  let fmt := if form = 2 then 0 else 1
  if s.hbmFaulty a n then none
  else some { nullChunk 1 fmt (n / rawElemBytes fmt) s.seq.step r.routed false with null := false, data := s.hbmRead a n }

/-- MEMORY_SOURCED_SEND (R295). -/
def State.memorySourcedSendPin (s : State) (stream : Nat) (x : Issue) : State :=
  let p := x.pin
  let cond := firstRow (s.portBusy stream x || s.resBusy [.movers stream]) false false
  s.issuePin stream x cond (fun s void =>
    if void then s.flyHeld stream x true []
    else
      let s := (s.takePort stream x).occupy [.movers stream] s.count (s.count + s.latency stream p)
      match s.memChunk p with
      | some c => s.sendChunk stream x c []
      | none => (s.hbmError (sliceSource 7 stream) (s.pricking.mdescAt p.buf).base).flyHeld stream x false [])

/-- The row MEMORY_SOURCED_SEND. -/
def execMemorySourcedSend (stream : Nat) (s : State) : Host.Outcome State Fault Refusal :=
  answer s (s.runPin stream Pin.isMemSend (fun x s => s.memorySourcedSendPin stream x))

/-! ### EXPECT (R176, R178) -/

/-- The opening of a chunk by an EXPECT of the running step. -/
def State.openOf (s : State) (sl pitch chunk : Nat) : Option Opening :=
  (s.slice sl).opens.find? (fun o => o.pitch = pitch ∧ o.chunk = chunk ∧ o.step = s.seq.step)

/-- A chunk opened: an opening left by an earlier step is replaced. -/
def State.putOpen (s : State) (sl : Nat) (o : Opening) : State :=
  s.onSlice sl (fun x => { x with opens := x.opens.filter (fun y => ¬(y.pitch = o.pitch ∧ y.chunk = o.chunk)) ++ [o] })

/-- Units that an EXPECT claims: 8 bytes for each element of a scatter chunk, else C (Table 5-8). -/
def Pitch.expectUnits (r : Pitch) : Nat := unitsFor (if r.kind = 0 then 8 * r.elems else r.bytes)

/-- A first EXPECT of a chunk: its buffer claimed, its own contribution and carried partials taken. -/
def State.openChunk (s : State) (sl : Nat) (x : Issue) : State :=
  let p := x.pin
  let r := s.pitchOf p
  let scatter := r.kind = 0
  let own := if p.arg = noBuffer then none else s.chunkAt sl p.arg
  let missing := p.arg ≠ noBuffer && own.isNone
  let s := match own with | some c => if c.null then s else s.addWork sl (elemAdds r.owidth c.elems) | none => s
  let start := own.getD (nullChunk 0 r.owidth r.elems s.seq.step r.routed false)
  let s := s.claim sl p.buf r.expectUnits (if scatter then start else default)
  let c := if scatter then s.takeCarried sl p.pitch p.chunk else (s, [])
  let s := c.2.foldl (fun s i => s.addWork sl (elemAdds r.owidth i.chunk.elems)) c.1
  let s := s.putOpen sl { pitch := p.pitch, chunk := p.chunk, buf := p.buf, step := s.seq.step, ports := [p.portq], coded := p.coded,
                          scatter := scatter, own := own, ownMissing := missing, loaded := p.arg ≠ noBuffer, inputs := c.2, fails := [], slots := [], void := false,
                          reduced := false, final := false }
  s.flyHeld sl x false ((if scatter then [.buf sl p.buf .ready start] else []) ++ releaseUpd sl p)

/-- A void EXPECT (Table 5-13): the buffer is taken as MISSING, where the pin could claim it. -/
def State.voidExpect (s : State) (sl : Nat) (x : Issue) : State :=
  let p := x.pin
  let r := s.pitchOf p
  let n := r.expectUnits
  let s := if (s.slice sl).unitsFree p.buf n then (s.claim sl p.buf n default).setBuf sl p.buf .missing default else s
  let s := s.putOpen sl { pitch := p.pitch, chunk := p.chunk, buf := p.buf, step := s.seq.step, ports := [p.portq], coded := p.coded,
                          scatter := r.kind = 0, own := none, ownMissing := true, loaded := p.arg ≠ noBuffer, inputs := [], fails := [], slots := [], void := true,
                          reduced := false, final := false }
  s.flyHeld sl x true (releaseUpd sl p)

/-- EXPECT (R176, R178). A further EXPECT of a chunk in a step adds an arrival port (R127). -/
def State.expectPin (s : State) (stream : Nat) (x : Issue) : State :=
  let p := x.pin
  let r := s.pitchOf p
  match s.openOf stream p.pitch p.chunk with
  | some _ =>
    s.issuePin stream x 0 (fun s void =>
      (if void then s else s.onOpen stream p.pitch p.chunk (fun o => { o with ports := o.ports ++ [p.portq] })).fly stream x 1 void
        (releaseUpd stream p))
  | none =>
    let s := if p.arg = noBuffer then s else s.judgeRead stream p.arg
    let adds := if p.arg = noBuffer then 0 else elemAdds r.owidth r.elems
    let cond := firstRow (s.arrayBehind stream adds) (!(s.slice stream).unitsFree p.buf r.expectUnits)
      (p.arg ≠ noBuffer && !s.readable stream p.arg)
    s.issuePin stream x cond (fun s void => if void then s.voidExpect stream x else s.openChunk stream x)

/-- The row EXPECT. -/
def execExpect (stream : Nat) (s : State) : Host.Outcome State Fault Refusal :=
  answer s (s.runPin stream (fun p => p.op == 2) (fun x s => s.expectPin stream x))

/-! ### REDUCE (R148) -/

/-- The slots of a REDUCE that forms no output: each input's CRC is recorded all the same, and the others are missing. -/
def State.judgeVoid (s : State) (sl : Nat) (o : Opening) : State :=
  (s.slotSources (s.pricking.pitchAt o.pitch) o.chunk o.loaded).foldl (fun s rank =>
    let lost := fun (s : State) (c d : Nat) =>
      (s.slotDev sl c d o.pitch o.chunk rank 0).slotCrc o.pitch o.chunk rank 0 false
    match s.verdict o rank with
    | .add i => s.slotCrc o.pitch o.chunk rank i.crc false
    | .missing c d => lost s c d
    | .pending w => let f := w.getD (0x01, 0); lost s f.1 f.2) s

/-- A REDUCE: the slots judged, and the output formed, or left to the prusik cutoff. -/
def State.reduceChunk (s : State) (sl : Nat) (x : Issue) (o : Opening) : State :=
  let r := s.pitchOf x.pin
  let s := s.addWork sl (elemAdds r.owidth r.elems)
  let s := match s.buf sl o.buf with | some b => s.setBuf sl o.buf .filling b.chunk | none => s
  let j := s.judgeSlots sl o
  if j.2.2.2 = [] then
    let f := j.1.formChunk sl o j.2.1 j.2.2.1
    let s := f.1.onOpen sl o.pitch o.chunk (fun o => { o with reduced := true, final := true, inputs := j.2.1 })
    s.flyHeld sl x false ((match f.2 with | some c => .buf sl o.buf .ready c | none => .buf sl o.buf .missing default) :: releaseUpd sl x.pin)
  else
    let s := j.1.onOpen sl o.pitch o.chunk (fun o => { o with reduced := true, slots := j.2.2.2, inputs := j.2.1 })
    s.flyHeld sl x false (releaseUpd sl x.pin)

/-- The buffer that a void REDUCE names becomes MISSING: it claims what is free, so that the pins that depend on it raise no OVERRUN (R202,
Table 5-13; DEDUCED, log 36). -/
def State.claimMissing (s : State) (sl u n : Nat) : State :=
  if (s.slice sl).unitsFree u n then s.claim sl u n default else s

/-- REDUCE (R148, Table 4-6). -/
def State.reducePin (s : State) (stream : Nat) (x : Issue) : State :=
  let p := x.pin
  let r := s.pitchOf p
  let o := s.openOf stream p.pitch p.chunk
  let opened := match o with | some o => o.void || s.readable stream o.buf | none => false
  let cond := firstRow (s.arrayBehind stream (elemAdds r.owidth r.elems)) false (!opened)
  s.issuePin stream x cond (fun s void =>
    match o with
    | none => (s.claimMissing stream p.buf r.expectUnits).flyHeld stream x true (.buf stream p.buf .missing default :: releaseUpd stream p)
    | some o =>
      if void ∨ o.void then
        let s := (s.judgeVoid stream o).onOpen stream o.pitch o.chunk (fun o => { o with reduced := true, final := true })
        (s.claimMissing stream o.buf r.expectUnits).flyHeld stream x void (.buf stream o.buf .missing default :: releaseUpd stream p)
      else s.reduceChunk stream x o)

/-- The row REDUCE. -/
def execReduce (stream : Nat) (s : State) : Host.Outcome State Fault Refusal :=
  answer s (s.runPin stream (fun p => p.op == 3) (fun x s => s.reducePin stream x))

/-! ### REQUANT (R58, R59) -/

/-- The key of the level residuals of a chunk. -/
def levelKey (pitch chunk : Nat) : Nat := pitch * 2 ^ 24 + chunk

/-- z := P + L of a chunk, saturating at 48 bits (R59); a null pod sum is 0. -/
def State.levelSum (s : State) (p : Pin) (c : Chunk) : List (Int × Bool) :=
  let l := s.levelRes.get [] (levelKey p.pitch p.chunk)
  let n := c.elems
  (List.range n).map (fun i => satTo 48 (nth c.ints i 0 + nth l i 0))

/-- The output of a REQUANT: the Q8 chunk, the new residuals, and the elements clamped. -/
def State.requantChunk (s : State) (p : Pin) (c : Chunk) (z : List Int) : Chunk × List Int × Nat :=
  let e := s.pricking.payload p.pitch p.chunk
  let sh := match e with | some e => s.levelShift e.tensor e.unit | none => none
  let base : Chunk := { c with fmt := 2, result := false, coded := false, prusik := false, step := s.seq.step, elems := z.length }
  match sh with
  | none => ({ base with null := true, data := [], cord := 0 }, z, 0)
  | some sh =>
    let q := z.map (fun v => requantise v sh)
    let ks := q.map (·.1)
    let nul := c.null && ks.all (· == 0)
    ({ base with null := nul, exp := c.exp + sh, data := if nul then [] else packElems 2 ks, cord := cordOf 0 c.routed nul ks },
     q.map (·.2.1), (q.filter (·.2.2)).length)

/-- What a REQUANT of the pod sum `c` makes visible, and its saturations and clamps. -/
def State.requantUpds (s : State) (sl : Nat) (p : Pin) (pod : Option Chunk) (void : Bool) : List Upd × Nat × Nat :=
  match pod with
  | none => ([.buf sl p.buf .missing default], 0, 0)
  | some c =>
    let z := s.levelSum p c
    let sat := (z.filter (·.2)).length
    let zs := z.map (·.1)
    let e := (s.pricking.payload p.pitch p.chunk).getD default
    let mz := maxNat (zs.map Int.natAbs)
    let q := s.requantChunk p c zs
    if void then ([.level p.pitch p.chunk zs e.tensor e.unit mz, .buf sl p.buf .missing default], sat, 0)
    else ([.level p.pitch p.chunk q.2.1 e.tensor e.unit mz, .buf sl p.buf .ready q.1], sat, q.2.2)

/-- REQUANT (R58, R59). -/
def State.requantPin (s : State) (stream : Nat) (x : Issue) : State :=
  let p := x.pin
  let r := s.pitchOf p
  let adds := elemAdds r.owidth r.elems
  let cond := firstRow (s.resBusy [.movers stream] || s.arrayBehind stream adds) false (!s.readable stream p.buf)
  s.issuePin stream x cond (fun s void =>
    let u := s.requantUpds stream p (s.chunkAt stream p.buf) void
    let s := (s.saturated stream 4 3 p.pitch p.chunk u.2.1).bump (4 * 5) (s.chunkUnit p.pitch p.chunk) u.2.2
    let s := if void then s else s.addWork stream adds
    let s := match s.buf stream p.buf with
      | some b => if void ∨ b.st ≠ BufSt.ready then s else s.setBuf stream p.buf .filling b.chunk
      | none => s
    s.flyHeld stream x void u.1)

/-- The row REQUANT. -/
def execRequant (stream : Nat) (s : State) : Host.Outcome State Fault Refusal :=
  answer s (s.runPin stream (fun p => p.op == 4) (fun x s => s.requantPin stream x))

end Sys2Proof.Machine
end

