-- ==== Sys2Proof/Machine/CoderPins.lean ====
section
/-! DEFINITION. The coder's pins: SURVEY of a surveyed object (R228, R229), SURVEY of a carried context (R224), ENCODE (R222) and
DECODE (R230). -/

namespace Sys2Proof.Machine

/-- The context of a SURVEY pin is surveyed. -/
def State.surveyed (s : State) (st : Nat) (p : Pin) : Bool := (s.image.surveyCtx st p).surveyed

/-- A SURVEY pin's row: op 8, by the mode of its context. -/
def State.isSurvey (s : State) (st : Nat) (surveyed : Bool) (p : Pin) : Bool := p.op == 8 && s.surveyed st p == surveyed

/-- A pin of one of the three sweeps (Table 6-7): the object's new survey state, and what the pin writes. -/
def State.sweepPin (s : State) (v : SurveyPin) (u : SurveySt) (p : Pin) (void : Bool) : SurveySt × List Upd :=
  let w := v.sweep p.chunk
  if w.1 = 0 then s.surveyHist v u w.2 p.aux void
  else if w.1 = 1 then s.surveySize v u w.2 void
  else (u, if void then [] else s.surveyEncode v u w.2)

/-- SURVEY of a surveyed context (R228, R229). -/
def State.surveyObjectPin (s : State) (stream : Nat) (x : Issue) : State :=
  let p := x.pin
  let v := s.surveyPin stream p
  let u := (s.ctx stream v.ctx).survey
  s.issuePin stream x (firstRow (s.resBusy (pinRes stream p)) false (v.outOfOrder u p.chunk)) (fun s void =>
    let r := s.sweepPin v u p void
    (s.onCtx stream v.ctx (fun c => { c with survey := r.1 })).flyHeld stream x void r.2)

/-- The row SURVEY. -/
def execSurvey (stream : Nat) (s : State) : Host.Outcome State Fault Refusal :=
  answer s (s.runPin stream (s.isSurvey stream true) (fun x s => s.surveyObjectPin stream x))

/-- SURVEY of a carried context (R224): the table built at the root, into TBUF and the pending slot. A disabled context builds
none, and the install is missed (Table 13-5). -/
def State.surveyCarriedPin (s : State) (stream : Nat) (x : Issue) : State :=
  let p := x.pin
  let v := s.surveyPin stream p
  let ent := s.image.ctxEnt stream v.ctx
  let room := (s.slice stream).unitsFree ent.tbuf 1
  s.issuePin stream x (firstRow (s.resBusy (pinRes stream p)) (!room) false) (fun s void =>
    let s := if room then s.claim stream ent.tbuf 1 default else s
    let miss := (if room then [Upd.buf stream ent.tbuf .missing default] else []) ++ [Upd.install stream v.ctx none]
    if void then s.flyHeld stream x true miss
    else if !p.aux ∨ !s.isRoot ent ∨ (s.ctx stream v.ctx).disable then s.flyHeld stream x false miss
    else
      let rec_ := ((s.ctx stream v.ctx).nextTable ent.split).bytes
      let s := s.onCtx stream v.ctx (fun c => { c with hist := [] })
      s.flyHeld stream x false [.buf stream ent.tbuf .ready (recordChunk s.seq.step rec_), .install stream v.ctx (some rec_)])

/-- The row SURVEY_CARRIED. -/
def execSurveyCarried (stream : Nat) (s : State) : Host.Outcome State Fault Refusal :=
  answer s (s.runPin stream (s.isSurvey stream false) (fun x s => s.surveyCarriedPin stream x))

/-- ENCODE (R222). A void one keeps the number of its raw buffer, which stays held (R169). -/
def State.encodePin (s : State) (stream : Nat) (x : Issue) : State :=
  let p := x.pin
  let n := unitsFor (s.pitchOf p).bytes
  let s := s.judgeRead stream p.buf
  let room := (s.slice stream).unitsFree p.arg n
  s.issuePin stream x (firstRow (s.resBusy (pinRes stream p)) (!room) (!s.readable stream p.buf)) (fun s void =>
    let s := if room then s.claim stream p.arg n default else s
    if void then
      let s := if room then s.onSlice stream (fun sl => { sl with bufs := sl.bufs.map (fun e =>
          if e.1 = p.arg then (e.1, { e.2 with rawOf := some p.buf }) else e) }) else s
      s.flyHeld stream x true (if room then [.buf stream p.arg .missing default] else [])
    else
      let s := s.gapIf stream p
      match s.chunkAt stream p.buf with
      | none => s.flyHeld stream x false (.buf stream p.arg .missing default :: releaseUpd stream p)
      | some c =>
        if c.null then s.flyHeld stream x false (.buf stream p.arg .ready c :: releaseUpd stream p)
        else
          let e := s.encodeChunk stream p.pitch (s.latency stream p) c
          e.1.flyHeld stream x false (.buf stream p.arg .ready e.2.1 :: e.2.2 ++ releaseUpd stream p))

/-- The row ENCODE. -/
def execEncode (stream : Nat) (s : State) : Host.Outcome State Fault Refusal :=
  answer s (s.runPin stream (fun p => p.op == 9) (fun x s => s.encodePin stream x))

/-- A chunk decoded by a pin: the chunk, or how it fails (R230, R504). -/
def State.decodeHeld (s : State) (sl pitch : Nat) (c : Chunk) : Except ChunkFault Chunk :=
  if !c.coded ∨ c.null then .ok { c with coded := false }
  else
    match s.decodeOn sl pitch (elemBytes c.kind c.fmt c.elems) c.data with
    | .ok u => .ok { c with coded := false, data := u }
    | .error .malformed => .error .malformed
    | .error .tableGen => .error .tableGen

/-- DECODE (R230). -/
def State.decodePin (s : State) (stream : Nat) (x : Issue) : State :=
  let p := x.pin
  let n := unitsFor (s.pitchOf p).bytes
  let s := s.judgeRead stream p.buf
  let room := (s.slice stream).unitsFree p.arg n
  s.issuePin stream x (firstRow (s.resBusy (pinRes stream p)) (!room) (!s.readable stream p.buf)) (fun s void =>
    let s := if room then s.claim stream p.arg n default else s
    let lost := (if room then [Upd.buf stream p.arg .missing default] else []) ++ releaseUpd stream p
    if void then s.flyHeld stream x true lost
    else
      let s := s.gapIf stream p
      match s.chunkAt stream p.buf with
      | none => s.flyHeld stream x false lost
      | some c =>
        match s.decodeHeld stream p.pitch c with
        | .ok c => s.flyHeld stream x false (.buf stream p.arg .ready c :: releaseUpd stream p)
        | .error f =>
          let rank := (s.sources (s.pitchOf p) p.chunk).headD 0
          ((s.chunkFailed stream p.pitch p.chunk rank f).slotDev stream f.dev.1 f.dev.2 p.pitch p.chunk rank 0).flyHeld
            stream x false lost)

/-- The row DECODE. -/
def execDecode (stream : Nat) (s : State) : Host.Outcome State Fault Refusal :=
  answer s (s.runPin stream (fun p => p.op == 10) (fun x s => s.decodePin stream x))

end Sys2Proof.Machine
end

