-- ==== Sys2Proof/Machine/PicotPins.lean ====
section
/-! DEFINITION. PICOT pins (R132, R145, R146): the L0 round and the package rounds of a picot. -/

namespace Sys2Proof.Machine

/-- PICOT_L0_ROUND (R132): the buffer is claimed, and the slices' values are taken into the picot's vector. A void round leaves
the result incomplete (R146, Table 5-13). -/
def State.picotL0RoundPin (s : State) (stream : Nat) (x : Issue) : State :=
  let p := x.pin
  let room := (s.slice stream).unitsFree p.buf 1
  s.issuePin stream x (firstRow false (!room) false) (fun s void =>
    let s := if room then s.claim stream p.buf 1 default else s
    let s := s.startPicot stream (if room then p else { p with buf := noBuffer }) void
    s.flyHeld stream x void [.picot p.pitch 0])

/-- The row PICOT_L0_ROUND. -/
def execPicotL0Round (stream : Nat) (s : State) : Host.Outcome State Fault Refusal :=
  answer s (s.runPin stream (fun p => p.op == 11 && p.portq == 36) (fun x s => s.picotL0RoundPin stream x))

/-- The vector that a package round needs is in place: the round before it has landed. -/
def State.picotReady (s : State) (st : Nat) (p : Pin) : Bool :=
  match s.picot p.pitch with
  | none => false
  | some q => decide (p.chunk ≤ q.landed + 1) && (q.void || s.readable st p.buf)

/-- PICOT_PACKAGE_ROUND (R145): the vector as it stood when the round began is sent, and the partners' vectors are expected. -/
def State.picotPackageRoundPin (s : State) (stream : Nat) (x : Issue) : State :=
  let p := x.pin
  s.issuePin stream x (firstRow (s.portBusy stream x) false (!s.picotReady stream p)) (fun s void =>
    let s := s.openRound p void
    if void then s.flyHeld stream x true [.picot p.pitch p.chunk]
    else
      let s := s.takePort stream x
      let pk := s.picotPackets p
      let s := match pk with
        | b :: _ => if s.upTowards p.portq (bytesAt b 10 2) then s.fly stream x.side 25 false [.send p.portq pk] else s
        | [] => s
      s.flyHeld stream x false [.picot p.pitch p.chunk])

/-- The row PICOT_PACKAGE_ROUND. -/
def execPicotPackageRound (stream : Nat) (s : State) : Host.Outcome State Fault Refusal :=
  answer s (s.runPin stream (fun p => p.op == 11 && p.portq != 36) (fun x s => s.picotPackageRoundPin stream x))

/-! ### Clip picots on a fenced slice -/

/-- Every PICOT pin of a clip pitch in the step section stands on a fenced slice: the picot cannot end (R199). -/
def State.clipLost (s : State) (pitch : Nat) : Bool :=
  (List.range 8).all (fun st => (s.slice st).fenced ||
    !(s.pricking.stream 0 st).any (fun p => p.op == 11 && p.pitch == pitch))

/-- Clip picots that can no longer end, of the pitches `gone`, end incomplete (R199, Table 8-6 row 1). DEDUCED (log 22). -/
def State.loseClipsOf (s : State) (gone : Nat → Bool) : State :=
  if s.srec.decision.isSome then s
  else
    let lost := s.clipEnts.filter (fun e => gone e.pitch && !((s.picot e.pitch).any (·.done)))
    let s := lost.foldl (fun s e =>
      match s.picot e.pitch with
      | some _ => s.onPicot e.pitch (fun p => { p with dev := true, void := true, done := true })
      | none => { s with seq := { s.seq with picots := s.seq.picots ++
          [⟨e.pitch, 8, noBuffer, 0, 0, [], List.replicate 512 0, true, [], [], true, true⟩] } }) s
    s.decideIfDue

/-- Clip picots whose pins all stand on fenced slices, and at the seal every one that has not ended. -/
def State.loseClips (s : State) (all : Bool) : State := s.loseClipsOf (fun p => all || s.clipLost p)

/-- A picot whose last round has landed is judged and ends: inputs still missing leave it incomplete (Table 5-9). -/
def State.closePicot (s : State) (pitch : Nat) : State :=
  match s.picot pitch with
  | none => s
  | some p => if !p.done ∧ p.landed ≥ (s.picotRounds pitch).length then (s.judgePicot pitch p.round).endPicot pitch else s

/-- The clip picots are judged where something depends on the step decision: a pin or the seal (Table 5-9, R284). -/
def State.settleClips (s : State) (all : Bool) : State :=
  if s.srec.decision.isSome then s else (s.clipEnts.foldl (fun s e => s.closePicot e.pitch) s).loseClips all

end Sys2Proof.Machine
end

