-- ==== Sys2Proof/Machine/UpdatePins.lean ====
section
/-! DEFINITION. UPDATE pins (R278, R287 to R298, Table 13-5). -/

namespace Sys2Proof.Machine

/-- The replay record names the UPDATE's first block void (Table 11-12). -/
def State.forcedVoidUpdate (s : State) (p : Pin) : Bool :=
  s.req.replay && s.req.replayDevs.any (fun d => d.cause = 0x21 ∧ d.object = p.pitch ∧ d.index = p.chunk)

/-- An UPDATE that is void, or of a disabled station: VOID-UPDATE for each block, and nothing else (Table 5-13, Table 13-5, R298). -/
def State.voidUpdate (s : State) (p : Pin) : State :=
  s.devs ((List.range p.arg).map (fun i => ⟨0x21, 0, 8 + p.portq, p.pitch, p.chunk + i, 0, 0⟩))

/-- UPDATE (R288): the step decision must have been taken (R284). -/
def State.updatePin (s : State) (stream : Nat) (x : Issue) : State :=
  let p := x.pin
  let s := s.settleClips false
  let cond := firstRow (s.resBusy (pinRes stream p)) false s.srec.decision.isNone
  s.issuePin stream x cond (fun s void =>
    if void then (s.voidUpdate p).flyHeld stream x true []
    else if (s.station p.portq).disable ∨ s.forcedVoidUpdate p then (s.voidUpdate p).flyHeld stream x false []
    else s.flyHeld stream x false (s.updateUpds p (s.srec.decision == some 0) s.srec.c))

/-- The row UPDATE. -/
def execUpdate (stream : Nat) (s : State) : Host.Outcome State Fault Refusal :=
  answer s (s.runPin stream (fun p => p.op == 14) (fun x s => s.updatePin stream x))

end Sys2Proof.Machine
end

