-- ==== Sys2Proof/Machine/Seal.lean ====
section
/-! DEFINITION. The step seal and the step's record (R405, R407, R408, R411, R412, R478, R498): the deviation record, its sections, and
the replay log ring. -/

namespace Sys2Proof.Machine

/-! ### The deviation record header (Table 11-8) -/

/-- STATUS as the header holds it: a decision other than APPLY sets bit 9 (R408). -/
def StepRec.statusWord (r : StepRec) : Nat :=
  if r.decision = some 1 ∨ r.decision = some 2 then setBit r.status 9 else r.status

/-- Bytes [63:0] of the deviation record header: what the seal covers. -/
def StepRec.sealed (r : StepRec) : List Byte :=
  leBytes 6 r.step ++ leBytes 2 r.variant ++ leBytes 4 (r.statusWord % 2 ^ 12) ++ leBytes 4 r.entries ++ leBytes 8 r.entrySum
    ++ leBytes 1 (r.decision.getD 0) ++ leBytes 1 r.drow ++ zeros 2 ++ leBytes 4 r.n ++ leBytes 4 r.c ++ leBytes 4 r.nf ++ zeros 24

/-- The whole header, 128 bytes. -/
def StepRec.header (r : StepRec) : List Byte :=
  r.sealed ++ leBytes 8 r.origin ++ leBytes 4 r.stored.length ++ leBytes 4 r.lstatus ++ r.digest ++ zeros (32 - r.digest.length) ++ zeros 16

/-! ### The seal (R405, R406) -/

/-- The slot table in static order: every input slot of the pricking's REDUCE pins, a slot with no entry as 0 (R156). -/
def State.slotTable (s : State) (r : StepRec) : List (Nat × List Nat) :=
  let pk := s.image.pricking r.variant
  let static := (List.range 8).flatMap (fun st => ((pk.stream 0 st).filter (fun p => p.op = 3)).flatMap (fun p =>
    (s.slotSources (pk.pitchAt p.pitch) p.chunk (pk.opensOwn st p)).map (fun rank => slotKey p.pitch p.chunk rank)))
  let all := static.map (fun k => (k, ((r.slots.find? (fun e => e.1 = k)).map (·.2)).getD [0]))
  let more := r.slots.filter (fun e => !static.contains e.1)
  (all ++ more).mergeSort (fun a b => decide (a.1 ≤ b.1))

/-- TDIG of Table 11-7. -/
def State.slotDigest (s : State) (r : StepRec) : List Byte :=
  sha256 ((s.slotTable r).flatMap (fun e => e.2.flatMap (leBytes 4)))

/-- The 112-byte seal message (Table 11-7). -/
def State.sealMessage (s : State) (r : StepRec) : List Byte :=
  nth s.image.phash r.variant [] ++ leBytes 8 s.image.conf ++ s.slotDigest r ++ sha256 r.sealed ++ leBytes 8 r.shard

/-! ### Sections of a step record (R412, Table 11-11) -/

/-- A section: its header and its body. -/
def logSection (type items : Nat) (body : List Byte) : List Byte :=
  leBytes 4 type ++ leBytes 4 body.length ++ leBytes 4 items ++ zeros 4 ++ body

/-- The counter record: the counts of the step in the order of their offsets, and one item for each cairn class (R478, R498). -/
def StepRec.countItems (r : StepRec) : List (List Byte) :=
  let cs := (r.counts.filter (fun e => e.2.2 ≠ 0)).mergeSort (fun a b => decide (a.1 < b.1) || (a.1 == b.1 && decide (a.2.1 ≤ b.2.1)))
  let item := fun (e : Nat × Nat × Nat) =>
    if e.2.1 = noUnit then leBytes 4 e.1 ++ leBytes 4 e.2.2
    else leBytes 4 (e.1 + 2 ^ 31) ++ leBytes 4 e.2.2 ++ leBytes 8 e.2.1
  cs.map item ++ (List.range 22).map (fun i => leBytes 4 (0x300 + 4 * (i + 1)) ++ leBytes 4 (stick32 (r.classes.get 0 (i + 1))))

/-- The INTAKE section: the tile events of blocks that were out of order or took tiles after their SELECT, and tiles of earlier
steps. -/
def StepRec.intakeItems (r : StepRec) : List (List Byte) :=
  let v := fun (x : List Byte) => leNat x
  let key := fun x => v x % 2 ^ 46
  let bad := (r.intake.filter (fun x => flag (v x) 54 || flag (v x) 56)).map key
  (r.intake.filter (fun x => flag (v x) 55 || bad.contains (key x))).map (fun x => leBytes 8 (v x % 2 ^ 56))

/-- The sections of a step record: DEV and CNT always, the others where they hold an item (log 23). -/
def StepRec.sections (r : StepRec) : List (List Byte) :=
  let opt := fun type (xs : List (List Byte)) => if xs = [] then [] else [logSection type xs.length xs.flatten]
  [logSection 1 r.stored.length (r.stored.flatMap (fun d => leBytes 16 d.toNat)),
   logSection 2 r.countItems.length r.countItems.flatten] ++
    opt 3 r.intakeItems ++ opt 4 r.dpins ++ opt 5 r.tokens ++ opt 6 r.host

/-! ### Records of the replay log (R411, R412) -/

/-- A record: its 64-byte header and its body, padded with zeros to a multiple of 64. -/
def logRecord (kind step nsect : Nat) (body : List Byte) : List Byte :=
  let b := padTo 64 body
  leBytes 4 (64 + b.length) ++ leBytes 1 kind ++ zeros 1 ++ leBytes 6 step ++ leBytes 2 nsect ++ leBytes 4 (crc32c b) ++ zeros 46 ++ b

/-- Base of the replay log, and its length in bytes. -/
def State.rlog (s : State) : Nat × Nat := (s.reg 0xC0 * 4096, s.reg 0xC4 * 4096)

/-- A record put into the ring, behind a pad record where it would cross the end; whether it was written (R411). -/
def State.writeLog (s : State) (step : Nat) (rec_ : List Byte) : State × Bool :=
  let size := s.rlog.2
  let n := rec_.length
  let wr := if s.reg 0xC8 * 64 < size then s.reg 0xC8 * 64 else 0
  let rd := s.reg 0xCC * 64
  let free := if size = 0 then 0 else (let f := (rd % size + size - wr) % size; if f = 0 then size else f)
  let pad := if wr + n > size then size - wr else 0
  if free < pad + n + 64 then (s, false)
  else
    let base := s.rlog.1
    let s := if pad = 0 then s else s.hbmWrite (base + wr) (logRecord 3 step 0 (zeros (pad - 64)))
    let at_ := if pad = 0 then wr else 0
    let s := s.hbmWrite (base + at_) rec_
    (s.setReg 0xC8 (((at_ + n) % size) / 64), true)

/-- The record of a step. -/
def StepRec.record (r : StepRec) : List Byte := logRecord 1 r.step r.sections.length (r.header ++ r.sections.flatten)

/-- The launch record (R412). -/
def State.launchRecord (s : State) (t0 c : Nat) : List Byte :=
  logRecord 2 t0 0 (leBytes 8 (t0 % 2 ^ 48) ++ leBytes 8 c ++ leBytes 8 s.image.conf ++ zeros 8 ++ nth s.image.phash 0 []
    ++ s.seed.flatMap (leBytes 4) ++ zeros 32)

/-- The seal, GLB_SEAL_STEP and GLB_STEP_STAT written in one core cycle (R407, R488). -/
def State.showSeal (s : State) (r : StepRec) (lost : Bool) : State :=
  let s := (List.range 8).foldl (fun s i => s.setReg (0x40 + 4 * i) (bytesAt r.digest (4 * i) 4)) s
  ((s.setReg 0x28 (r.step % 2 ^ 32)).setReg 0x2C (r.step / 2 ^ 32 % 2 ^ 16)).setReg 0x1C
    (r.statusWord % 2 ^ 12 + r.lstatus % 16 * 2 ^ 12 + ofBool lost * 2 ^ 16 + 2 ^ 17)

/-- A SEAL completes (R407). -/
def State.completeSeal (s : State) : State :=
  match s.sealing with
  | [] => s
  | r :: rest =>
    let w := s.writeLog r.step r.record
    (({ w.1 with sealing := rest }).showSeal r (!w.2)).irq 1

end Sys2Proof.Machine
end

