-- ==== Sys2Proof/Machine/Tokens.lean ====
section
/-! DEFINITION. Token exchange (chapter Token Exchange for Routed Layers): token tiles (R240 to R244), route passes (R245 to R250),
sends, landings and RETURNs (R251 to R262), and visit counts (R263). -/

namespace Sys2Proof.Machine

/-! ### Places -/

/-- Counter offset of counter `i` of the Tokens region (Table 14-25). -/
def tokenCounter (i : Nat) : Nat := 0xC0 + 4 * i

/-- The stream id of a layer and pass (Table 7-2). -/
def streamId (l pass : Nat) : Nat := 0x10000 + 2 * l + pass

/-- A token counter raised for a routed layer (R269). -/
def State.tokenCount (s : State) (i l n : Nat) : State := s.bump (tokenCounter i) (unitWord (streamId l 0) 0 0) n

/-- The same as a result of a pin. -/
def tokenCountUpd (i l n : Nat) : List Upd :=
  if n = 0 then [] else [.count (tokenCounter i) (unitWord (streamId l 0) 0 0) n]

/-- The home slice of a micro-batch (R238). -/
def Routed.homeSlice (d : Routed) (mb : Nat) : Nat :=
  let ss := maskBits d.slices
  nth ss (mb % Nat.max 1 ss.length) 0

/-- Size of a route record (R249). -/
def Routed.recordSize (d : Routed) : Nat := roundUp (64 + 40 * d.tmax * d.nb) 4096

/-- Address of the record of a micro-batch. -/
def Routed.recordAt (d : Routed) (mb : Nat) : Nat := d.route + mb * d.recordSize

/-- Address of the entry of a token (R249). -/
def Routed.entryAt (d : Routed) (mb token : Nat) : Nat := d.recordAt mb + 64 + 40 * token

/-- QSIZE of R257. -/
def Image.queueSize (im : Image) (d : Routed) : Nat :=
  let g := im.routedG d
  roundUp (64 + 8 * g * d.cap + g * d.cap * d.stride) 4096

/-- Base of the queue of local expert `j` for a micro-batch, in the area at `base` (R257). -/
def Image.queueAt (im : Image) (d : Routed) (base mb j : Nat) : Nat := base + (mb * im.routedP d + j) * im.queueSize d

/-- Offset of the tag of source `r`, slot `sl` in a queue. -/
def Routed.tagOff (d : Routed) (r sl : Nat) : Nat := 64 + 8 * (r * d.cap + sl)

/-- Offset of the vector slot. -/
def Image.vectorOff (im : Image) (d : Routed) (r sl : Nat) : Nat :=
  64 + 8 * im.routedG d * d.cap + (r * d.cap + sl) * d.stride

/-- The input queues of a pass. -/
def Routed.qIn (d : Routed) (pass : Nat) : Nat := if pass = 0 then d.qfIn else d.qbIn

/-- The output queues of a pass. -/
def Routed.qOut (d : Routed) (pass : Nat) : Nat := if pass = 0 then d.qfOut else d.qbOut

/-- Address of a token's place in the return area of a pass (R261). -/
def Routed.returnAt (d : Routed) (pass mb token j : Nat) : Nat :=
  let tsize := roundUp (d.tmax * d.nb * d.k * d.stride) 4096
  (if pass = 0 then d.retF else d.retB) + mb * tsize + (token * d.k + j) * d.stride

/-! ### Route records (Table 7-5) -/

/-- Choice word `j` of a token's entry. -/
def State.choiceWord (s : State) (d : Routed) (mb token j : Nat) : Nat := s.hbmNat (d.entryAt mb token + 4 + 4 * j) 4

/-- Forward status of a choice word. -/
def fstatus (w : Nat) : Nat := field w 28 26

/-- Backward status of a choice word. -/
def bstatus (w : Nat) : Nat := field w 31 29

/-- A choice's status set in its record (R255, R261, R262). -/
def State.setChoice (s : State) (l mb token j : Nat) (fwd : Bool) (st : Nat) : State :=
  let d := s.image.layerOf l
  let w := s.choiceWord d mb token j
  let w := if fwd then w - fstatus w * 2 ^ 26 + st * 2 ^ 26 else w - bstatus w * 2 ^ 29 + st * 2 ^ 29
  s.hbmWrite (d.entryAt mb token + 4 + 4 * j) (leBytes 4 w)

/-- A token's entry is unreadable: its choices are DROPPED for every later use (Table 13-4). -/
def State.entryBad (s : State) (d : Routed) (mb token : Nat) : Bool := s.hbmFaulty (d.entryAt mb token) 40

/-- The choices of a batch with their tokens: token, choice, word; those of unreadable entries left out. -/
def State.batchChoices (s : State) (d : Routed) (mb b : Nat) : List (Nat × Nat × Nat) :=
  (List.range d.tmax).flatMap (fun i =>
    let token := b * d.tmax + i
    if s.entryBad d mb token then []
    else (List.range d.k).map (fun j => (token, j, s.choiceWord d mb token j)))

/-- The choices of a whole micro-batch. -/
def State.mbChoices (s : State) (d : Routed) (mb : Nat) : List (Nat × Nat × Nat) :=
  (List.range d.nb).flatMap (fun b => s.batchChoices d mb b)

/-! ### Replay (Table 11-12) -/

/-- A set item of the TOKEN section (Table 11-11). -/
def tokenItem (kind l mb b : Nat) (valid : Bool) (bits : List Bool) : List Byte :=
  leBytes 16 (kind + l * 2 ^ 8 + mb * 2 ^ 20 + b * 2 ^ 28 + ofBool valid * 2 ^ 40 + bits.length % 2 ^ 23 * 2 ^ 41) ++
    padTo 8 ((pieces 8 bits).map (fun g => BitVec.ofNat 8 (sumNat ((indexed g).map (fun e => ofBool e.2 * 2 ^ e.1)))))

/-- A set item entered in the step's record. -/
def State.logTokens (s : State) (kind l mb b : Nat) (valid : Bool) (bits : List Bool) : State :=
  s.onRec (fun r => { r with tokens := r.tokens ++ [tokenItem kind l mb b valid bits] })

/-- In replay mode, the recorded set of a kind, layer, micro-batch and batch or rank: bit `i`, true outside replay or where no
item stands. -/
def State.forcedToken (s : State) (kind l mb b i : Nat) : Bool :=
  if s.req.replay then
    match s.req.replayTokens.find? (fun x =>
      let v := bytesAt x 0 8
      field v 7 0 = kind ∧ field v 19 8 = l ∧ field v 27 20 = mb ∧ field v 39 28 = b) with
    | some x => flag (nth (x.drop 16) (i / 8) 0#8).toNat (i % 8)
    | none => true
  else true

/-! ### Token tiles (R243) -/

/-- A send or route pass of a batch that has issued. -/
def State.tokIssued (s : State) (l mb b role dest : Nat) : Bool :=
  s.tok.done.any (fun x => x.layer = l ∧ x.mb = mb ∧ x.batch = b ∧ x.role = role ∧ (role = 0 ∨ x.dest = dest))

/-- The group rank that holds an expert (R238). -/
def Image.expertRank (im : Image) (d : Routed) (e : Nat) : Nat := e / Nat.max 1 (im.routedP d)

/-- The pin that would consume a tile has issued (R244). -/
def State.tokLate (s : State) (d : Routed) (l : Nat) (h : TokHead) (pass : Nat) : Bool :=
  let token := h.batch * d.tmax + h.index
  if h.sub ≠ 0 then s.tokIssued l h.mb h.batch 0 0
  else if pass = 1 then
    s.tokIssued l h.mb h.batch 2 (s.image.expertRank d (field (s.choiceWord d h.mb token h.choice) 9 0))
  else if !s.tokIssued l h.mb h.batch 0 0 then false
  else
    let ws := ((List.range d.k).map (s.choiceWord d h.mb token)).filter (fun w => fstatus w ≠ 0 ∧ fstatus w ≠ 4)
    let gone := fun w => s.tokIssued l h.mb h.batch 1 (s.image.expertRank d (field w 9 0))
    ws.any gone && ws.all (fun w => gone w || fstatus w ≠ 6)

/-- A token tile rejected for a reason of Table 7-4. -/
def State.tokReject (s : State) (sl : Nat) (h : TokHead) (tmax reason : Nat) : State :=
  let s := (s.bump (tokenCounter (14 + reason)) (unitWord h.stream 0 0) 1).dev
    ⟨0x12, reason, sl, h.stream, h.batch * tmax + h.index, 0, 0⟩
  if reason = 9 then
    { (if h.sub ≠ 0 then s.tokenCount 1 ((h.stream - 0x10000) / 2) 1 else s) with
      tok := { s.tok with lateLayers := s.tok.lateLayers ++ [sl * 4096 + (h.stream - 0x10000) / 2] } }
  else s

/-- A token tile at an ingress port of a running engine (Table 7-4, R242). -/
def State.tokenTile (s : State) (sl : Nat) (h : TokHead) (payload : List Byte) : State :=
  let l := (h.stream - 0x10000) / 2
  let pass := h.stream % 2
  let d := s.image.layerOf l
  let rej := fun r => s.tokReject sl h d.tmax r
  let same := fun (x : TokLast) => x.layer == l && x.mb == h.mb && x.sub == h.sub && x.pass == pass
  let ord := tagOrder h.tag s.seq.step
  let order :=
    h.index ≥ d.tmax ||
    s.tok.last.any (fun x => same x && x.batch == h.batch &&
      (if pass = 1 then decide (h.index < x.index) || (h.index == x.index && decide (h.choice ≤ x.choice))
       else decide (h.index ≤ x.index))) ||
    (pass == 0 && s.tok.last.any (fun x => same x && decide (h.position ≤ x.position)))
  let forced := s.req.replay && s.req.replayDevs.any (fun e =>
    e.cause = 0x12 ∧ e.object = h.stream ∧ e.index = h.batch * d.tmax + h.index ∧ e.detail = 9)
  if h.stream < 0x10000 ∨ h.stream > 0x10000 + 8191 ∨ !d.valid ∨ (pass = 1 ∧ h.sub ≠ 0) then rej 1
  else if h.sub = 3 ∨ (h.sub = 1 ∧ d.ids) ∨ (h.sub = 2 ∧ !d.ids) then rej 2
  else if h.fmt ≠ (if h.sub = 0 then d.vfmt else if h.sub = 1 then d.sfmt else 0) ∨ h.final ∨ h.resv ≠ 0 then rej 3
  else if sl ≠ d.homeSlice h.mb then rej 4
  else if h.count ≠ (if h.sub = 0 then d.h else if h.sub = 1 then d.x else d.k) then rej 5
  else if ord = .later then rej 6
  else if ord = .earlier then rej 9
  else if order then rej 7
  else if h.batch > 0 ∧ !s.tokIssued l h.mb (h.batch - 1) 0 0 then rej 8
  else if forced ∨ (!s.req.replay ∧ s.tokLate d l h pass) then rej 9
  else
    let last : TokLast := ⟨l, h.mb, h.sub, pass, h.batch, h.index, h.choice, h.position⟩
    let gone := fun (x : TokTile) => x.layer == l && (d.homeSlice x.mb == sl) && (x.sub == 0) == (h.sub == 0) && x.pass == pass &&
      x.batch % 2 == h.batch % 2 && x.index == h.index && x.choice == h.choice
    { s with tok := { s.tok with
        last := s.tok.last.filter (fun x => !(same x && x.batch == h.batch)) ++ [last]
        tiles := s.tok.tiles.filter (fun x => !gone x) ++ [⟨l, h.mb, h.batch, h.sub, pass, h.index, h.choice, h.position, payload⟩] } }

/-- The staged tile of a token. -/
def State.tokTile (s : State) (l mb b sub pass index choice : Nat) : Option TokTile :=
  s.tok.tiles.find? (fun x => x.layer = l ∧ x.mb = mb ∧ x.batch = b ∧ x.sub = sub ∧ x.pass = pass ∧ x.index = index ∧ x.choice = choice)

/-! ### Route passes (R245 to R249) -/

/-- The place of a binary32 score in the order of R245: NaN below every value, both zeros equal. -/
def scoreKey (x : Nat) : Int :=
  if field x 30 23 = 255 ∧ field x 22 0 ≠ 0 then -(2 ^ 32 : Int)
  else if flag x 31 then -(f32Abs x : Int) else (f32Abs x : Int)

/-- `top_k` of R245. -/
def topK (scores : List Int) (k : Nat) : List Nat :=
  (((indexed scores).mergeSort (fun a b => decide (a.2 > b.2) || (a.2 == b.2 && decide (a.1 ≤ b.1)))).map (·.1)).take k

/-- The choices of a token tile: the expert, or none where the choice is INVALID (R245, R246). -/
def Routed.choices (d : Routed) (x : TokTile) : List (Option Nat) :=
  if d.ids then
    let ids := (List.range d.k).map (fun j => bytesAt x.payload (2 * j) 2)
    (indexed ids).map (fun e => if e.2 ≥ d.x ∨ (ids.take e.1).contains e.2 then none else some e.2)
  else
    let w := if d.sfmt = 0 then 4 else 2
    let sc := (List.range d.x).map (fun i =>
      let v := bytesAt x.payload (w * i) w
      scoreKey (if d.sfmt = 0 then v else bf16Widen v))
    (topK sc d.k).map some

/-- NaN scores of a tile. -/
def Routed.nanScores (d : Routed) (x : TokTile) : Nat :=
  if d.ids then 0
  else
    let w := if d.sfmt = 0 then 4 else 2
    ((List.range d.x).filter (fun i =>
      let v := bytesAt x.payload (w * i) w
      scoreKey (if d.sfmt = 0 then v else bf16Widen v) = -(2 ^ 32 : Int))).length

/-- A choice word (Table 7-5). -/
def choiceBits (fst slot e : Nat) : Nat := e % 2 ^ 10 + slot % 2 ^ 16 * 2 ^ 10 + fst * 2 ^ 26

/-- Choices of one token take their slots (R247): the counters and the words; `void` drops every valid choice. -/
def takeSlots (key cap : Nat) (void : Bool) : Tab Nat → List (Option Nat) → Tab Nat × List Nat
  | t, [] => (t, [])
  | t, none :: cs =>
    let r := takeSlots key cap void t cs
    (r.1, choiceBits 4 0 0 :: r.2)
  | t, some e :: cs =>
    let n := t.get 0 (key + e)
    if void ∨ n ≥ cap then
      let r := takeSlots key cap void t cs
      (r.1, choiceBits 3 0 e :: r.2)
    else
      let r := takeSlots key cap void (t.put (key + e) (n + 1)) cs
      (r.1, choiceBits 6 n e :: r.2)

/-- The 40 bytes of a route record entry (Table 7-5). -/
def routeEntry (routed : Bool) (position : Nat) (words : List Nat) : List Byte :=
  leBytes 4 (position % 2 ^ 24 + ofBool routed * 2 ^ 24) ++ (List.range 8).flatMap (fun j => leBytes 4 (nth words j 0)) ++ zeros 4

/-- A route pass: the state with its slot counters, and what it makes visible (R245 to R249). -/
def State.routePass (s : State) (p : Pin) (void : Bool) : State × List Upd :=
  let l := p.layer
  let d := s.image.layerOf l
  let b := p.batch
  let key := (l * 256 + p.mb) * 1024
  let sub := if d.ids then 2 else 1
  let tiles := (List.range d.tmax).map (fun i =>
    match s.tokTile l p.mb b sub 0 i 0 with
    | some x => if s.forcedToken 1 l p.mb b i then some x else none
    | none => none)
  let t0 : Tab Nat := if b = 0 ∧ !void then s.tok.slots.filter (fun e => e.1 / 1024 ≠ l * 256 + p.mb) else s.tok.slots
  let r := tiles.foldl (fun (a : Tab Nat × List (List Byte) × List Nat) x =>
    match x with
    | none => (a.1, a.2.1 ++ [routeEntry false 0 []], a.2.2)
    | some x =>
      let c := takeSlots key d.cap void a.1 (d.choices x)
      (c.1, a.2.1 ++ [routeEntry true x.position c.2], a.2.2 ++ c.2)) (t0, [], [])
  let n := fun st => (r.2.2.filter (fun w => fstatus w = st)).length
  let s := { s with tok := { s.tok with slots := r.1 } }
  let s := s.logTokens 1 l p.mb b false (tiles.map (·.isSome))
  (s, [.mem (d.recordAt p.mb) (leBytes 6 s.seq.step ++ zeros 58), .mem (d.entryAt p.mb (b * d.tmax)) r.2.1.flatten]
    ++ tokenCountUpd 0 l (tiles.filter (·.isSome)).length ++ tokenCountUpd 4 l (if void then 0 else n 3)
    ++ tokenCountUpd 5 l (n 4) ++ tokenCountUpd 6 l (sumNat (tiles.map (fun x => match x with | some x => d.nanScores x | none => 0))))

/-! ### Sends (R255, R256, R262) -/

/-- A token vector's chunk, coded where the pin says so. -/
def State.tokenVector (s : State) (sl : Nat) (p : Pin) (t : TokTrailer) (v : List Byte) : State × List Byte × List Upd :=
  if p.coded then
    match s.image.pitchCtx sl p.pitch with
    | some i =>
      let e := s.encodeWith sl i p.pitch (6 + ceilDiv v.length 384) v
      (e.1, tokenChunk { t with coded := true } e.2.1, e.2.2)
    | none => (s, tokenChunk t v, [])
  else (s, tokenChunk t v, [])

/-- The trailer of a token chunk of a pin. -/
def State.tokTrailer (s : State) (p : Pin) (pass : Nat) : TokTrailer :=
  { tag := s.seq.step % 2 ^ 16, pitch := p.pitch, token := 0, choice := 0, type := 0, coded := false, slot := 0, expert := 0,
    drank := 0, srank := 0, mb := p.mb, pass := pass, fmt := 0, len := 0, layer := p.layer }

/-- The packets of token chunks in order (R316): short ones share a packet, a long one and the count chunk travel alone. -/
def tokenPackets (group src dst pitch step : Nat) (chunks : List (List Byte)) (count : Option (List Byte)) : List (List Byte) :=
  let h : PktHead := { (default : PktHead) with vc := 2, type := 2, group := group, pitch := pitch, src := src, dst := dst, seq := step % 2 ^ 16 }
  let packed := chunks.foldl (fun (a : List (List Byte)) c =>
    match a.getLast? with
    | some x => if x.length ≤ 4096 ∧ x.length + c.length ≤ 4096 then a.dropLast ++ [x ++ c] else a ++ [c]
    | none => [c]) []
  let bodies := packed.flatMap (fun c =>
    if c.length ≤ 4096 then [(c, 0, true, false)]
    else
      let ps := pieces 4096 c
      (indexed ps).map (fun e => (e.2, 4096 * e.1, e.1 == 0, e.1 + 1 == ps.length)))
  let n := bodies.length
  (indexed bodies).map (fun e =>
    packetBytes { h with offset := e.2.2.1, first := e.2.2.2.1, last := e.2.2.2.2 || (count.isNone && e.1 + 1 == n) } [] e.2.1) ++
    (match count with | some c => [packetBytes { h with first := true, last := true } [] c] | none => [])

/-- What a forward or backward send carries: the state after coding, its chunks in sending order, its count chunk, and the
statuses it sets (R255, R256, R262). -/
def State.tokenSend (s : State) (sl : Nat) (p : Pin) : State × List (List Byte) × List Byte × List Upd :=
  let l := p.layer
  let d := s.image.layerOf l
  let pass := if p.arg % 4 = 1 then 0 else 1
  let np := Nat.max 1 (s.image.routedP d)
  let own := (s.image.group d.group).rank s.coord
  let all := (s.batchChoices d p.mb p.batch).filter (fun c => s.image.expertRank d (field c.2.2 9 0) = p.rank)
  let mine := (all.filter (fun c => fstatus c.2.2 = (if pass = 0 then 6 else 2))).mergeSort (fun a b =>
    let k := fun (c : Nat × Nat × Nat) => field c.2.2 9 0 % np * 2 ^ 16 + field c.2.2 25 10
    decide (k a ≤ k b))
  let tile := fun (c : Nat × Nat × Nat) => (show Option TokTile from
    if pass = 1 ∧ !s.forcedToken 2 l p.mb p.batch ((c.1 - p.batch * d.tmax) * d.k + c.2.1) then none
    else s.tokTile l p.mb p.batch 0 pass (c.1 - p.batch * d.tmax) (if pass = 1 then c.2.1 else 0))
  let base := { s.tokTrailer p pass with drank := p.rank, srank := own, fmt := d.vfmt }
  let go := mine.foldl (fun (a : State × List (List Byte) × List Upd × List Nat) c =>
    match tile c with
    | none => (a.1, a.2.1, a.2.2.1 ++ [.choice l p.mb c.1 c.2.1 (pass == 0) 3], a.2.2.2)
    | some x =>
      let e := field c.2.2 9 0 % np
      let v := a.1.tokenVector sl p { base with token := c.1, choice := c.2.1, slot := field c.2.2 25 10, expert := e } x.payload
      (v.1, a.2.1 ++ [v.2.1], a.2.2.1 ++ [.choice l p.mb c.1 c.2.1 (pass == 0) 1] ++ v.2.2, a.2.2.2 ++ [e])) (s, [], [], [])
  let sent := go.2.2.2
  let words := (List.range np).map (fun j =>
    let drops := (all.filter (fun c => pass = 0 ∧ fstatus c.2.2 = 3 ∧ field c.2.2 9 0 % np = j)).length
    (sent.filter (· = j)).length % 2 ^ 16 + drops % 2 ^ 16 * 2 ^ 16)
  let count := tokenChunk { base with type := 2, fmt := 0 } (words.flatMap (leBytes 4))
  let miss := mine.map (fun c => (tile c).isNone)
  let s' := if pass = 1 then go.1.logTokens 2 l p.mb p.batch false ((List.range (d.tmax * d.k)).map (fun i =>
      (mine.zip miss).any (fun m => m.2 && (m.1.1 - p.batch * d.tmax) * d.k + m.1.2.1 = i))) else go.1
  (s', go.2.1, count, go.2.2.1 ++ tokenCountUpd (2 + pass) l sent.length ++ tokenCountUpd 1 l (miss.filter (fun b => b)).length)

/-- The choices that a void send would have carried become DROPPED (Table 5-13). -/
def State.voidSend (s : State) (p : Pin) : List Upd :=
  let l := p.layer
  let d := s.image.layerOf l
  let pass := if p.arg % 4 = 1 then 0 else 1
  ((s.batchChoices d p.mb p.batch).filter (fun c => s.image.expertRank d (field c.2.2 9 0) = p.rank ∧
    fstatus c.2.2 = (if pass = 0 then 6 else 2))).map (fun c => Upd.choice l p.mb c.1 c.2.1 (pass == 0) 3)

/-! ### Landing (R258 to R260) -/

/-- The DISPATCH pins (or RETURN pins) of the running section that name a token pitch, which say what its window serves. -/
def State.tokenPins (s : State) (pitch : Nat) (ret : Bool) : List Pin :=
  (List.range 8).flatMap (fun st => (s.pricking.stream s.seq.sec st).filter (fun p =>
    p.pitch = pitch ∧ (if ret then p.op = 13 else p.op = 12 ∧ p.arg % 4 ≠ 0)))

/-- The pass of a token pin. -/
def Pin.pass (p : Pin) : Nat := if p.op = 13 then p.arg % 4 else if p.arg % 4 = 1 then 0 else 1

/-- The layers, micro-batches and passes that a token pitch serves. -/
def State.served (s : State) (pitch : Nat) (ret : Bool) : List (Nat × Nat × Nat) :=
  ((s.tokenPins pitch ret).map (fun p => (p.layer, p.mb, p.pass))).eraseDups

/-- A tag of a queue is valid for the step (R260). -/
def State.tagValid (s : State) (q : Nat) (d : Routed) (r sl : Nat) : Bool :=
  let t := s.hbmNat (q + d.tagOff r sl) 8
  flag t 63 && field t 43 28 == s.seq.step % 2 ^ 16

/-- A token chunk that fails R258: counted, and LOSS set for its source. -/
def State.tokenFailed (s : State) (sl pitch src l : Nat) (f : ChunkFault) : State :=
  let s := s.tokenCount 11 l 1
  let s := { s with tok := { s.tok with losses := s.tok.losses ++ [(pitch, src)] } }
  let s := s.tally (match f with | .malformed => 4 | .tableGen => 5 | _ => 3) sl pitch 1
  match f with
  | .malformed => s.bump (codingCounter 6) (unitWord 0 ((s.image.pitchCtx sl pitch).getD 0) pitch) 1
  | .tableGen => s.bump (codingCounter 7) (unitWord 0 ((s.image.pitchCtx sl pitch).getD 0) pitch) 1
  | _ => s

/-- The header words of the queues that a token pitch serves are written, and its window closes (R259). -/
def State.closeLanding (s : State) (pitch : Nat) : State :=
  if s.tok.closed.contains pitch then s
  else
    let s := { s with tok := { s.tok with closed := s.tok.closed ++ [pitch] } }
    (s.served pitch false).foldl (fun s w =>
      let l := w.1
      let d := s.image.layerOf l
      let np := s.image.routedP d
      let g := s.image.routedG d
      let home := d.homeSlice w.2.1
      let mineOf := fun r => s.tok.counts.filter (fun c => c.layer = l ∧ c.mb = w.2.1 ∧ c.pass = w.2.2 ∧ c.src = r)
      let s1 := (List.range np).foldl (fun s j =>
        let q := s.image.queueAt d (d.qIn w.2.2) w.2.1 j
        (List.range g).foldl (fun s r =>
          let cs := mineOf r
          let word := sumNat (cs.map (fun c => nth c.counts j 0 % 2 ^ 16)) % 2 ^ 16
            + sumNat (cs.map (fun c => nth c.counts j 0 / 2 ^ 16)) % 2 ^ 16 * 2 ^ 16
            + s.seq.step % 2 ^ 16 * 2 ^ 32 + ofBool (cs ≠ []) * 2 ^ 48 + ofBool (s.tok.losses.contains (pitch, r)) * 2 ^ 49
          s.hbmWrite (q + 8 * r) (leBytes 8 word)) s) s
      let missing := ((List.range g).filter (fun r => mineOf r = [])).length
      let s2 := (s1.tokenCount 12 l (missing * np)).tally 6 home pitch missing
      let s3 := (List.range g).foldl (fun s r =>
        s.logTokens (3 + w.2.2) l w.2.1 r (mineOf r ≠ []) ((List.range (np * d.cap)).map (fun i =>
          s.tagValid (s.image.queueAt d (d.qIn w.2.2) w.2.1 (i / Nat.max 1 d.cap)) d r (i % Nat.max 1 d.cap)))) s2
      if w.2.2 = 0 then
        (List.range np).foldl (fun s j =>
          let q := s.image.queueAt d d.qfIn w.2.1 j
          let n := ((List.range (g * d.cap)).filter (fun i => s.tagValid q d (i / Nat.max 1 d.cap) (i % Nat.max 1 d.cap))).length
          let k := l * 1024 + j
          { s with tok := { s.tok with visits := s.tok.visits.put k (s.tok.visits.get 0 k + n) } }) s3
      else s3) s

/-- In relaxed timing, the landing closes when every source's count chunks have arrived (Table 7-11). -/
def State.closeIfAllCounts (s : State) (pitch : Nat) : State :=
  let pins := s.tokenPins pitch false
  let whole := pins.all (fun p =>
    let d := s.image.layerOf p.layer
    let batches := ((pins.filter (fun x => x.layer = p.layer ∧ x.mb = p.mb ∧ x.pass = p.pass)).map Pin.batch).eraseDups.length
    (List.range (s.image.routedG d)).all (fun r =>
      batches ≤ (s.tok.counts.filter (fun c => c.pitch = pitch ∧ c.layer = p.layer ∧ c.mb = p.mb ∧ c.pass = p.pass ∧ c.src = r)).length))
  if s.relaxed ∧ whole then s.closeLanding pitch else s

/-- A token or count chunk lands (R258 to R260). -/
def State.landToken (s : State) (pitch : Nat) (whole : List Byte) : State :=
  let t := TokTrailer.parse (whole.drop (whole.length - 32))
  let data := whole.take (whole.length - 32)
  let d := s.image.layerOf t.layer
  let home := d.homeSlice t.mb
  let own := (s.image.group d.group).rank s.coord
  let np := s.image.routedP d
  let tb := whole.drop (whole.length - 32)
  let cur := t.tag = s.seq.step % 2 ^ 16
  let expected := (s.served pitch false).contains (t.layer, t.mb, t.pass)
  if s.tok.closed.contains pitch ∨ !cur then s.tokenCount 9 t.layer 1
  else if crc32c (data ++ tb.drop 4) ≠ bytesAt tb 0 4 then s.tokenFailed home pitch t.srank t.layer .check
  else if !tokReservedZero tb ∨ !expected ∨ t.drank ≠ own ∨ t.pitch ≠ pitch ∨ t.srank ≥ s.image.routedG d ∨ t.len ≠ data.length ∨
      (t.type ≠ 0 ∧ t.type ≠ 2) ∨ (t.type = 2 ∧ (t.coded ∨ data.length ≠ 4 * np)) ∨
      (t.type = 0 ∧ (t.slot ≥ d.cap ∨ t.expert ≥ np ∨ t.fmt ≠ d.vfmt ∨ (!t.coded ∧ data.length ≠ d.vbytes))) then
    s.tokenFailed home pitch t.srank t.layer .check
  else if t.type = 2 then
    let c : TokCount := ⟨pitch, t.layer, t.mb, t.pass, t.srank, (List.range np).map (fun j => bytesAt data (4 * j) 4)⟩
    State.closeIfAllCounts { s with tok := { s.tok with counts := s.tok.counts ++ [c] } } pitch
  else
    match (if t.coded then s.decodeOn home pitch d.vbytes data else .ok data) with
    | .error .malformed => s.tokenFailed home pitch t.srank t.layer .malformed
    | .error .tableGen => s.tokenFailed home pitch t.srank t.layer .tableGen
    | .ok v =>
      let q := s.image.queueAt d (d.qIn t.pass) t.mb t.expert
      if !s.forcedToken (3 + t.pass) t.layer t.mb t.srank (t.expert * d.cap + t.slot) then s.tokenCount 9 t.layer 1
      else if s.tagValid q d t.srank t.slot then s.tokenCount 10 t.layer 1
      else
        let tag := t.token + t.choice * 2 ^ 24 + s.seq.step % 2 ^ 16 * 2 ^ 28 + 2 ^ 63
        (((s.hbmWrite (q + s.image.vectorOff d t.srank t.slot) v).hbmWrite (q + d.tagOff t.srank t.slot) (leBytes 8 tag)).tokenCount
          (7 + t.pass) t.layer 1)

/-! ### RETURN (R261) -/

/-- The chunks of a RETURN: the output vectors of every slot of source `r` with a valid tag. -/
def State.returnChunks (s : State) (sl : Nat) (p : Pin) : State × List (List Byte) × List Upd :=
  let d := s.image.layerOf p.layer
  let pass := p.arg % 4
  let own := (s.image.group d.group).rank s.coord
  let slots := (List.range (s.image.routedP d)).flatMap (fun j => (List.range d.cap).map (fun i => (j, i)))
  let base := { s.tokTrailer p pass with type := 1, drank := own, srank := p.rank, fmt := d.vfmt }
  slots.foldl (fun a e =>
    let q := s.image.queueAt d (d.qIn pass) p.mb e.1
    if s.tagValid q d p.rank e.2 then
      let tag := s.hbmNat (q + d.tagOff p.rank e.2) 8
      let v := s.hbmRead (s.image.queueAt d (d.qOut pass) p.mb e.1 + s.image.vectorOff d p.rank e.2) d.vbytes
      let c := a.1.tokenVector sl p { base with token := field tag 23 0, choice := field tag 26 24, slot := e.2, expert := e.1 } v
      (c.1, a.2.1 ++ [c.2.1], a.2.2 ++ c.2.2)
    else a) (s, [], [])

/-- The landing of every forward (or backward) send into the queues of a RETURN has closed (R254). -/
def State.landed (s : State) (p : Pin) : Bool :=
  let ps := ((List.range 8).flatMap (fun st => (s.pricking.stream s.seq.sec st).filter (fun x =>
    x.op = 12 ∧ x.arg % 4 ≠ 0 ∧ x.layer = p.layer ∧ x.mb = p.mb ∧ x.pass = p.pass))).map (·.pitch)
  ps.all (fun x => s.tok.closed.contains x)

/-- A return chunk reaches the source (R261). -/
def State.landReturn (s : State) (pitch : Nat) (whole : List Byte) : State :=
  let tb := whole.drop (whole.length - 32)
  let t := TokTrailer.parse tb
  let data := whole.take (whole.length - 32)
  let d := s.image.layerOf t.layer
  let home := d.homeSlice t.mb
  let own := (s.image.group d.group).rank s.coord
  let np := Nat.max 1 (s.image.routedP d)
  let w := s.choiceWord d t.mb t.token t.choice
  let cur := t.tag = s.seq.step % 2 ^ 16
  let fail := fun f => s.tokenFailed home pitch t.drank t.layer f
  if s.tok.closed.contains pitch ∨ !cur then s.tokenCount 9 t.layer 1
  else if crc32c (data ++ tb.drop 4) ≠ bytesAt tb 0 4 then fail .check
  else if !tokReservedZero tb ∨ t.type ≠ 1 ∨ !(s.served pitch true).contains (t.layer, t.mb, t.pass) ∨ t.srank ≠ own ∨
      t.pitch ≠ pitch ∨ t.slot ≥ d.cap ∨ t.len ≠ data.length ∨ t.fmt ≠ d.vfmt ∨ (!t.coded ∧ data.length ≠ d.vbytes) then fail .check
  else
    match (if t.coded then s.decodeOn home pitch d.vbytes data else .ok data) with
    | .error .malformed => fail .malformed
    | .error .tableGen => fail .tableGen
    | .ok v =>
      if t.token ≥ d.tmax * d.nb ∨ t.choice ≥ d.k ∨ s.entryBad d t.mb t.token ∨
          (if t.pass = 0 then fstatus w else bstatus w) ≠ 1 ∨ field w 9 0 ≠ t.drank * np + t.expert ∨ field w 25 10 ≠ t.slot then
        fail .check
      else if !s.forcedToken (5 + t.pass) t.layer t.mb 0 (t.token * d.k + t.choice) then s.tokenCount 9 t.layer 1
      else
        ((s.hbmWrite (d.returnAt t.pass t.mb t.token t.choice) v).setChoice t.layer t.mb t.token t.choice (t.pass == 0) 2).tokenCount
          (7 + t.pass) t.layer 1

/-- At the return cutoff, choices still SENT become LOST (R261). -/
def State.closeReturn (s : State) (pitch : Nat) : State :=
  if s.tok.closed.contains pitch then s
  else
    let s := { s with tok := { s.tok with closed := s.tok.closed ++ [pitch] } }
    (s.served pitch true).foldl (fun s w =>
      let d := s.image.layerOf w.1
      let cs := s.mbChoices d w.2.1
      let stat := fun (c : Nat × Nat × Nat) => if w.2.2 = 0 then fstatus c.2.2 else bstatus c.2.2
      let lost := cs.filter (fun c => stat c = 1)
      let s := lost.foldl (fun s c => s.setChoice w.1 w.2.1 c.1 c.2.1 (w.2.2 == 0) 5) s
      let s := s.logTokens (5 + w.2.2) w.1 w.2.1 0 false ((List.range (d.tmax * d.nb * d.k)).map (fun i =>
        cs.any (fun c => c.1 * d.k + c.2.1 = i ∧ stat c = 2)))
      (s.tokenCount (13 + w.2.2) w.1 lost.length).tally 6 (d.homeSlice w.2.1) pitch lost.length) s

/-- Choices whose forward send has not issued by its window's cutoff, its stream being fenced, become DROPPED (Table 7-11). -/
def State.dropUnsent (s : State) (pitch : Nat) : State :=
  ((s.tokenPins pitch false).filter (fun p => !s.tokIssued p.layer p.mb p.batch (p.arg % 4) p.rank)).foldl (fun s p =>
    (s.voidSend p).foldl (fun s u => match u with
      | .choice l mb t c f st => s.setChoice l mb t c f st
      | _ => s) s) s

/-- Token chunks of a pitch reach this engine: they land, or return (R258, R261). -/
def State.tokenChunkIn (s : State) (pitch : Nat) (whole : List Byte) : State :=
  if (s.tokenPins pitch true) ≠ [] ∧ (TokTrailer.parse (whole.drop (whole.length - 32))).type = 1 then s.landReturn pitch whole
  else s.landToken pitch whole

/-- The token chunks of a multi-chunk packet, split from its end (R316). -/
def splitChunks : Nat → List Byte → List (List Byte)
  | 0, _ => []
  | fuel + 1, bs =>
    if bs.length < 32 then (if bs = [] then [] else [bs])
    else
      let n := (TokTrailer.parse (bs.drop (bs.length - 32))).len + 32
      if n ≥ bs.length then [bs] else splitChunks fuel (bs.take (bs.length - n)) ++ [bs.drop (bs.length - n)]

/-- The cairns of a token pitch at its cutoff (R268): MISSING for counts missing or choices lost, CHUNK-CHECK, MALFORMED and
TABLE-GEN for chunks discarded, one each for every slice. -/
def State.tokenCairns (s : State) (pitch : Nat) : State :=
  (List.range 8).foldl (fun s sl =>
    let n := fun kind => s.seq.misses.get 0 ((kind * 8 + sl) * 2 ^ 16 + pitch)
    let src := sliceSource 6 sl
    let s := if n 6 > 0 then s.raise 0x0D src 0 pitch (n 6) else s
    let s := if n 3 > 0 then s.raise 0x04 src 0 pitch (n 3) else s
    let s := if n 4 > 0 then s.raise 0x0E src 0 pitch (n 4) else s
    if n 5 > 0 then s.raise 0x0F src 0 pitch (n 5) else s) s

end Sys2Proof.Machine
end

