-- ==== Sys2Proof/Machine/TokenPins.lean ====
section
/-! DEFINITION. The pins of token exchange (chapter Token Exchange for Routed Layers): the route pass (R245), forward and backward
sends (R255, R262) and the RETURN (R261). -/

namespace Sys2Proof.Machine

/-- A DISPATCH pin has issued: it is remembered for the step, with the tick of its completion (R244, R254). -/
def State.tokIssue (s : State) (st : Nat) (p : Pin) (void : Bool) : State :=
  { s with tok := { s.tok with done := s.tok.done ++
      [⟨p.layer, p.mb, p.batch, p.arg % 4, p.rank, s.count + s.latency st p, void⟩] } }

/-- The route pass of a batch has completed (R254). -/
def State.routed (s : State) (p : Pin) : Bool :=
  s.tok.done.any (fun x => x.layer == p.layer && x.mb == p.mb && x.batch == p.batch && x.role == 0 && decide (x.doneAt ≤ s.count))

/-- ROUTE_PASS (R245 to R249). -/
def State.routePassPin (s : State) (stream : Nat) (x : Issue) : State :=
  let p := x.pin
  s.issuePin stream x (firstRow (s.resBusy (pinRes stream p)) false false) (fun s void =>
    let r := s.routePass p void
    (r.1.tokIssue stream p void).flyHeld stream x void r.2)

/-- The row ROUTE_PASS. -/
def execRoutePass (stream : Nat) (s : State) : Host.Outcome State Fault Refusal :=
  answer s (s.runPin stream (fun p => p.isDispatch 0) (fun x s => s.routePassPin stream x))

/-- The packets of a token pin leave by its port, or its chunks land on this engine through PORTQ 36 (R251, R252). -/
def State.flyTokens (s : State) (st : Nat) (x : Issue) (chunks : List (List Byte)) (count : Option (List Byte)) (upds : List Upd) :
    State :=
  let p := x.pin
  let d := s.image.layerOf p.layer
  let dst := (s.image.group d.group).member s.coord p.rank
  if p.portq = 36 then
    let land := chunks ++ (match count with | some c => [c] | none => [])
    (s.flyHeld st x false upds).fly st x.side (s.latency st p + 14) false [.land p.pitch land]
  else
    let pk := tokenPackets d.group s.coord dst p.pitch s.seq.step chunks count
    s.flyHeld st x false ((if s.upTowards p.portq dst ∧ pk ≠ [] then [.send p.portq pk] else []) ++ upds)

/-- A send of a batch (R255, R256, R262). A fenced home slice leaves nothing to send, and that is no breach (R199, Table 7-11). -/
def State.sendTokens (s : State) (st : Nat) (x : Issue) : State :=
  let p := x.pin
  let cond := firstRow (s.portBusy st x || s.resBusy (pinRes st p)) false (!s.routed p)
  s.issuePin st x cond (fun s void =>
    let gone := (s.slice ((s.image.layerOf p.layer).homeSlice p.mb)).fenced
    if void ∨ gone then (s.tokIssue st p void).flyHeld st x void (s.voidSend p)
    else
      let r := (s.takePort st x).tokenSend st p
      (r.1.tokIssue st p void).flyTokens st x r.2.1 (some r.2.2.1) r.2.2.2)

/-- FORWARD_SEND (R255, R256). -/
def execForwardSend (stream : Nat) (s : State) : Host.Outcome State Fault Refusal :=
  answer s (s.runPin stream (fun p => p.isDispatch 1) (fun x s => s.sendTokens stream x))

/-- BACKWARD_SEND (R262). -/
def execBackwardSend (stream : Nat) (s : State) : Host.Outcome State Fault Refusal :=
  answer s (s.runPin stream (fun p => p.isDispatch 2) (fun x s => s.sendTokens stream x))

/-- RETURN (R261): the outputs of every valid slot of the source rank go back to it. -/
def State.returnPin (s : State) (stream : Nat) (x : Issue) : State :=
  let p := x.pin
  let cond := firstRow (s.portBusy stream x || s.resBusy (pinRes stream p)) false (!s.landed p)
  s.issuePin stream x cond (fun s void =>
    if void then s.flyHeld stream x true []
    else
      let r := (s.takePort stream x).returnChunks stream p
      r.1.flyTokens stream x r.2.1 none r.2.2)

/-- The row RETURN. -/
def execReturnPin (stream : Nat) (s : State) : Host.Outcome State Fault Refusal :=
  answer s (s.runPin stream (fun p => p.op == 13) (fun x s => s.returnPin stream x))

end Sys2Proof.Machine
end

