-- ==== Sys2Proof/Machine/ControlPins.lean ====
section
/-! DEFINITION. NOP (R165), and the pins of the engine stream: OPEN (R187), GATE (R192) and SEAL (R36, R405, R407) with its
completion. -/

namespace Sys2Proof.Machine

/-- The row NOP: a NOP occupies its issue cycle and does nothing (R165). -/
def execNop (stream : Nat) (s : State) : Host.Outcome State Fault Refusal :=
  answer s (s.runPin stream (fun p => p.op == 0) (fun _ s => s))

/-! ### OPEN -/

/-- OPEN (R187): the window of the record opens; a void one does not (Table 5-13). -/
def State.openPin (s : State) (stream : Nat) (x : Issue) : State :=
  s.issuePin stream x 0 (fun s void =>
    { s with seq := { s.seq with windows := s.seq.windows ++ [(x.sec, x.pin.pitch, x.pin.tick, void)] } })

/-- The row OPEN. -/
def execOpenPin (stream : Nat) (s : State) : Host.Outcome State Fault Refusal :=
  answer s (s.runPin stream (fun p => p.op == 15) (fun x s => s.openPin stream x))

/-! ### GATE -/

/-- A doorbell is consumed (R192): the working origin of the step is 64 ticks from now, and the record holds the wait (Table
11-11). Later origins follow from the working one (log 24). -/
def State.takeDoorbell (s : State) : State :=
  let c := s.count
  let wait := c - s.seq.origin
  let o := c + 64
  let s := s.onRec (fun r => { r with host := r.host ++ [leBytes 16 (1 + wait % 2 ^ 32 * 2 ^ 32 + c * 2 ^ 64)] })
  { s with seq := { s.seq with
      doorbells := s.seq.doorbells - 1, gateWait := false, origin := o, secOrigin := o
      nextOrigin := s.pricking.head.originAfter s.seq.step o (s.seq.step + 1) } }

/-- In replay mode, the record of the step holds the doorbell that its GATE took (Table 11-12, log 27). -/
def State.forcedDoorbell (s : State) : Bool := s.req.replay && s.req.replayHost.any (fun h => bytesAt h 0 1 == 1)

/-- GATE (R192): in relaxed timing it takes a doorbell, or holds the engine until there is one; in locked mode it is a NOP (R169). -/
def State.gatePin (s : State) : State :=
  if !s.relaxed then s
  else if s.forcedDoorbell then State.takeDoorbell { s with seq := { s.seq with doorbells := s.seq.doorbells + 1 } }
  else if s.seq.doorbells > 0 then s.takeDoorbell
  else { s with seq := { s.seq with gateWait := true } }

/-- The row GATE. -/
def execGate (stream : Nat) (s : State) : Host.Outcome State Fault Refusal :=
  answer s (s.runPin stream (fun p => p.op == 16) (fun _ s => s.gatePin))

/-! ### SEAL -/

/-- Late blocks of a tensor on a slice (R110). -/
def State.lateBlocks (s : State) (sl t : Nat) : Nat :=
  let pol := s.image.policyOf t
  ((pol.blocksOf sl).filter (fun b => (s.block sl (pol.entry b)).late)).length

/-- The LATE cairn of a tensor on a slice, once in a step (R112). -/
def State.lateCairn (s : State) (sl t : Nat) : State :=
  let n := s.lateBlocks sl t
  if n = 0 ∨ (s.tensor sl t).lateReported then s
  else (s.raise 0x0C (sliceSource 1 sl) 0 t n).onTensor sl t (fun x => { x with lateReported := true })

/-- The LATE cairns still due at the SEAL: tensors (R112), and the layers whose token tiles were late (R244). -/
def State.lateCairns (s : State) : State :=
  let s := (List.range 8).foldl (fun s sl => s.image.policy.foldl (fun s e => s.lateCairn sl e.1) s) s
  s.tok.lateLayers.eraseDups.foldl (fun s k =>
    s.raise 0x0C (sliceSource 1 (k / 4096)) 0 (streamId (k % 4096) 0) (s.tok.lateLayers.filter (· = k)).length) s

/-- The tick from which the seal unit is free. -/
def State.sealFrom (s : State) : Nat :=
  (s.seq.holds.filter (fun h => h.res == .seal)).foldl (fun t h => Nat.max t h.stop) s.count

/-- The step's record closes (R37): the seal is formed over it, and later events belong to the next step. In replay mode the seal
is compared with the recorded one (R414). -/
def State.closeRecord (s : State) : State :=
  let r := s.srec
  let d := sha256 (s.sealMessage r)
  let bad := s.req.replay && d != s.req.replaySeal
  let r := { r with digest := d, lstatus := if bad then setBit r.lstatus 3 else r.lstatus }
  let s := { s with sealing := s.sealing ++ [r], srec := { StepRec.reset with
      step := r.step + 1, variant := r.variant, lstatus := if s.req.replay then 2 else 0 } }
  let s := { s with tok := { s.tok with lateLayers := [] } }
  if bad then s.raise 0x15 (source 3 0) 0xA (r.step % 2 ^ 32) 0 else s

/-- SEAL (R36, R405): never void; it waits for the seal unit, and the step is marked (Table 5-13). -/
def State.sealPin (s : State) (stream : Nat) (x : Issue) : State :=
  let s := (s.settleClips true).lateCairns
  let cond := (s.forcedOverrun stream x).getD (if s.resBusy [.seal] then 1 else 0)
  let s := if cond = 0 ∨ x.gone then s else s.overrun stream x cond
  let t := s.sealFrom
  let s := s.closeRecord.occupy [.seal] t (t + 2048)
  s.fly stream x (t + 2048 - s.count) false []

/-- The row SEAL. -/
def execSeal (stream : Nat) (s : State) : Host.Outcome State Fault Refusal :=
  answer s (s.runPin stream (fun p => p.op == 17) (fun x s => s.sealPin stream x))

/-- A SEAL whose completion is due (R407). -/
def State.dueSeal (s : State) : Option Flight := s.seq.flights.find? (fun f => f.pin.op == 17 && decide (f.done ≤ s.count))

/-- SEAL_COMPLETION (R407): 2,048 ticks after the SEAL. -/
def State.sealDone (s : State) : State :=
  match s.dueSeal with
  | some f => State.completeSeal { s with seq := { s.seq with flights := s.seq.flights.erase f } }
  | none => s

/-- The row SEAL_COMPLETION. -/
def execSealCompletion (s : State) : Host.Outcome State Fault Refusal := answer s s.sealDone

end Sys2Proof.Machine
end

