-- ==== Sys2Proof/Machine/Delivery.lean ====
section
/-! DEFINITION. DELIVER pins: to a station (R159, R277, R280), to HBM (R160, R225, R265, R283), to compute scratch (R160, R234), to the
heat table (R97, R171), and the HBM-to-HBM copy of a checkpoint section (R186). -/

namespace Sys2Proof.Machine

/-- A DELIVER issues: its buffer is judged and read; `run` gives what a pin that is not void makes visible, for the chunk, or
for none where the buffer is MISSING. -/
def State.deliver (s : State) (st : Nat) (x : Issue) (busy notFree : State → Bool) (run : State → Option Chunk → State × List Upd) :
    State :=
  let p := x.pin
  let s := s.judgeRead st p.buf
  s.issuePin st x (firstRow (busy s) (notFree s) (!s.readable st p.buf)) (fun s void =>
    if void then s.flyHeld st x true (releaseUpd st p)
    else
      let r := run (s.gapIf st p) (s.chunkAt st p.buf)
      r.1.flyHeld st x false (r.2 ++ releaseUpd st p))

/-- The slots that a DELIVER to a station writes, the squares that it adds, its refusals and its saturations. -/
def State.stationUpds (s : State) (st : Nat) (p : Pin) (c : Option Chunk) : State × List Upd :=
  let w := s.stationWrites st p c
  let norm := fun (x : StSlot) => (show List Upd from
    if x.missing then []
    else [.norm p.portq (s.image.optim.entries.get default x.tensor).nset 0 x.tensor (sumNat (x.data.map squareUnits))])
  (s.saturated st 7 4 p.pitch p.chunk w.2.2,
   w.1.flatMap (fun e => Upd.slot p.portq e.1 e.2 :: norm e.2) ++
     (if w.2.1 = 0 then [] else [.count (stationCounter 5) (unitWord 0 p.portq 0) w.2.1]))

/-- DELIVER_TO_STATION (R277, R278, R280). -/
def State.deliverToStationPin (s : State) (stream : Nat) (x : Issue) : State :=
  let p := x.pin
  s.deliver stream x (fun _ => false)
    (fun s => (s.stationWrites stream p none).1.any (fun e => s.slotInUse p.portq e.1))
    (fun s c => s.stationUpds stream p c)

/-- The row DELIVER_TO_STATION. -/
def execDeliverToStation (stream : Nat) (s : State) : Host.Outcome State Fault Refusal :=
  answer s (s.runPin stream Pin.isToStation (fun x s => s.deliverToStationPin stream x))

/-- What a DELIVER to HBM makes visible (R160, R225, R265, R283). -/
def State.hbmUpds (s : State) (st : Nat) (p : Pin) (c : Option Chunk) : State × List Upd :=
  let md := s.pricking.mdescAt p.arg
  match s.installTarget st md with
  | some i => (s, [.install st i (match c with | some c => if c.null then none else some (c.data.take md.length) | none => none)])
  | none =>
    match c with
    | none => (s, [])
    | some c =>
      let k := (s.pitchOf p).kind
      if k = 2 ∨ k = 3 then
        (s, match s.picot p.pitch with | some q => [.mem md.base (s.picotBytes q)] | none => [])
      else if c.kind = 0 ∧ md.kind = 0 then
        let g := s.gradients st p.pitch p.chunk c
        (s.saturated st 7 4 p.pitch p.chunk g.2, [.mem md.base ((g.1.flatMap (leBytes 4)).take (md.length / 4 * 4))])
      else if c.null then (s, [])
      else (s, [.mem md.base (c.data.take md.length)])

/-- DELIVER_TO_HBM (R160). -/
def State.deliverToHbmPin (s : State) (stream : Nat) (x : Issue) : State :=
  let p := x.pin
  match s.installTarget stream (s.pricking.mdescAt p.arg) with
  | some i =>
    -- a void DELIVER of a table delivers nothing (R221)
    let s := s.judgeRead stream p.buf
    s.issuePin stream x (firstRow (s.resBusy [.movers stream]) false (!s.readable stream p.buf)) (fun s void =>
      let r := if void then (s, [Upd.install stream i none]) else (s.gapIf stream p).hbmUpds stream p (s.chunkAt stream p.buf)
      r.1.flyHeld stream x void (r.2 ++ releaseUpd stream p))
  | none => s.deliver stream x (fun s => s.resBusy [.movers stream]) (fun _ => false) (fun s c => s.hbmUpds stream p c)

/-- The row DELIVER_TO_HBM. -/
def execDeliverToHbm (stream : Nat) (s : State) : Host.Outcome State Fault Refusal :=
  answer s (s.runPin stream (fun p => p.isDeliver 32) (fun x s => s.deliverToHbmPin stream x))

/-- DELIVER_TO_COMPUTE_SCRATCH (R160, R234): a null or missing chunk leaves compute scratch as it is (R154, R158). -/
def State.deliverToComputeScratchPin (s : State) (stream : Nat) (x : Issue) : State :=
  let p := x.pin
  s.deliver stream x (fun _ => false) (fun _ => false) (fun s c =>
    (s, match c with
        | some c => if c.null then [] else [.scratch stream p.pitch p.chunk c.data]
        | none => []))

/-- The row DELIVER_TO_COMPUTE_SCRATCH. -/
def execDeliverToComputeScratch (stream : Nat) (s : State) : Host.Outcome State Fault Refusal :=
  answer s (s.runPin stream (fun p => p.isDeliver 33) (fun x s => s.deliverToComputeScratchPin stream x))

/-- What a DELIVER to the heat table makes visible (R97, R171): the codes, and the heats heard. -/
def State.heatUpds (s : State) (st : Nat) (p : Pin) (c : Chunk) : List Upd :=
  let md := s.pricking.mdescAt p.arg
  let t := md.base % 2 ^ 20
  let first := (s.image.policyOf t).heatBase + md.length
  let gs := if c.null then List.replicate c.elems 0 else c.ints.map Int.toNat
  (indexed gs).map (fun e => Upd.heat st (first + e.1) (heatCode e.2)) ++ [.heard st t (maxNat gs) gs.length]

/-- DELIVER_TO_HEAT_TABLE (R171). -/
def State.deliverToHeatTablePin (s : State) (stream : Nat) (x : Issue) : State :=
  let p := x.pin
  s.deliver stream x (fun _ => false) (fun _ => false) (fun s c =>
    (s, match c with | some c => s.heatUpds stream p c | none => []))

/-- The row DELIVER_TO_HEAT_TABLE. -/
def execDeliverToHeatTable (stream : Nat) (s : State) : Host.Outcome State Fault Refusal :=
  answer s (s.runPin stream (fun p => p.isDeliver 34) (fun x s => s.deliverToHeatTablePin stream x))

/-- DELIVER_COPY (R186): descriptor ARG is copied to descriptor ARG + 1; what cannot be read is not written. -/
def State.deliverCopyPin (s : State) (stream : Nat) (x : Issue) : State :=
  let p := x.pin
  s.issuePin stream x (firstRow (s.resBusy [.movers stream]) false false) (fun s void =>
    let a := s.pricking.mdescAt p.arg
    let b := s.pricking.mdescAt (p.arg + 1)
    let n := Nat.min a.length b.length
    if void then s.flyHeld stream x true []
    else if s.hbmFaulty a.base n then (s.hbmError (sliceSource 7 stream) a.base).flyHeld stream x false []
    else s.flyHeld stream x false [.mem b.base (s.hbmRead a.base n)])

/-- The row DELIVER_COPY. -/
def execDeliverCopy (stream : Nat) (s : State) : Host.Outcome State Fault Refusal :=
  answer s (s.runPin stream Pin.isCopy (fun x s => s.deliverCopyPin stream x))

end Sys2Proof.Machine
end

