-- ==== Sys2Proof/Machine/SelectPins.lean ====
section
/-! DEFINITION. The pins of selection (chapter Intake, Selection and Error Feedback): HEAT (R93, R502), its settle (R99), SELECT with
WIDE set (R168) and SELECT (R103, R501). -/

namespace Sys2Proof.Machine

/-! ### Areas of chunk buffers -/

/-- First unit and length in units of chunk `j` of an area of chunk size code `csize` at unit `a` (R501). -/
def areaUnit (a csize j : Nat) : Nat × Nat := (a + j * unitsFor (csizeBytes csize), unitsFor (csizeBytes csize))

/-- Every chunk of an area of `n` chunks can be claimed. -/
def State.areaFree (s : State) (sl a csize n : Nat) : Bool :=
  (List.range n).all (fun j => let u := areaUnit a csize j; (s.slice sl).unitsFree u.1 u.2)

/-- Every chunk of an area claimed. -/
def State.claimArea (s : State) (sl a csize n : Nat) (c : Nat → Chunk) : State :=
  (List.range n).foldl (fun s j => let u := areaUnit a csize j; s.claim sl u.1 u.2 (c j)) s

/-! ### HEAT -/

/-- The local heat chunks of a HEAT pin: each a run of the pin's heats (R502). -/
def heatChunks (pol : Policy) (step csize : Nat) (eh : Option Int) (raw : Int) (hs : List Nat) : List Chunk :=
  (pieces (csizeBytes csize / 2) hs).map (fun run => heatChunk pol step eh raw run (csizeBytes csize / 2))

/-- The blocks of a HEAT pin judged, and their local heats. -/
def State.heatBlocks (s : State) (st : Nat) (p : Pin) : State × List Nat :=
  let pol := s.image.policyOf p.pitch
  (pol.pinBlocks st p.chunk p.arg).foldl (fun a b =>
    let r := a.1.heatOf st p.pitch b (s.heatExpRaw p.pitch)
    (r.1, a.2 ++ [r.2])) (s, [])

/-- A void HEAT (Table 5-13): its blocks contribute 0 and are late. -/
def State.voidHeat (s : State) (st : Nat) (p : Pin) : State :=
  ((s.image.policyOf p.pitch).pinBlocks st p.chunk p.arg).foldl (fun s b => s.markLate st p.pitch b) s

/-- HEAT (R93, R502). -/
def State.heatPin (s : State) (stream : Nat) (x : Issue) : State :=
  let p := x.pin
  let pol := s.image.policyOf p.pitch
  let n := ceilDiv (2 * p.arg) (csizeBytes p.portq)
  let room := s.areaFree stream p.buf p.portq n
  let cond := firstRow (s.resBusy (pinRes stream p)) (!room) false
  s.issuePin stream x cond (fun s void =>
    let units := (List.range n).map (fun j => (areaUnit p.buf p.portq j).1)
    if void then
      let s := if room then s.claimArea stream p.buf p.portq n (fun _ => default) else s
      (s.voidHeat stream p).flyHeld stream x true (if room then units.map (fun u => .buf stream u .missing default) else [])
    else
      let r := s.heatBlocks stream p
      let eh := s.heatExp p.pitch
      let cs := heatChunks pol s.seq.step p.portq eh (s.heatExpRaw p.pitch) r.2
      let s := r.1.claimArea stream p.buf p.portq n (fun _ => default)
      let s := if eh.isNone then s.bump 0x78 (unitWord p.pitch 0 0) cs.length else s
      s.flyHeld stream x false ((units.zip cs).map (fun e => .buf stream e.1 .ready e.2)))

/-- The row HEAT. -/
def execHeat (stream : Nat) (s : State) : Host.Outcome State Fault Refusal :=
  answer s (s.runPin stream (fun p => p.op == 7 && !p.aux) (fun x s => s.heatPin stream x))

/-- HEAT_SETTLE (R98 to R101): the main and wide sets of the tensor are fixed. -/
def State.heatSettlePin (s : State) (stream : Nat) (x : Issue) : State :=
  let p := x.pin
  let pol := s.image.policyOf p.pitch
  s.issuePin stream x (firstRow (s.resBusy (pinRes stream p)) false false) (fun s void =>
    if void then (s.onTensor stream p.pitch (fun t => { t with voidSettle := true })).flyHeld stream x true []
    else
      let lacks := !s.heatHeard p.pitch
      (s.onTensor stream p.pitch (fun t => { t with lacking := lacks })).flyHeld stream x false
        [.settle stream p.pitch (settledOn pol stream (settleOf pol (s.heatCodes p.pitch)))])

/-- The row HEAT_SETTLE. -/
def execHeatSettle (stream : Nat) (s : State) : Host.Outcome State Fault Refusal :=
  answer s (s.runPin stream (fun p => p.op == 7 && p.aux) (fun x s => s.heatSettlePin stream x))

/-! ### SELECT -/

/-- SELECT_WIDE (R168): the tensor's side area is claimed. -/
def State.selectWidePin (s : State) (stream : Nat) (x : Issue) : State :=
  let p := x.pin
  s.issuePin stream x (firstRow false (!s.areaFree stream p.buf p.portq p.arg) false) (fun s void =>
    if void then s.fly stream x 0 true []
    else
      let s := s.claimArea stream p.buf p.portq p.arg (fun _ => default)
      (s.onTensor stream p.pitch (fun t => { t with side := some (p.buf, p.portq, p.arg) })).fly stream x 0 false [])

/-- The row SELECT_WIDE. -/
def execSelectWide (stream : Nat) (s : State) : Host.Outcome State Fault Refusal :=
  answer s (s.runPin stream (fun p => p.op == 6 && p.wide) (fun x s => s.selectWidePin stream x))

/-- The slice's stream holds a settle of the tensor in the step section. -/
def State.needsSettle (s : State) (sl t : Nat) : Bool :=
  (s.pricking.stream 0 sl).any (fun p => p.op == 7 && p.aux && p.pitch == t)

/-- The slice's stream holds a HEAT pin for a block in the step section (R110). -/
def State.hasHeat (s : State) (sl t off : Nat) : Bool :=
  (s.pricking.stream 0 sl).any (fun p => p.op == 7 && !p.aux && p.pitch == t && p.chunk ≤ off && off < p.chunk + p.arg)

/-- The local visit count that a mapped tensor's first SELECT reads, kept for the step (R267); none for a tensor without an
expert. -/
def State.readVisits (s : State) (sl t : Nat) : State :=
  match s.image.routed.experts.find t, (s.tensor sl t).visited with
  | some (l, e), none =>
    let p := Nat.max 1 (s.image.routedP (s.image.layerOf l))
    s.onTensor sl t (fun x => { x with visited := some (s.tok.visits.get 0 (l * 1024 + e % p)) })
  | _, _ => s

/-- The blocks of the tensor are null contributions: its expert had no visit (R267). -/
def State.noVisit (s : State) (sl t : Nat) : Bool := (s.tensor sl t).visited == some 0

/-- The unit of a chunk of an area whose blocks are `bs`. -/
def Policy.chunkUnit (pol : Policy) (bs : List Nat) : Nat := match bs with | b :: _ => pol.unitOf b | [] => 0

/-- The chunks of the tensor's areas take their fields, as the layout places the blocks (R501): null where the unit or the
tensor sends null. Null chunks for history are counted. -/
def State.layAreas (s : State) (sl t : Nat) (csize chunks : Nat) (unit : Nat) (wide : Bool) : State :=
  let pol := s.image.policyOf t
  let lay := s.areaLayout sl t wide csize
  (List.range chunks).foldl (fun s j =>
    let bs := nth lay j []
    let hist := bs ≠ [] && s.sendsNull t (pol.chunkUnit bs)
    let s := if hist then s.bump 0x78 (unitWord t 0 0) 1 else s
    let u := (areaUnit unit csize j).1
    match s.buf sl u with
    | some b => s.setBuf sl u b.st (s.areaChunk t wide (hist || s.noVisit sl t) bs csize)
    | none => s) s

/-- The first SELECT of a tensor in the step: its main area claimed, the chunks of both areas laid out, and w counted by the
first slice of SLICES. -/
def State.openAreas (s : State) (sl : Nat) (p : Pin) : State :=
  let t := p.pitch
  let pol := s.image.policyOf t
  let n := pol.mainChunks sl (csizeBytes p.portq)
  let s := s.readVisits sl t
  let room := s.areaFree sl p.buf p.portq n
  let s := if room then s.claimArea sl p.buf p.portq n (fun _ => default) else s
  let s := s.onTensor sl t (fun x => { x with main := some (if room then p.buf else noBuffer, p.portq) })
  let s := if room then s.layAreas sl t p.portq n p.buf false else s
  let s := match (s.tensor sl t).side with
    | some a => s.layAreas sl t a.2.1 a.2.2 a.1 true
    | none => s
  if (maskBits pol.slices).head? = some sl then
    s.bump 0x74 (unitWord t 0 0) (((s.tensor sl t).settled.map (·.w)).getD 0)
  else s

/-- The payload of a block written into its chunk. -/
def State.writeBlock (s : State) (sl t b : Nat) (wide : Bool) (ks : List Int) : State :=
  let pol := s.image.policyOf t
  let area := if wide then (s.tensor sl t).side.map (fun a => (a.1, a.2.1)) else (s.tensor sl t).main
  match area with
  | none => s
  | some (a, csize) =>
    let lay := s.areaLayout sl t wide csize
    match lay.findIdx? (fun bs => bs.contains b) with
    | none => s
    | some j =>
      let i := (nth lay j []).findIdx (· = b)
      let u := (areaUnit a csize j).1
      let sz := if wide then 2048 else pol.mainBytes
      let fmt := if wide then 1 else pol.mainFmt
      match s.buf sl u with
      | none => s
      | some x =>
        if x.chunk.null then s
        else s.setBuf sl u x.st { x.chunk with data := writeAt x.chunk.data (i * sz) (packElems fmt ks) }

/-- The largest |x| of a block offered to its unit's PICOT MAX (R44, R106). -/
def State.offerMax (s : State) (sl t b : Nat) (xs : List Nat) : State :=
  let u := (s.image.policyOf t).unitOf b
  let m := maxNat (xs.map f32Abs)
  s.onTensor sl t (fun x => { x with localMax := x.localMax.put u (Nat.max (x.localMax.get 0 u) m) })

/-- One block of a SELECT (R103, R107, R110): its payload written, its residual to come. -/
def State.selectOne (s : State) (sl t : Nat) (void : Bool) (b : Nat) : State × List Upd :=
  let pol := s.image.policyOf t
  let ent := pol.entry b
  let gone := s.noVisit sl t
  let s := if !gone ∧ !(s.block sl ent).complete ∧ !s.hasHeat sl t (pol.home b).2 then s.markLate sl t b else s
  let x := s.blockX sl t b
  let s := s.bump 4 (unitOfBlock pol t b) x.2.1
  let s := if x.2.2 then ((if void then s else s.markLate sl t b).hbmError (sliceSource 2 sl) (pol.resBase + 4096 * b)) else s
  let s := s.offerMax sl t b x.1
  let nul := gone || s.sendsNull t (pol.unitOf b)
  let q := s.selectBlock sl t b x.1 nul void x.2.2
  let wide := (s.wideSet sl t).contains b
  let s := (s.bump 0 (unitOfBlock pol t b) q.2.clamped).bump 4 (unitOfBlock pol t b) q.2.saturated
  let scaleSat := pol.runMode = 4 && !wide && !void && !nul &&
    (signScale ((s.slice sl).heat.get 0 ent) ((s.heatExp t).getD 0) pol.hgroup).2
  let s := if scaleSat then s.bump 0x18 (unitWord t 0 0) 1 else s
  let s := s.onBlock sl ent (fun y => { y with selected := true })
  let s := match q.1 with | some ks => if void then s else s.writeBlock sl t b wide ks | none => s
  (s, [.resid sl t b q.2.resid])

/-- A chunk of an area closes (R501): READY, or MISSING where a void SELECT had one of its blocks. -/
def State.closeChunk (s : State) (sl t u : Nat) (bs : List Nat) : List Upd :=
  match s.buf sl u with
  | none => []
  | some b =>
    if bs.any (fun x => (s.tensor sl t).lost.contains x) then [.buf sl u .missing default]
    else
      let c := b.chunk
      [.buf sl u .ready { c with cord := cordOf c.kind c.routed c.null c.ints }]

/-- The chunks of an area that a SELECT of the blocks `mine` closes; `tail` says that it holds the slice's last block. -/
def State.closeArea (s : State) (sl t : Nat) (wide : Bool) (a csize chunks : Nat) (mine : List Nat) (tail : Bool) : List Upd :=
  let lay := s.areaLayout sl t wide csize
  (List.range chunks).flatMap (fun j =>
    let bs := nth lay j []
    let closes := match bs.getLast? with | some b => mine.contains b | none => tail
    if closes then s.closeChunk sl t (areaUnit a csize j).1 bs else [])

/-- What a SELECT makes visible besides its residuals: the chunks it closes, and the tensor's LATE cairn after its last one. -/
def State.selectCloses (s : State) (sl : Nat) (x : Issue) (mine : List Nat) : List Upd :=
  let t := x.pin.pitch
  let pol := s.image.policyOf t
  let tail := match (pol.blocksOf sl).getLast? with | some b => mine.contains b | none => true
  let main := match (s.tensor sl t).main with
    | some (a, csize) => s.closeArea sl t false a csize (pol.mainChunks sl (csizeBytes csize)) mine tail
    | none => []
  let side := match (s.tensor sl t).side with
    | some (a, csize, n) => s.closeArea sl t true a csize n mine tail
    | none => []
  let more := (indexed (s.pricking.stream 0 sl)).any (fun e => e.1 > x.index && e.2.op == 6 && !e.2.wide && e.2.pitch == t)
  main ++ side ++ (if more then [] else [.late sl t])

/-- SELECT (R103, R501). -/
def State.selectPin (s : State) (stream : Nat) (x : Issue) : State :=
  let p := x.pin
  let t := p.pitch
  let pol := s.image.policyOf t
  let ts := s.tensor stream t
  let room := ts.main.isSome || s.areaFree stream p.buf p.portq (pol.mainChunks stream (csizeBytes p.portq))
  let settled := !s.needsSettle stream t || ts.settled.isSome || ts.voidSettle
  let cond := firstRow (s.resBusy (pinRes stream p)) (!room) (!settled)
  s.issuePin stream x cond (fun s void =>
    let void := void || (s.needsSettle stream t && ts.voidSettle)
    let s := if ts.main.isNone then s.openAreas stream p else s
    let mine := pol.pinBlocks stream p.chunk p.arg
    let s := if void then s.onTensor stream t (fun y => { y with lost := y.lost ++ mine }) else s
    let r := mine.foldl (fun a b => let q := a.1.selectOne stream t void b; (q.1, a.2 ++ q.2)) (s, [])
    r.1.flyHeld stream x void (r.2 ++ r.1.selectCloses stream x mine))

/-- The row SELECT. -/
def execSelect (stream : Nat) (s : State) : Host.Outcome State Fault Refusal :=
  answer s (s.runPin stream (fun p => p.op == 6 && !p.wide) (fun x s => s.selectPin stream x))

end Sys2Proof.Machine
end

