-- ==== Sys2Proof/Machine/Completion.lean ====
section
/-! DEFINITION. PIN_COMPLETION (R172, R176): a pin's result becomes visible, and an uncorrectable memory error met while a pin works
has the outcome of Table 13-4 (R473). -/

namespace Sys2Proof.Machine

/-! ### What becomes visible -/

/-- The residual of a block after its SELECT, the staged tile taken, and the tiles that waited added (R107). -/
def State.landResidual (s : State) (sl t b : Nat) (data : List Nat) : State :=
  let mine := fun (x : Tile) => x.tensor == t && x.block == b
  let held := (s.slice sl).held.filter mine
  let s := s.onSlice sl (fun x => { x with tiles := x.tiles.filter (fun y => !mine y), held := x.held.filter (fun y => !mine y) })
  held.foldl (fun s y => s.addResidual sl t b y.data) (s.setResidual t b data)

/-- Level residuals of a chunk, and the level maximum of its unit (R58, R59). -/
def State.landLevel (s : State) (pitch chunk : Nat) (l : List Int) (t u mz : Nat) : State :=
  { s with
    levelRes := s.levelRes.put (levelKey pitch chunk) l
    levelMax := s.levelMax.put (unitKey t u) (Nat.max (s.levelMax.get 0 (unitKey t u)) mz) }

/-- A chunk that crossed the die-to-die links reaches the slice whose EXPECT waits for it (R132); where none does it is
discarded (R178). -/
def State.landCross (s : State) (pitch chunk : Nat) (whole : List Byte) : State :=
  let waits := fun (sl : Nat) => match s.opening sl pitch chunk with
    | some o => o.step == s.seq.step && o.ports.contains 36
    | none => false
  match (List.range 8).find? waits with
  | some sl =>
    match s.opening sl pitch chunk with
    | some o => s.acceptChunk sl o s.coord whole
    | none => s
  | none => s

/-- One result of a pin made visible (R172). -/
def State.applyUpd (s : State) : Upd → State
  | .buf sl u st c => s.setBuf sl u st c
  | .free sl u => s.freeBuf sl u
  | .mem a bs => s.hbmWrite a bs
  | .resid sl t b data => s.landResidual sl t b data
  | .heat sl e code => s.onSlice sl (fun x => { x with heat := x.heat.put e code })
  | .settle sl t st => s.onTensor sl t (fun x => { x with settled := some st })
  | .heard sl t gmax n => s.onTensor sl t (fun x => { x with gmax := Nat.max x.gmax gmax, heard := x.heard + n })
  | .level p k l t u mz => s.landLevel p k l t u mz
  | .send port pkts => s.transmit port pkts
  | .slot k n x => s.writeSlot k n x
  | .unslot k n => s.onStation k (fun y => { y with slots := y.slots.del n })
  | .norm k set which t units => s.addNorm k set which t units
  | .shard v => s.onRec (fun r => { r with shard := (r.shard + v) % 2 ^ 64 })
  | .count off u n => s.bump off u n
  | .dev d => s.dev d
  | .cairn c => s.raise c.cls c.source c.qual c.a c.b
  | .ctx sl i c => s.onCtx sl i (fun _ => c)
  | .install sl i t => s.install sl i t
  | .picot p round => s.landPicot p round
  | .scratch sl p k bs => { s with out := { s.out with scratch := s.out.scratch ++ [(sl, p, k, bs)] } }
  | .uncarry sl p k rank => s.onSlice sl (fun x =>
      { x with carry := x.carry.filter (fun c => !(c.pitch == p && c.chunk == k && c.input.rank == rank)) })
  | .arm q => s.queueEvent q .armPin
  | .late sl t => s.lateCairn sl t
  | .choice l mb t c fwd st => s.setChoice l mb t c fwd st
  | .land p cs => cs.foldl (fun s c => s.tokenChunkIn p c) s
  | .cross p k w => s.landCross p k w

/-- A pin that completes counts in its group's queue (R477, R491). -/
def State.countPin (s : State) (f : Flight) : State :=
  match f.pin.groupOf with
  | some g => s.onGroup g (fun q => { q with done := (q.done + 1) % 2 ^ 32, last := 1 })
  | none => s

/-- A flight ends: its results become visible. -/
def State.land (s : State) (f : Flight) : State :=
  f.upds.foldl State.applyUpd (({ s with seq := { s.seq with flights := s.seq.flights.erase f } }).countPin f)

/-- The earlier of two flights, the first where both end in one tick. -/
def earlier (a : Option Flight) (f : Flight) : Option Flight :=
  match a with
  | none => some f
  | some g => if f.done < g.done then some f else some g

/-- The flight that completes next: of those due, the earliest. A SEAL has a row of its own. -/
def State.dueFlight (s : State) : Option Flight :=
  (s.seq.flights.filter (fun f => f.pin.op ≠ 17 && decide (f.done ≤ s.count))).foldl earlier none

/-- The earliest due pin completes. -/
def State.completeNext (s : State) : State :=
  match s.dueFlight with
  | some f => s.land f
  | none => s

/-! ### Uncorrectable errors (Table 13-4) -/

/-- A flight's results replaced. -/
def State.setUpds (s : State) (f : Flight) (us : List Upd) : State :=
  { s with seq := { s.seq with flights := s.seq.flights.map (fun g => if g = f then { g with upds := us } else g) } }

/-- A CHECK entry for an uncorrectable read. -/
def State.readCheck (s : State) (sl pitch chunk rank : Nat) : State := s.slotDev sl 0x0D 0x08 pitch chunk rank 0

/-- A residual block of a SELECT in flight cannot be read: the block is late, x is g for the elements lost (Table 13-4, R103). -/
def State.selectError (s : State) (f : Flight) (addr : Nat) : State :=
  let sl := f.stream
  let t := f.pin.pitch
  let pol := s.image.policyOf t
  match (pol.pinBlocks sl f.pin.chunk f.pin.arg).find? (fun b => pol.resBase + 4096 * b ≤ addr ∧ addr < pol.resBase + 4096 * b + 4096) with
  | none => s
  | some b =>
    let s := s.markLate sl t b
    let x := s.blockX sl t b
    let nul := s.noVisit sl t || s.sendsNull t (pol.unitOf b)
    let q := s.selectBlock sl t b x.1 nul f.void true
    let wide := (s.wideSet sl t).contains b
    let s := match q.1 with | some ks => if f.void then s else s.writeBlock sl t b wide ks | none => s
    s.setUpds f (f.upds.map (fun u => match u with
      | .resid sl' t' b' d => if t' = t ∧ b' = b then .resid sl' t' b' q.2.resid else .resid sl' t' b' d
      | .buf sl' u .ready c =>
        (match s.buf sl' u with
         | some y => .buf sl' u .ready { y.chunk with cord := cordOf y.chunk.kind y.chunk.routed y.chunk.null y.chunk.ints }
         | none => .buf sl' u .ready c)
      | u => u))

/-- A heat set to 0 in the chunk that holds it. -/
def Chunk.zeroHeat (c : Chunk) (i : Nat) : Chunk :=
  if c.null then c
  else
    let d := writeAt c.data (2 * i) (zeros 2)
    { c with data := d, cord := cordOf c.kind c.routed c.null (unpackElems c.fmt d c.elems) }

/-- A residual block of a HEAT in flight cannot be read: the block is late and contributes 0. -/
def State.heatError (s : State) (f : Flight) (addr : Nat) : State :=
  let t := f.pin.pitch
  let pol := s.image.policyOf t
  let bs := pol.pinBlocks f.stream f.pin.chunk f.pin.arg
  match bs.findIdx? (fun b => pol.resBase + 4096 * b ≤ addr ∧ addr < pol.resBase + 4096 * b + 4096) with
  | none => s
  | some i =>
    let per := csizeBytes f.pin.portq / 2
    let u0 := (areaUnit f.pin.buf f.pin.portq (i / per)).1
    (s.markLate f.stream t (nth bs i 0)).setUpds f (f.upds.map (fun u => match u with
      | .buf sl u .ready c => if u = u0 then .buf sl u .ready (c.zeroHeat (i % per)) else .buf sl u .ready c
      | u => u))

/-- A level residual of a REQUANT in flight cannot be read: L is 0 there (Table 13-4). -/
def State.levelError (s : State) (f : Flight) (addr : Nat) : State :=
  let p := f.pin
  let k := levelKey p.pitch p.chunk
  let pod := match s.buf f.stream p.buf with | some b => if b.st = BufSt.missing then none else some b.chunk | none => none
  let s := { s with levelRes := s.levelRes.put k ((s.levelRes.get [] k).set (Config.levelElement addr) 0) }
  (s.readCheck f.stream p.pitch p.chunk 0).setUpds f (s.requantUpds f.stream p pod f.void).1

/-- A carried partial that an EXPECT in flight took cannot be read: it is discarded (Table 13-4). -/
def State.carryError (s : State) (f : Flight) (addr : Nat) : State :=
  match s.opening f.stream f.pin.pitch f.pin.chunk with
  | none => s
  | some o =>
    let mine := o.inputs.filter (·.carried)
    match mine[Config.carryPlace addr % Nat.max 1 mine.length]? with
    | none => s
    | some i =>
      (s.onOpen f.stream o.pitch o.chunk (fun o => { o with inputs := o.inputs.erase i })).readCheck f.stream o.pitch o.chunk i.rank

/-- The n-th entry of a history becomes unsettled. -/
def unsettleAt (es : List HistEnt) (i : Nat) : List HistEnt := es.modify i (fun e => { e with val := none })

/-- An address of a tensor's history area: that history entry is unsettled (R48, R96). -/
def State.historyError (s : State) (addr : Nat) : State :=
  s.image.policy.foldl (fun s e =>
    let pol := e.2
    let units := if pol.n = 0 then 0 else pol.unitOf (pol.n - 1) + 1
    if pol.mode = 0 ∨ addr < pol.histBase then s
    else
      match Config.historyPlace units (addr - pol.histBase) with
      | none => s
      | some (u, i) =>
        if u = units then { s with heatHist := s.heatHist.put e.1 (unsettleAt (s.heatHist.get [] e.1) i) }
        else { s with scaleHist := s.scaleHist.put (unitKey e.1 u) (unsettleAt (s.scaleHist.get [] (unitKey e.1 u)) i) }) s

/-- Pins of the running section that cannot be read: each that has not issued is discharged as void, with one STALL entry for
each stream (Table 13-4, R397). -/
def State.prickingError (s : State) (addr : Nat) : State :=
  let lost := (Config.prickingPlace addr).filter (fun x => decide (x.1 = s.seq.sec ∧ s.seq.pos.getD x.2.1 0 ≤ x.2.2) && !s.seq.lost.contains x)
  if !s.seq.running then s
  else
    let s := { s with seq := { s.seq with lost := s.seq.lost ++ lost } }
    (List.range 10).foldl (fun s st =>
      let mine := lost.filter (fun x => x.2.1 = st)
      match mine with
      | [] => s
      | x :: _ => s.dev ⟨0x28, 0, streamUnit st, s.seq.sec, mine.foldl (fun m y => Nat.min m y.2.2) x.2.2, 0, mine.length⟩) s

/-- An HBM word cannot be read: the word stays bad until it is written, and what the completing pin read of it follows Table 13-4. -/
def State.hbmWordError (s : State) (f : Option Flight) (addr : Nat) : State :=
  let s := { s with hbmBad := if s.hbmBad.contains (addr / 8) then s.hbmBad else s.hbmBad ++ [addr / 8] }
  let s := (s.historyError addr).prickingError addr
  match f with
  | none => s.hbmError (source 3 0) addr
  | some f =>
    match f.pin.op with
    | 14 =>
      if f.void ∨ f.upds = [] then s.hbmError (source 7 f.pin.portq) addr
      else
        let us := s.updateUpds f.pin (s.srec.decision == some 0) s.srec.c
        let told := us.any (fun u => match u with | .cairn _ => true | _ => false)
        (if told then s else s.hbmError (source 7 f.pin.portq) addr).setUpds f us
    | 6 => (s.hbmError (sliceSource 2 f.stream) addr).selectError f addr
    | 7 => (s.hbmError (sliceSource 2 f.stream) addr).heatError f addr
    | 4 => (s.hbmError (sliceSource 4 f.stream) addr).levelError f addr
    | 2 => (s.hbmError (sliceSource 4 f.stream) addr).carryError f addr
    | 8 => s.hbmError (sliceSource 5 f.stream) addr
    | 12 => s.hbmError (sliceSource 6 f.stream) addr
    | 13 => s.hbmError (sliceSource 6 f.stream) addr
    | _ => s.hbmError (streamSource f.stream) addr

/-- A station's slot cannot be read: it becomes MISSING (R278, Table 13-4), also for an UPDATE that is reading it. -/
def State.slotError (s : State) (f : Option Flight) (k addr : Nat) : State :=
  let n := addr / 512
  let s := (s.raise 0x08 (source 7 k) 0 4 addr).onStation k (fun x =>
    { x with slots := x.slots.map (fun e => if e.1 = n then (e.1, { e.2 with missing := true }) else e) })
  match f with
  | some f =>
    if f.pin.op = 14 ∧ f.pin.portq = k ∧ !f.void ∧ f.upds ≠ [] then
      s.setUpds f (s.updateUpds f.pin (s.srec.decision == some 0) s.srec.c)
    else s
  | none => s

/-- The unit of a slice that holds a memory of R461. -/
def memoryUnit (m : Nat) : Nat :=
  if m = 1 then 7 else if m = 3 then 8 else if m = 5 then 3 else if m = 7 then 5 else if m = 8 then 9 else 0

/-- An uncorrectable memory error (R473, Table 13-4). -/
def State.memoryError (s : State) (e : MemErr) : State :=
  if e.memory = 11 then s.hbmWordError s.dueFlight e.address
  else if e.memory = 4 then s.slotError s.dueFlight e.unit e.address
  else if e.memory = 9 then
    let s := s.raise 0x08 (source 3 3) 0 9 e.address
    { s with anc := { s.anc with tracker := s.anc.tracker.eraseIdx e.address } }
  else if e.memory = 10 then
    let s := s.raise 0x08 (source 3 0) 0 10 e.address
    { s with cairn := { s.cairn with badParity := if s.cairn.badParity.contains e.address then s.cairn.badParity
        else s.cairn.badParity ++ [e.address] } }
  else if 1 ≤ e.memory ∧ e.memory ≤ 8 then
    (s.raise 0x08 (sliceSource (memoryUnit e.memory) e.unit) 0 e.memory e.address).fence e.unit 3 0x08
  else s

/-- PIN_COMPLETION (R172, R176): the earliest due pin completes, after any memory error it met. -/
def State.pinDone (s : State) (err : Option MemErr) : State :=
  match err with
  | none => s.completeNext
  | some e => if s.coreUp then (s.memoryError e).completeNext else s

/-- The row PIN_COMPLETION. -/
def execPinCompletion (err : Option MemErr) (s : State) : Host.Outcome State Fault Refusal := answer s (s.pinDone err)

end Sys2Proof.Machine
end

