-- ==== Sys2Proof/Machine/Cutoffs.lean ====
section
/-! DEFINITION. Decision ticks and cutoffs: DECISION_TICK (R176), PITCH_CUTOFF (R154, R155, R183, R230), PRUSIK_CUTOFF (R149),
TOKEN_WINDOW_CUTOFF (R259), RETURN_CUTOFF (R261). In step gate and replay mode there are no cutoffs (R193). -/

namespace Sys2Proof.Machine

/-- A pin reads the staging unit `u` as the first of a buffer. -/
def Pin.reads (p : Pin) (u : Nat) : Bool :=
  ((p.op == 1 && !p.aux && p.arg % 4 == 0) || p.op == 4 || (p.op == 5 && !p.aux) || p.op == 9 || p.op == 10) && p.buf == u ||
    (p.op == 2 && p.arg == u)

/-- DECISION_TICK (R176): a latched pin of the slice reads the buffer, so the chunk is judged before any pin of the tick issues. -/
def State.decideTick (s : State) (sl u : Nat) : State :=
  if s.isRunning ∧ sl < 8 ∧ (s.seq.issue.getD sl []).any (fun x => x.pin.reads u) then s.judgeRead sl u else s

/-- The row DECISION_TICK. -/
def execDecisionTick (slice unit : Nat) (s : State) : Host.Outcome State Fault Refusal := answer s (s.decideTick slice unit)

/-- The count has passed a tick offset of the running section, in locked timing. -/
def State.passed (s : State) (offset : Nat) : Bool :=
  s.isRunning && s.seq.running && !s.relaxed && decide (s.seq.secOrigin + offset ≤ s.count)

/-- The opcode's PITCH field names a pitch (Table 5-3). -/
def Pin.namesPitch (p : Pin) : Bool := decide ((1 ≤ p.op ∧ p.op ≤ 4) ∨ (p.op = 5 ∧ p.aux = false) ∨ (9 ≤ p.op ∧ p.op ≤ 13))

/-- A pin of the running section names the pitch: its cutoffs count from the section's origin. -/
def State.inSection (s : State) (pitch : Nat) : Bool :=
  (List.range 10).any (fun st => (s.pricking.stream s.seq.sec st).any (fun p => p.namesPitch && p.pitch == pitch))

/-- The count has passed a cutoff offset of a pitch of the running section. -/
def State.cutoffPassed (s : State) (pitch offset : Nat) : Bool :=
  decide (pitch < s.pricking.pitches.length) && s.passed offset && s.inSection pitch

/-- The cairns of a pitch, one of each class for a slice: MISSING with the slots decided by another row than 1 or 2 (R155), and
MALFORMED and TABLE-GEN with the chunks lost (R230). -/
def State.pitchCairns (s : State) (pitch : Nat) : State :=
  (List.range 8).foldl (fun s sl =>
    let n := fun kind => s.seq.misses.get 0 ((kind * 8 + sl) * 2 ^ 16 + pitch)
    let m := (s.seq.missed.filter (fun e => e.1 = sl ∧ e.2 / 2 ^ 40 = pitch)).length
    let s := if m > 0 then s.raise 0x0D (sliceSource 1 sl) 0 pitch m else s
    let s := if n 1 > 0 then s.raise 0x0E (sliceSource 5 sl) 0 pitch (n 1) else s
    if n 2 > 0 then s.raise 0x0F (sliceSource 5 sl) 0 pitch (n 2) else s) s

/-- A chunk of a gather or broadcast pitch that has not come by its CUTOFF: asked of its prusik source where the pitch names one,
else a gather gap (R154). -/
def State.cutWhole (s : State) (sl : Nat) (o : Opening) : State :=
  let r := s.pricking.pitchAt o.pitch
  let rank := (s.sources r o.chunk).headD 0
  match s.pricking.prusikAt r o.chunk rank with
  | some e =>
    if e.coord = s.coord then (s.judge sl o.buf).gap sl o.pitch o.chunk
    else ((s.prusikAsk r o.pitch e).onOpen sl o.pitch o.chunk (fun o => { o with slots := [⟨rank, none, none, none⟩] })).missSlot sl o.pitch o.chunk rank
  | none => (s.judge sl o.buf).gap sl o.pitch o.chunk

/-- The openings of a pitch of the running step, with their slices. -/
def State.openings (s : State) (pitch : Nat) : List (Nat × Opening) :=
  (List.range 8).flatMap (fun sl => ((s.slice sl).opens.filter (fun o =>
    o.pitch = pitch ∧ o.step = s.seq.step ∧ !o.void)).map (fun o => (sl, o)))

/-- The CUTOFF of a pitch is due. -/
def State.cutoffDue (s : State) (pitch : Nat) : Bool :=
  s.cutoffPassed pitch (s.pricking.pitchAt pitch).cutoff && !s.seq.closed.contains pitch

/-- PITCH_CUTOFF (R183): the pitch closes. Inputs that come later are late; chunks that never came are gaps; the cairns of a
pitch without a prusik source are raised. -/
def State.cutPitch (s : State) (pitch : Nat) : State :=
  let r := s.pricking.pitchAt pitch
  if !s.cutoffDue pitch then s
  else
    -- what a chunk has without its trailer is discarded (R136)
    let s := { s with seq := { s.seq with
        closed := s.seq.closed ++ [pitch], asm := s.seq.asm.filter (fun a => !(a.pitch == pitch && decide (a.type ≤ 1))) } }
    let s := s.onGroup r.group (fun q => { q with pitch := pitch })
    let s := if r.kind = 1 ∨ r.kind = 4 then
        (s.openings pitch).foldl (fun s e => if e.2.inputs = [] ∧ !e.2.final then s.cutWhole e.1 e.2 else s) s
      else if r.kind = 2 ∨ r.kind = 3 then (s.closePicot pitch).loseClipsOf (· == pitch)
      else s
    if r.prusikCount = 0 then s.pitchCairns pitch else s

/-- The row PITCH_CUTOFF. -/
def execPitchCutoff (pitch : Nat) (s : State) : Host.Outcome State Fault Refusal := answer s (s.cutPitch pitch)

/-- A gather or broadcast chunk that waited for its prusik copy: PRUSIK-USED, PRUSIK-FAILED with the original, or both missing,
which is a gather gap (rows 3 to 5, R154). -/
def State.finaliseWhole (s : State) (sl : Nat) (o : Opening) (x : InSlot) : State :=
  let s := s.onOpen sl o.pitch o.chunk (fun o => { o with final := true })
  match o.inputs.head? with
  | some i => s.slotDev sl (if i.chunk.prusik then 0x02 else 0x03) 0 o.pitch o.chunk x.rank 0
  | none =>
    ((((s.slotDev sl 0x03 0 o.pitch o.chunk x.rank 0).slotDev sl 0x01 0 o.pitch o.chunk x.rank 0).setBuf sl o.buf .missing default).gap
      sl o.pitch o.chunk)

/-- The prusik cutoff of a pitch is due. -/
def State.prusikDue (s : State) (pitch : Nat) : Bool :=
  let r := s.pricking.pitchAt pitch
  s.cutoffPassed pitch r.prusikCutoff && decide (r.prusikCount ≠ 0) && !s.seq.pclosed.contains pitch

/-- PRUSIK_CUTOFF (R149): outputs that wait for prusik copies become final, and the pitch's cairns are raised (R155). -/
def State.cutPrusik (s : State) (pitch : Nat) : State :=
  if !s.prusikDue pitch then s
  else
    let s := { s with seq := { s.seq with pclosed := s.seq.pclosed ++ [pitch] } }
    let s := (s.openings pitch).foldl (fun s e =>
      if e.2.final ∨ e.2.slots = [] then s
      else if e.2.scatter then s.finalise e.1 e.2
      else match e.2.slots with
        | x :: _ => s.finaliseWhole e.1 e.2 x
        | [] => s) s
    s.pitchCairns pitch

/-- The row PRUSIK_CUTOFF. -/
def execPrusikCutoff (pitch : Nat) (s : State) : Host.Outcome State Fault Refusal := answer s (s.cutPrusik pitch)

/-- The cutoff of a pitch that carries token sends (or, with `ret`, returns) is due. -/
def State.tokenDue (s : State) (pitch : Nat) (ret : Bool) : Bool :=
  s.cutoffPassed pitch (s.pricking.pitchAt pitch).cutoff && s.tokenPins pitch ret != [] && !s.tok.closed.contains pitch

/-- TOKEN_WINDOW_CUTOFF (R259, R268): sends that never issued drop their choices, the header words are written, the cairns raised. -/
def State.cutTokens (s : State) (pitch : Nat) : State :=
  if s.tokenDue pitch false then
    ((s.dropUnsent pitch).closeLanding pitch).tokenCairns pitch
  else s

/-- The row TOKEN_WINDOW_CUTOFF. -/
def execTokenWindowCutoff (pitch : Nat) (s : State) : Host.Outcome State Fault Refusal := answer s (s.cutTokens pitch)

/-- RETURN_CUTOFF (R261, R268). -/
def State.cutReturn (s : State) (pitch : Nat) : State :=
  if s.tokenDue pitch true then
    (s.closeReturn pitch).tokenCairns pitch
  else s

/-- The row RETURN_CUTOFF. -/
def execReturnCutoff (pitch : Nat) (s : State) : Host.Outcome State Fault Refusal := answer s (s.cutReturn pitch)

/-- Some cutoff of the running section is due. -/
def State.anyCutoffDue (s : State) : Bool :=
  (List.range s.pricking.pitches.length).any (fun p => s.cutoffDue p || s.prusikDue p || s.tokenDue p false || s.tokenDue p true)

/-- Every due cutoff in the order of the pitches: what a count step over it does (R397). -/
def State.cutAll (s : State) : State :=
  (List.range s.pricking.pitches.length).foldl (fun s p => (((s.cutPitch p).cutPrusik p).cutTokens p).cutReturn p) s

/-- In relaxed timing, what the cutoffs would have closed closes at the end of the section (log 25): token landings and returns,
and the cairns of the pitches. -/
def State.closeSection (s : State) : State :=
  if !s.relaxed then s
  else
    (List.range s.pricking.pitches.length).foldl (fun s p =>
      if s.tokenPins p false ≠ [] ∧ !s.tok.closed.contains p then ((s.dropUnsent p).closeLanding p).tokenCairns p
      else if s.tokenPins p true ≠ [] ∧ !s.tok.closed.contains p then (s.closeReturn p).tokenCairns p
      else if s.inSection p then s.pitchCairns p
      else s) s

end Sys2Proof.Machine
end

