-- ==== Sys2Proof/Machine/Execute.lean ====
section
/-! DEFINITION. A latched pin executed by its opcode, as the rows of Table 5-3 do; and when a pin of step gate or replay mode is ready
(R193). -/

namespace Sys2Proof.Machine

/-- The pin of an issue executed by its kind (Table 5-3). -/
def State.executePin (s : State) (st : Nat) (x : Issue) : State :=
  let p := x.pin
  match p.op with
  | 1 =>
    if p.aux then s.memorySourcedSendPin st x
    else match p.arg % 4 with
      | 0 => s.sendDataPin st x
      | 1 => s.sendForwardWindowPin st x
      | 2 => s.sendPrusikAnswerWindowPin st x
      | _ => s.sendArmGroundQueuePin st x
  | 2 => s.expectPin st x
  | 3 => s.reducePin st x
  | 4 => s.requantPin st x
  | 5 =>
    if p.aux then s.deliverCopyPin st x
    else if p.portq < 24 then s.deliverToStationPin st x
    else if p.portq = 32 then s.deliverToHbmPin st x
    else if p.portq = 33 then s.deliverToComputeScratchPin st x
    else if p.portq = 34 then s.deliverToHeatTablePin st x
    else s
  | 6 => if p.wide then s.selectWidePin st x else s.selectPin st x
  | 7 => if p.aux then s.heatSettlePin st x else s.heatPin st x
  | 8 => if s.surveyed st p then s.surveyObjectPin st x else s.surveyCarriedPin st x
  | 9 => s.encodePin st x
  | 10 => s.decodePin st x
  | 11 => if p.portq = 36 then s.picotL0RoundPin st x else s.picotPackageRoundPin st x
  | 12 => if p.arg % 4 = 0 then s.routePassPin st x else s.sendTokens st x
  | 13 => s.returnPin st x
  | 14 => s.updatePin st x
  | 15 => s.openPin st x
  | 16 => s.gatePin
  | 17 => s.sealPin st x
  | _ => s

/-! ### The next pin of a stream -/

/-- The next static pin of a stream in the running section. -/
def State.nextStatic (s : State) (st : Nat) : Option Pin := (s.pricking.stream s.seq.sec st)[s.seq.pos.getD st 0]?

/-- Ticks from the step's origin to the start of section `sec` of the running step (R164). -/
def State.sectionBase (s : State) (sec : Nat) : Nat :=
  let h := s.pricking.head
  if sec = 0 then 0
  else if sec = 1 then h.lStep
  else h.lStep + (if h.nEval ≠ 0 ∧ (s.seq.step + 1) % h.nEval = 0 then h.lEval else 0)

/-- The accepted dynamic pins of a stream that have not issued and whose ticks lie in the running section, with the tick counted from
its start, in the order they were accepted. `seq.dyn` holds them with the tick counted from the step's origin (R189). -/
def State.dynOf (s : State) (st : Nat) : List Pin :=
  let b := s.sectionBase s.seq.sec
  let here := fun (p : Pin) => decide (st < 8) && p.slice == st && decide (b ≤ p.tick ∧ p.tick < b + s.pricking.length s.seq.sec)
  (s.seq.dyn.filter here).map (fun p => { p with tick := p.tick - b })

/-- The pin that a stream issues next: of a static and a dynamic pin of one tick, the static one (R165). -/
def State.nextIssue (s : State) (st : Nat) : Option Issue :=
  let stat := s.nextStatic st
  let dyn := (s.dynOf st).foldl (fun (a : Option Pin) p => match a with
    | none => some p
    | some q => if p.tick < q.tick then some p else some q) none
  let i := s.seq.pos.getD st 0
  let at_ := fun (p : Pin) => s.seq.secOrigin + p.tick + s.seq.delay.getD st 0
  let fixed := fun (p : Pin) => (show Issue from ⟨p, s.seq.sec, i, false, at_ p, s.seq.lost.contains (s.seq.sec, st, i)⟩)
  let moved := fun (p : Pin) => (show Issue from ⟨p, s.seq.sec, i, true, at_ p, false⟩)
  match stat, dyn with
  | some p, some q => if q.tick < p.tick then some (moved q) else some (fixed p)
  | some p, none => some (fixed p)
  | none, some q => some (moved q)
  | none, none => none

/-- A pin leaves its stream for the latch. -/
def State.latch (s : State) (st : Nat) (x : Issue) : State :=
  { s with seq := { s.seq with
      issue := s.seq.issue.modify st (· ++ [x])
      pos := if x.dyn then s.seq.pos else s.seq.pos.modify st (· + 1)
      dyn := if x.dyn then s.seq.dyn.erase { x.pin with tick := x.pin.tick + s.sectionBase s.seq.sec } else s.seq.dyn } }

/-- In relaxed timing a GATE that has not issued holds every other stream (R192). -/
def State.gateAhead (s : State) : Bool :=
  s.relaxed && ((s.seq.issue.getD 9 []).any (fun x => x.pin.op == 16) || (s.nextStatic 9).any (fun p => p.op == 16))

/-- A slice's stream issues nothing while the slice is fenced (R475), and no stream issues while a GATE waits (R192). -/
def State.streamRuns (s : State) (st : Nat) : Bool :=
  s.isRunning && s.seq.running && !s.seq.gateWait && !(decide (st < 8) && (s.slice st).fenced) && !(st != 9 && s.gateAhead)

/-- Pins of a stream whose tick has come are latched, at most `fuel` of them (R165). -/
def State.latchDue (s : State) (st : Nat) : Nat → State
  | 0 => s
  | fuel + 1 =>
    match s.nextIssue st with
    | some x => if s.streamRuns st ∧ x.at_ ≤ s.count then (s.latch st x).latchDue st fuel else s
    | none => s

/-- Every stream latches the pins of the tick, six at most in each (R165). -/
def State.latchTick (s : State) : State := (List.range 10).foldl (fun s st => s.latchDue st 6) s

/-! ### Readiness in relaxed timing (R193) -/

/-- A buffer can be read without judging anything: READY or MISSING, and no picot that has not ended. -/
def State.whole (s : State) (sl u : Nat) : Bool :=
  s.readable sl u && !s.seq.picots.any (fun p => p.slice == sl && p.buf == u && !p.done)

/-- Every input slot of a REDUCE has an input, in replay mode or a recorded decision. -/
def State.slotsFull (s : State) (sl : Nat) (p : Pin) : Bool :=
  match s.openOf sl p.pitch p.chunk with
  | none => false
  | some o => o.void || (s.slotSources (s.pitchOf p) p.chunk o.loaded).all (fun r =>
      o.inputs.any (fun i => i.rank == r && !i.carried) ||
        (s.req.replay && (s.forcedSlot p.pitch p.chunk r 0x01 || s.forcedSlot p.pitch p.chunk r 0x0C || s.forcedSlot p.pitch p.chunk r 0x0D)))

/-- Every block of a HEAT or SELECT is complete, or recorded as late. -/
def State.blocksFull (s : State) (sl : Nat) (p : Pin) : Bool :=
  let pol := s.image.policyOf p.pitch
  (pol.pinBlocks sl p.chunk p.arg).all (fun b =>
    (s.block sl (pol.entry b)).complete || (s.block sl (pol.entry b)).late || s.forcedLate p.pitch b || s.noVisit sl p.pitch)

/-- The operands and resources of a pin are ready. -/
def State.pinReady (s : State) (st : Nat) (x : Issue) : Bool :=
  let p := x.pin
  let r := s.pitchOf p
  let free := !s.resBusy (pinRes st p) && !s.portBusy st x
  match p.op with
  | 1 => free && (p.aux || p.arg % 4 != 0 || s.whole st p.buf)
  | 2 => (s.openOf st p.pitch p.chunk).isSome ||
      ((s.slice st).unitsFree p.buf r.expectUnits && (p.arg == noBuffer || s.whole st p.arg))
  | 3 => s.slotsFull st p
  | 4 => free && s.whole st p.buf
  | 5 => free && (p.aux || (s.whole st p.buf && !(decide (p.portq < 24) && (s.stationWrites st p none).1.any (fun e => s.slotInUse p.portq e.1))))
  | 6 =>
    if p.wide then s.areaFree st p.buf p.portq p.arg
    else
      let ts := s.tensor st p.pitch
      free && (ts.main.isSome || s.areaFree st p.buf p.portq ((s.image.policyOf p.pitch).mainChunks st (csizeBytes p.portq))) &&
        (!s.needsSettle st p.pitch || ts.settled.isSome || ts.voidSettle) && s.blocksFull st p
  | 7 => free && (p.aux || (s.areaFree st p.buf p.portq (ceilDiv (2 * p.arg) (csizeBytes p.portq)) && s.blocksFull st p))
  | 8 => free
  | 9 => free && (s.slice st).unitsFree p.arg (unitsFor r.bytes) && s.whole st p.buf
  | 10 => free && (s.slice st).unitsFree p.arg (unitsFor r.bytes) && s.whole st p.buf
  | 11 =>
    if p.portq = 36 then (s.slice st).unitsFree p.buf 1
    else free && s.picotReady st p && (match s.picot p.pitch with
      | some q => q.expect.all (fun e => decide (e.1 ≥ p.chunk) || q.has e)
      | none => false)
  | 12 => free && (p.arg % 4 == 0 || s.routed p)
  | 13 => free && s.landed p
  | 14 => free && (s.loseClips false).srec.decision.isSome
  | 16 => true
  | 17 => free && s.seq.flights == [] && (List.range 9).all (fun k => (s.nextIssue k).isNone || !s.streamRuns k)
  | _ => true

/-- The fences that the replay record applies before this pin of a slice's stream (Table 11-12). -/
def State.forcedFence (s : State) (st : Nat) (x : Issue) : State :=
  if s.req.replay ∧ st < 8 ∧ s.req.replayHost.any (fun h => bytesAt h 0 1 = 2 ∧ bytesAt h 2 1 = st ∧ bytesAt h 4 4 ≤ x.index) then
    s.fence st 1 0
  else s

/-- A pin that was delayed issues: the later pins of its stream are delayed as much (R193). -/
def State.latchLate (s : State) (st : Nat) (x : Issue) : State :=
  let s := s.forcedFence st x
  if !s.streamRuns st then s
  else { (s.latch st x) with seq := { (s.latch st x).seq with delay := s.seq.delay.modify st (· + (s.count - x.at_)) } }

/-- The next pin of a stream is due, and none of the stream waits in the latch. -/
def State.dueIssue (s : State) (st : Nat) : Option Issue :=
  match s.nextIssue st with
  | some x => if s.relaxed && s.streamRuns st && decide (x.at_ ≤ s.count) && s.seq.issue.getD st [] == [] then some x else none
  | none => none

/-- GATED_PIN_READY (R193). -/
def State.gatedReady (s : State) (st : Nat) : State :=
  match s.dueIssue st with
  | some x => if s.pinReady st x then s.latchLate st x else s
  | none => s

/-- The row GATED_PIN_READY. -/
def execGatedPinReady (stream : Nat) (s : State) : Host.Outcome State Fault Refusal := answer s (s.gatedReady stream)

/-- A decision that a replay cannot meet: DIVERGE and a CONFORMANCE cairn "replay" (R414). -/
def State.diverge (s : State) : State :=
  if s.req.replay then
    (s.onRec (fun r => { r with lstatus := setBit r.lstatus 2 })).raise 0x15 (source 3 0) 9 (s.seq.step % 2 ^ 32) 0
  else s

/-- GATE_WAIT_TIMEOUT (R193, R414): a pin that has waited 2^24 ticks issues by the rules of locked mode; token landings that a RETURN
waits for close. -/
def State.gateTimeout (s : State) (st : Nat) : State :=
  match s.dueIssue st with
  | some x =>
    if s.count < x.at_ + 2 ^ 24 ∨ x.pin.op = 16 then s
    else
      let s := s.diverge
      let s := if x.pin.op = 13 then
          ((List.range s.pricking.pitches.length).filter (fun p => (s.served p false).contains (x.pin.layer, x.pin.mb, x.pin.pass))).foldl
            (fun s p => s.closeLanding p) s
        else s
      s.latchLate st x
  | none => s

/-- The row GATE_WAIT_TIMEOUT. -/
def execGateWaitTimeout (stream : Nat) (s : State) : Host.Outcome State Fault Refusal := answer s (s.gateTimeout stream)

end Sys2Proof.Machine
end

