-- ==== Sys2Proof/Machine/Replay.lean ====
section
/-! DEFINITION. The replay source (R411 to R414): finding the record of a step, and the decisions that it forces (Table 11-12). -/

namespace Sys2Proof.Machine

/-- Base of the replay source and its length in bytes (Table 14-2). -/
def State.replaySource (s : State) : Nat × Nat := (s.reg 0xD8 * 4096, s.reg 0xDC * 4096)

/-- The bytes of the record at an offset of the source, where its header is good: a length that fits, the CRC of its body. -/
def State.recordAt (s : State) (off : Nat) : Option (List Byte) :=
  let src := s.replaySource
  if off + 64 > src.2 then none
  else
    let n := s.hbmNat (src.1 + off) 4
    if n < 64 ∨ n % 64 ≠ 0 ∨ off + n > src.2 then none
    else
      let r := s.hbmRead (src.1 + off) n
      if bytesAt r 14 4 = crc32c (r.drop 64) then some r else none

/-- The next step record from an offset on: launch and pad records are passed over (R412). Its bytes, and the offset after it. -/
def State.nextStepRecord (s : State) (off : Nat) : Nat → Option (List Byte × Nat)
  | 0 => none
  | fuel + 1 =>
    match s.recordAt off with
    | none => none
    | some r =>
      let after := off + r.length
      if bytesAt r 4 1 = 1 then some (r, after)
      else if bytesAt r 4 1 = 2 ∨ bytesAt r 4 1 = 3 then s.nextStepRecord after fuel
      else none

/-- The step record that the source holds next, if it is that of step `t`. -/
def State.recordOf (s : State) (t : Nat) : Option (List Byte × Nat) :=
  match s.nextStepRecord s.req.replayAt (s.replaySource.2 / 64) with
  | some (r, after) => if bytesAt r 6 6 = t % 2 ^ 48 ∧ r.length ≥ 192 then some (r, after) else none
  | none => none

/-- The sections of a record: type and body. -/
def splitSections (bs : List Byte) : Nat → List (Nat × List Byte)
  | 0 => []
  | n + 1 =>
    let len := bytesAt bs 4 4
    (bytesAt bs 0 1, (bs.drop 16).take len) :: splitSections (bs.drop (16 + len)) n

/-- The body of the section of a type; empty where the record has none. -/
def sectionBody (ss : List (Nat × List Byte)) (type : Nat) : List Byte := ((ss.find? (fun x => x.1 = type)).map (·.2)).getD []

/-- TOKEN items, each with its bitmap padded to 8 bytes (Table 11-11). -/
def splitTokens (bs : List Byte) : Nat → List (List Byte)
  | 0 => []
  | fuel + 1 =>
    if bs.length < 16 then []
    else
      let n := 16 + roundUp (ceilDiv (field (leNat (bs.take 8)) 63 41) 8) 8
      bs.take n :: splitTokens (bs.drop n) fuel

/-- A deviation entry from its 128-bit number (Table 11-9). -/
def Dev.ofNat (w : Nat) : Dev :=
  ⟨field w 7 0, field w 23 16, field w 31 24, field w 63 32, field w 95 64, field w 111 96, field w 127 112⟩

/-- Nothing forced. -/
def Requests.unforced (q : Requests) : Requests :=
  { q with replayDevs := [], replaySeal := [], replayDecision := none, replayIntake := [], replayPins := [], replayTokens := [],
           replayHost := [] }

/-- The decisions that a step record forces. -/
def Requests.force (q : Requests) (r : List Byte) (after : Nat) : Requests :=
  let h := (r.drop 64).take 128
  let ss := splitSections (r.drop 192) (bytesAt r 12 2)
  { q with
    replayAt := after
    replayDevs := (pieces 16 (sectionBody ss 1)).map (fun x => Dev.ofNat (leNat x))
    replaySeal := (h.drop 80).take 32
    replayDecision := some (bytesAt h 24 1, bytesAt h 25 1)
    replayIntake := pieces 8 (sectionBody ss 3)
    replayPins := pieces 16 (sectionBody ss 4)
    replayTokens := splitTokens (sectionBody ss 5) (sectionBody ss 5).length
    replayHost := pieces 16 (sectionBody ss 6) }

/-- The record of step `t` taken from the source; where it cannot be read, the replay diverges and nothing is forced (R414, Table
13-4). The flag says whether the source holds a record for `t`. -/
def State.loadRecord (s : State) (t : Nat) : State × Bool :=
  match s.recordOf t with
  | none => ({ s with req := s.req.unforced }, false)
  | some (r, after) =>
    let at_ := s.replaySource.1 + s.req.replayAt
    if s.hbmFaulty at_ (after - s.req.replayAt) then
      ((State.diverge { s with req := { s.req.unforced with replayAt := after } }).hbmError (source 3 0) at_, true)
    else ({ s with req := s.req.force r after }, true)

end Sys2Proof.Machine
end

