-- ==== Sys2Proof/Machine/Pause.lean ====
section
/-! DEFINITION. Requests that take effect at a count: launch and its cancel (R399, R400), STOP (R434), bivouac and wake (R449), and
the entry to bivouac and the wake from it (R450, R451). -/

namespace Sys2Proof.Machine

/-! ### What a core without power or in reset loses -/

/-- An offset whose register is in the core domain (Tables 14-1, 14-2, 14-21); from 2^24 on, what a launch captured. -/
def coreRegister (off : Nat) : Bool :=
  if off < 0x10000 then !([0x18, 0x38, 0x3C, 0x88, 0x8C, 0xE0, 0xE4, 0xE8, 0xEC, 0xF0].contains off)
  else if off < 0x30000 then false
  else if 0x105000 ≤ off ∧ off < 0x106000 then false
  else if 0x400000 ≤ off ∧ off < 0x440000 then false
  else !(decide (0x500000 ≤ off) && decide (off < 0x600000))

/-- What the data plane holds is lost: staging, heat tables, stations' slots and norms, token vectors, what ports held, the tracker, the
translation caches and the read queues. -/
def State.clearData (s : State) : State :=
  let s := s.stopRun
  { s with
    slices := s.slices.map (fun sl =>
      { Slice.reset with fenced := sl.fenced, clearing := sl.clearing, carry := sl.carry, ctxs := sl.ctxs, ctxSel := sl.ctxSel })
    stations := s.stations.map (fun e => (e.1, { e.2 with slots := [], norms := [] }))
    tok := default
    ports := s.ports.map (fun p =>
      { p with windows := [], ground := [], arb := [], deficits := [0, 0], control := [], prusik := [], rx := [] })
    seq := { s.seq with asm := [], picots := [] }
    anc := { s.anc with tracker := [], trans := [], jobs := [] } }

/-- Requests that wait are dropped where the engine leaves the states they wait in (log 28). -/
def State.dropRequests (s : State) : State :=
  { s with req := { s.req with
      launchOn := false, stopOn := false, bivOn := false
      launch := if s.req.launch = 1 then 0 else s.req.launch
      stop := if s.req.stop = 1 then 0 else s.req.stop
      biv := if s.req.biv = 1 then 0 else s.req.biv
      entering := none } }

/-! ### Launch (R399, R400) -/

/-- The groups that the pins of the image's prickings name (R122). -/
def Image.namedGroups (im : Image) : List Nat :=
  (im.prickings.flatMap (fun pk => pk.streams.flatMap (fun ps => ps.filterMap Pin.groupOf))).eraseDups

/-- Why a launch is refused: BLY_STAT.REASON, 0 where it is not (R400). -/
def State.launchRefusal (s : State) (c t0 : Nat) (replay : Bool) : Nat :=
  if s.power.st ≠ .ready ∨ s.req.entering.isSome then 1
  else if s.image.namedGroups.any (fun g => (s.groupQ g).st ≠ 2) then 2
  else if s.belay.st ≠ .locked then 3
  else if c < s.count + 62500 then 4
  else if c > s.count + 2 ^ 38 then 5
  else if replay ∧ (State.recordOf { s with req := { s.req with replayAt := 0 } } t0).isNone then 6
  else 0

/-- GLB_CTL.LAUNCH (R400): a refused launch leaves one that waits in force; an accepted one replaces it (log 29). -/
def State.requestLaunch (s : State) (replay : Bool) : State :=
  let c := s.reg64 0x10010
  let t0 := s.reg48 0x10018
  let why := s.launchRefusal c t0 replay
  if why ≠ 0 then { s with req := { s.req with launch := 3, launchReason := why } }
  else { s with req := { s.req with launchOn := true, launch := 1, launchReason := 0, launchAt := c, launchStep := t0, replay := replay } }

/-- GLB_CTL.CANCEL (R400): before c − 64. -/
def State.cancelLaunch (s : State) : State :=
  if s.req.launchOn ∧ s.count + 64 < s.req.launchAt then
    { s with req := { s.req with launchOn := false, launch := 4, replay := false } }
  else s

/-- The row GLB_CTL_LAUNCH. -/
def execGlbCtlLaunch (m : Master) (replay : Bool) (s : State) : Host.Outcome State Fault Refusal :=
  answer s (if s.may m false then s.requestLaunch replay else s)

/-- The row GLB_CTL_CANCEL. -/
def execGlbCtlCancel (m : Master) (s : State) : Host.Outcome State Fault Refusal :=
  answer s (if s.may m false then s.cancelLaunch else s)

/-! ### STOP (R434) -/

/-- GLB_CTL.STOP: refused as STATE or LEAD, which leaves an accepted one in force. -/
def State.requestStop (s : State) : State :=
  let t := s.reg48 0x30
  let refuse := fun why => { s with req := { s.req with stop := 3, stopReason := why } }
  if !s.isRunning then refuse 1
  else if s.originOf t < s.count + 64 then refuse 2
  else { s with req := { s.req with stopOn := true, stop := 1, stopReason := 0, stopStep := t } }

/-- The row GLB_CTL_STOP. -/
def execGlbCtlStop (m : Master) (s : State) : Host.Outcome State Fault Refusal :=
  answer s (if s.may m false then s.requestStop else s)

/-! ### Entry to bivouac (R450) -/

/-- Step 1: every RUNNING ground queue is suspended; the engine waits for them. -/
def State.startEntry (s : State) : State :=
  let qs := (s.gq.filter (fun e => e.2.st = .running)).map (·.1)
  let s := qs.foldl (fun s q => (s.queueEvent q .suspend).onGround q (fun g => { g with bivSusp := true })) s
  { s with req := { s.req with bivOn := false, biv := 2, bivReason := 0, entering := some s.count, entryAt := s.count } }

/-- Every queue that entry suspends has stopped, and no pin is in flight; or 250,000 ticks have passed (R450). -/
def State.entryQuiet (s : State) : Bool :=
  match s.req.entering with
  | none => false
  | some t =>
    decide (t + 250000 ≤ s.count) ||
      (s.gq.all (fun e => e.2.st != .running && e.2.st != .suspending) && s.seq.flights == [])

/-- Steps 2 to 5: state saved, ports OFF and brides closed, pending cairns flushed, core rail off. -/
def State.finishEntry (s : State) : State :=
  if !s.entryQuiet then s
  else
    let prior := s.power.st
    let core := s.regs.filter (fun e => coreRegister e.1)
    let save : SaveArea := ⟨s.groups, { s.anc with tracker := [], trans := [], jobs := [] }, s.gq, core, s.counters⟩
    let s := s.clearData
    let s : State := { s with
      saved := some save
      groups := []
      anc := Anchors.reset
      gq := []
      regs := s.regs.filter (fun e => !coreRegister e.1)
      counters := []
      brides := s.brides.map (fun (b : Bride) => { b with st := .closedActive })
      req := { s.req with entering := none, launchOn := false, launch := if s.req.launch = 1 then 0 else s.req.launch }
      power := { s.power with st := .bivouac, prior := prior, rail := false } }
    s.flushCairns s.cairn.queue.length

/-- The row BIVOUAC_QUEUES_QUIET. -/
def execBivouacQueuesQuiet (s : State) : Host.Outcome State Fault Refusal := answer s s.finishEntry

/-! ### Bivouac and wake requests (R449) -/

/-- A wake count: EARLY against the entry count, LEAD against the count; none is changed after w − 64. The flag says whether it was
accepted. -/
def State.setWake (s : State) (w : Nat) : State × Bool :=
  let known := s.req.bivOn ∨ s.req.entering.isSome ∨ s.power.st = .bivouac
  let why :=
    if s.power.st ≠ .ready ∧ s.power.st ≠ .running ∧ s.power.st ≠ .bivouac then 1
    else if known ∧ w < s.req.entryAt + 500000 then 3
    else if w < s.count + 62500 ∨ s.req.waking ∨ (s.req.wakeOn ∧ s.req.wakeAt ≤ s.count + 64) then 4
    else 0
  if why ≠ 0 then ({ s with req := { s.req with wake := 2, bivReason := why } }, false)
  else ({ s with req := { s.req with wakeOn := true, wake := 1, wakeAt := w, bivReason := if s.req.biv = 3 then s.req.bivReason else 0 } }, true)

/-- A bivouac request for step t, with a wake count where w is not 0. The flag is false for any refusal (R449). -/
def State.requestBivouac (s : State) (t w : Nat) : State × Bool :=
  let refuse := fun why => ({ s with req := { s.req with biv := 3, bivReason := why } }, false)
  let wake := fun (s : State) => if w = 0 then (s, true) else s.setWake w
  if s.req.entering.isSome then refuse 1
  else if s.isRunning then
    if t ≤ s.seq.step ∨ s.originOf t ≤ s.count + 64 then refuse 2
    else wake { s with req := { s.req with bivOn := true, biv := 1, bivReason := 0, bivStep := t, entryAt := s.originOf t } }
  else if s.power.st = .ready then
    let s := { s with req := { s.req with bivOn := true, biv := 1, bivReason := 0, bivStep := t, entryAt := s.count } }
    let r := wake s
    (r.1.startEntry, r.2)
  else refuse 1

/-- The row GLB_CTL_BIVOUAC. -/
def execGlbCtlBivouac (m : Master) (s : State) : Host.Outcome State Fault Refusal :=
  answer s (if s.may m true then (s.requestBivouac (s.reg48 0x38) (s.reg64 0x88)).1 else s)

/-- The row GLB_CTL_WAKE. -/
def execGlbCtlWake (m : Master) (s : State) : Host.Outcome State Fault Refusal :=
  answer s (if s.may m true then (s.setWake (s.reg64 0x88)).1 else s)

/-- A 64-bit value put into a register pair (R483). -/
def State.setReg64 (s : State) (off v : Nat) : State := (s.setReg off v).setReg (off + 4) (v / 2 ^ 32)

/-- The row BIVOUAC (Table 12-11): as GLB_BIV_STEP, GLB_BIV_WAKE and GLB_CTL.BIVOUAC written. -/
def execBivouac (step wake : Nat) (s : State) : Host.Outcome State Fault Refusal :=
  answer s (if s.power.standby then
    (let r := ((s.setReg64 0x38 (step % 2 ^ 48)).setReg64 0x88 wake).requestBivouac (step % 2 ^ 48) (wake % 2 ^ 64)
     r.1.answerWith [if r.2 then 0 else 1]) else s)

/-- The row WAKE (Table 12-11). -/
def execWake (wake : Nat) (s : State) : Host.Outcome State Fault Refusal :=
  answer s (if s.power.standby then
    (let r := (s.setReg64 0x88 wake).setWake (wake % 2 ^ 64)
     r.1.answerWith [if r.2 then 0 else 1]) else s)

/-! ### Brides (R340, R341) -/

/-- Every OPEN condition of Table 9-11 holds; a wake opens enabled brides before the prior state is reached (R451). On an axis of
extent 1 a bride stays closed (R32). -/
def State.brideMayOpen (s : State) (r : Nat) : Bool :=
  s.power.standby && (s.power.st == .ready || s.power.st == .running || s.req.waking) && !(s.slice r).fenced && (s.bride r).openEn
    && decide ((s.bride r).atCount ≤ s.count) && decide (nth s.image.config.extents (if r < 4 then 1 else 2) 1 > 1)

/-- A bride opens where every condition holds. -/
def State.openBride (s : State) (r : Nat) : State :=
  if r < 8 ∧ s.brideMayOpen r ∧ (s.bride r).st = .closedActive then s.onBride r (fun b => { b with st := .isOpen }) else s

/-! ### Wake (R451) -/

/-- WAKE_BEGIN: the count has reached w. The core rail is asked for, and enabled brides open. -/
def State.beginWake (s : State) : State :=
  if s.power.st = .bivouac ∧ s.req.wakeOn ∧ !s.req.waking ∧ s.req.wakeAt ≤ s.count then
    (List.range 8).foldl State.openBride { s with req := { s.req with waking := true } }
  else s

/-- The row WAKE_BEGIN. -/
def execWakeBegin (s : State) : Host.Outcome State Fault Refusal := answer s s.beginWake

/-- What entry saved is restored (R451, R482); fences written meanwhile take effect (Table 12-14), and the queues that entry
suspended resume (R381). -/
def State.restore (s : State) : State :=
  match s.saved with
  | none => s
  | some a =>
    let s : State := { s with
      saved := none
      groups := a.groups
      anc := a.anc
      gq := a.gq
      regs := a.regs.foldl (fun t e => t.put e.1 e.2) s.regs
      counters := a.counters }
    let s := s.fencedSlices.foldl State.fenceEffect s
    let qs := (s.gq.filter (fun e => e.2.bivSusp)).map (·.1)
    qs.foldl (fun s q =>
      let s := s.onGround q (fun g => { g with bivSusp := false })
      if (s.groundQ q).st = .suspended ∨ (s.groundQ q).st = .suspending then s.queueEvent q .resume else s) s

/-- WAKE_COMPLETE: at w + 60,000 the engine reaches its prior state; if that is RUNNING, the next step has its origin there. -/
def State.completeWake (s : State) : State :=
  if s.power.st = .bivouac ∧ s.req.waking ∧ s.power.rail ∧ s.req.wakeAt + 60000 ≤ s.count then
    let o := Nat.max (s.req.wakeAt + 60000) s.count
    let s := s.restore
    { s with
      power := { s.power with st := s.power.prior, prior := .off }
      req := { s.req with waking := false, wakeOn := false, wake := 0 }
      seq := { s.seq with nextOrigin := o, origin := o } }
  else s

/-- The row WAKE_COMPLETE. -/
def execWakeComplete (s : State) : Host.Outcome State Fault Refusal := answer s s.completeWake

end Sys2Proof.Machine
end

