-- ==== Sys2Proof/Machine/Origin.lean ====
section
/-! DEFINITION. Step origins (R164, R196) and the launch of a run (R400): what the end of a step records, what a step starts with, and
what takes effect at an origin (fences, re-thread, STOP, bivouac, replay). -/

namespace Sys2Proof.Machine

/-! ### The end of a step -/

/-- History entries of picot MAX pitches that have not ended: unsettled (R48, R49). -/
def State.closeMaxima (s : State) : State :=
  (s.image.config.scales.filter (·.valid)).foldl (fun (s : State) (e : ScaleEnt) =>
    let ended : Bool := match s.picot e.pitch with | some p => p.done | none => false
    if ended ∨ (s.pricking.pitchAt e.pitch).kind ≠ 3 then s
    else (List.range e.count).foldl (fun s i =>
      if e.level then s.recordLevel e.tensor (e.first + i) none else s.recordScale e.tensor (e.first + i) none) s) s

/-- Fences that the replay record of the ending step still holds (Table 11-12). -/
def State.recordedFences (s : State) (items : List (List Byte)) : State :=
  (items.filter (fun h => bytesAt h 0 1 = 2)).foldl (fun s h => s.fence (bytesAt h 2 1) (bytesAt h 1 1 + 1) 0) s

/-- Tiles that still wait for an earlier tile of their block: a recorded event was impossible (R414). -/
def State.flushWaiting (s : State) : State :=
  if s.req.replayWait = [] then s
  else
    let w := s.req.replayWait
    let s := State.diverge { s with req := { s.req with replayWait := [] } }
    w.foldl (fun s x => s.gradientTile x.1 (TileHead.parse x.2.1) x.2.2) s

/-- The end of the running step, once: its histories, and its tiles that no SELECT read (R87). -/
def State.closeStep (s : State) : State :=
  if s.seq.step < s.seq.next then
    let s := s.closeHeat.closeMaxima.flushWaiting.flushTiles
    let s := if s.req.replay then s.recordedFences s.req.replayHost else s
    { s with seq := { s.seq with step := s.seq.next, origin := s.seq.nextOrigin } }
  else s

/-! ### What an origin clears and enables -/

/-- What is kept for one step only: late bits, settles, areas, stations' slots and norms (R110, R278, R280), token state, level maxima;
functions enabled again (R477); installs (R219). -/
def State.freshStep (s : State) : State :=
  let s : State := { s with
    slices := s.slices.map (fun sl =>
      { sl with
        blocks := [], tensors := [], prusik := [], lastPin := 0
        ctxs := sl.ctxs.map (fun e => (e.1, { e.2 with disable := e.2.disable && !e.2.enableDue, enableDue := false })) })
    stations := s.stations.map (fun e => (e.1,
      { e.2 with
        slots := [], norms := [], disable := e.2.disable && !e.2.enableDue, enableDue := false }))
    ports := s.ports.map (fun p => { p with disable := p.disable && !p.enableDue, enableDue := false })
    tok := default
    levelMax := [] }
  (s.setReg 0xB4 (ofBool (flag (s.reg 0xA4) 31) * 2 ^ 12)).takeInstalls

/-! ### Re-thread (R440) -/

/-- The prepared image becomes the running one; a coding context whose entry is the same in both keeps its banks. -/
def State.switchImage (s : State) : State :=
  match s.img.prepared with
  | none => s
  | some im =>
    let old := s.image
    let kept := s.slices.map (·.ctxs)
    let who := if s.mgmt.owner = .mgmt then 1 else 0
    let s : State := { s with
      img := { s.img with
        run := some im, previous := some old, prepared := none, prep := 0, rethread := 3, loadedB := im.copyB, seq := im.seq
        staging := { s.img.staging with st := 0 } }
      slices := s.slices.map (fun sl => { sl with ctxs := [] }) }
    let s := (s.placeTables im (fun sl i => old.ctxEnt sl i ≠ im.ctxEnt sl i)).launchCtx
    let s := (List.range 8).foldl (fun s sl =>
      (nth kept sl []).foldl (fun s e =>
        if old.ctxEnt sl e.1 = im.ctxEnt sl e.1 then s.onCtx sl e.1 (fun _ => e.2) else s) s) s
    let s := s.onRec (fun r => { r with host := r.host ++ [leBytes 16 (3 + who * 2 ^ 8 + s.count * 2 ^ 64)] })
    s.irq 5

/-- A re-thread is due at step t: the one that is ARMED, or in replay mode the recorded one (Table 11-12). -/
def State.rethreadDue (s : State) (t : Nat) : Bool :=
  if s.req.replay then s.req.replayHost.any (fun h => bytesAt h 0 1 = 3) else s.img.rethread == 1 && s.img.rethreadStep == t

/-- The re-thread due at step t; one that a replay cannot make diverges. -/
def State.rethreadAt (s : State) (t : Nat) : State :=
  if !s.rethreadDue t then s
  else if s.img.prepared.isNone then s.diverge
  else s.switchImage

/-! ### The start of a step -/

/-- The variant for the slices fenced: 0 main, s + 1 with slice s fenced (R196). -/
def State.variantNow (s : State) : Nat := match s.fencedSlices with | [] => 0 | i :: _ => i + 1

/-- Dynamic pins of a replayed step, from its record (R191). -/
def State.recordedPins (s : State) : State :=
  if !s.req.replay then s
  else
    let ps := s.req.replayPins.map (fun b => Pin.ofNat (leNat b))
    (s.onRec (fun r => { r with dpins := s.req.replayPins })) |> fun s =>
      { s with seq := { s.seq with dyn := ps, dynAccepted := ps.length } }

/-- Supply windows still open mark the step that starts, once each (R453). -/
def State.markSuspects (s : State) : State :=
  let t := s.srec.step + 1
  let due := s.power.suspects.filter (fun w => w.marks && w.marked != t)
  let s := due.foldl (fun s w => s.dev ⟨0x29, 0, w.die, 0, 0, 0, 0⟩) s
  { s with power := { s.power with suspects := s.power.suspects.map (fun w => { w with marked := t }) } }

/-- Step t starts at count o with the pricking chosen from the fences; a pricking with no clip picot decides at once (R285), and
supply windows still open mark the step (R453). -/
def State.startStep (s : State) (t o : Nat) : State :=
  let s := s.freshStep
  let v := s.variantNow
  let next := (s.image.pricking v).head.originAfter t o (t + 1)
  let s : State := { s with
    seq := { s.seq with
      running := true, sec := 0, secOrigin := o, step := t, origin := o, variant := v, nextOrigin := next, next := t + 1
      pos := Seq.reset.pos, issue := Seq.reset.issue, delay := Seq.reset.delay, closed := [], pclosed := [], picots := [], gaps := []
      misses := [], missed := [], windows := [], dyn := [], dynAccepted := 0, gateWait := false, lost := [] }
    img := { s.img with previous := none } }
  let s := s.onRec (fun r => { r with step := t, variant := v, origin := o })
  let s := ((s.setReg64 0x20 t).setReg 0x304000 3).recordedPins
  let s := s.markSuspects
  let s := if s.clipEnts = [] then s.takeDecision (decideOn s.image.optim s.spikes 0 [] s.req.replayDecision) else s
  if s.relaxed then s else s.latchTick

/-- Fences of the record to come that were written before its origin (Table 11-12). -/
def State.earlyFences (s : State) (t : Nat) : State :=
  match (if s.req.replay then s.recordOf t else none) with
  | none => s
  | some (r, _) =>
    let h := (r.drop 64).take 128
    let ss := splitSections (r.drop 192) (bytesAt r 12 2)
    s.recordedFences ((pieces 16 (sectionBody ss 6)).filter (fun x => bytesAt x 8 8 < bytesAt h 64 8))

/-- Bivouac due at origin t, in the state the engine is in by then. -/
def State.bivouacAt (s : State) (t : Nat) : State :=
  if s.req.bivOn ∧ s.req.bivStep = t then s.startEntry else s

/-- What happens at origin(t) at count o, in order: the step before ends; two fences hold the engine (R196); the re-thread, STOP and
bivouac due take effect (Table 12-14); a replay without a record ends the run (R413); else step t starts. -/
def State.originAt (s : State) (t o : Nat) : State :=
  let s := (s.closeStep).earlyFences t
  if s.fencedSlices.length ≥ 2 then ((s.raise 0x16 (source 3 0) 0 3 0).hold 8).dropRequests
  else
    let record := s.req.replay && !(s.req.bivOn && s.req.bivStep == t)
    let r := if record then s.loadRecord t else (s, true)
    let s := r.1.rethreadAt t
    if s.req.stopOn ∧ s.req.stopStep = t then
      let s := State.stopRun { s with
        req := { s.req with stopOn := false, stop := 2 }
        power := { s.power with st := .ready } }
      s.bivouacAt t
    else if s.req.bivOn ∧ s.req.bivStep = t then s.bivouacAt t
    else if !r.2 then State.stopRun { s with power := { s.power with st := .ready } }
    else s.startStep t o

/-- A step origin is due: the engine runs, no section does, and the count has reached it. -/
def State.originDue (s : State) : Bool :=
  s.isRunning && !s.seq.running && s.req.entering.isNone && decide (s.seq.nextOrigin ≤ s.count)

/-- STEP_ORIGIN (R164, R196): in relaxed timing the origin of a step that could not start in time is the count at which it does. -/
def State.stepOrigin (s : State) : State :=
  if s.originDue ∧ (s.belay.st = .locked ∨ s.belay.st = .holdover) then s.originAt s.seq.next (Nat.max s.seq.nextOrigin s.count) else s

/-- The row STEP_ORIGIN. -/
def execStepOrigin (s : State) : Host.Outcome State Fault Refusal := answer s s.stepOrigin

/-! ### Launch (R400) -/

/-- An HBM range zeroed. -/
def State.zeroRange (s : State) (a n : Nat) : State :=
  { s with
    hbm := s.hbm.blank a n
    hbmBad := s.hbmBad.filter (fun w => !(a ≤ 8 * w && 8 * w + 8 ≤ a + n)) }

/-- At the first launch of an image without a restored checkpoint, residual stores, histories, level residuals, the carry store and the
spike history are empty (R108, R152, R286). -/
def State.emptyStores (s : State) : State :=
  let s := s.image.policy.foldl (fun s e => if e.2.mode = 0 then s else s.zeroRange e.2.resBase (4096 * e.2.n)) s
  { s with
    scaleHist := [], levelHist := [], heatHist := [], levelRes := [], spikes := []
    slices := s.slices.map (fun sl => { sl with carry := [] }) }

/-- The launch count has been reached (R400): the engine runs, and the origin of its first step is c. -/
def State.beginRun (s : State) : State :=
  let t := s.req.launchStep
  let c := s.req.launchAt
  let s := if s.img.launched ∨ Config.checkpointRestored t then s else s.emptyStores
  let rlogs := [(2 ^ 24 + 0xA4, s.reg 0xA4), (2 ^ 24 + 0xA8, s.reg 0xA8), (2 ^ 24 + 0xAC, s.reg 0xAC)]
  let s : State := { s with
    power := { s.power with st := .running }
    req := { s.req.unforced with launchOn := false, launch := 2, replayAt := 0, replayWait := [] }
    img := { s.img with launched := true }
    seq := { Seq.reset with step := t, next := t, origin := c, nextOrigin := c, doorbells := s.seq.doorbells }
    srec := { StepRec.reset with step := t, lstatus := if s.req.replay then 2 else 0 }
    sealing := []
    regs := rlogs.foldl (fun r e => r.put e.1 e.2) s.regs }
  ((s.launchCtx.setReg 0x1C 0).writeLog t (s.launchRecord t c)).1

/-- LAUNCH_COUNT_REACHED. -/
def State.launchDue (s : State) : Bool :=
  s.power.st == .ready && s.req.launchOn && s.req.entering.isNone && s.belay.st != .acquire && decide (s.req.launchAt ≤ s.count)

/-- A launch whose count is reached: the engine enters RUNNING only if every group is still ARMED (R122), else the launch is refused. -/
def State.launchNow (s : State) : State :=
  if !s.launchDue then s
  else if s.image.namedGroups.any (fun g => (s.groupQ g).st ≠ 2) then
    { s with req := { s.req with launchOn := false, launch := 3, launchReason := 2 } }
  else s.beginRun

/-- The row LAUNCH_COUNT_REACHED. -/
def execLaunchCountReached (s : State) : Host.Outcome State Fault Refusal := answer s s.launchNow

end Sys2Proof.Machine
end

