-- ==== Sys2Proof/Machine/BelayTime.lean ====
section
/-! DEFINITION. Belay time: BELAY_TICK (R20, R22), the belay receiver (R386 to R398), the jump of a re-lock (R397), and time transfer
between pods (R391 to R393). -/

namespace Sys2Proof.Machine

/-! ### One tick (R20, R22) -/

/-- The section after the running one ends: eval, then checkpoint, where the step has them (R164). -/
def State.nextSection (s : State) : Option Nat :=
  let h := s.pricking.head
  let eval := decide (h.nEval ≠ 0) && decide ((s.seq.step + 1) % h.nEval = 0)
  let ckpt := decide (h.nCkpt ≠ 0) && decide ((s.seq.step + 1) % h.nCkpt = 0)
  if s.seq.sec = 0 ∧ eval then some 1
  else if s.seq.sec ≤ 1 ∧ ckpt then some 2
  else none

/-- Every pin of the section has issued and completed: what ends a section in relaxed timing (R193). -/
def State.sectionDone (s : State) : Bool :=
  s.seq.flights == [] && (List.range 10).all (fun st => s.seq.issue.getD st [] == [] &&
    ((s.nextIssue st).isNone || (decide (st < 8) && (s.slice st).fenced)))

/-- The running section ends at its length; in relaxed timing, once it is done. -/
def State.endSection (s : State) : State :=
  let stop := s.seq.secOrigin + s.pricking.length s.seq.sec
  if !s.seq.running ∨ s.count < stop ∨ (s.relaxed ∧ !s.sectionDone) then s
  else
    let s := s.closeSection
    match s.nextSection with
    | none => { s with seq := { s.seq with running := false } }
    | some n =>
      { s with seq := { s.seq with
          sec := n, secOrigin := Nat.max stop (if s.relaxed then s.count else stop), pos := Seq.reset.pos, delay := Seq.reset.delay
          closed := [], pclosed := [], lost := [] } }

/-- The count advances by one: the 64-tick span of the reduction arrays, releases that waited, queues, the section's end. -/
def State.advance (s : State) : State :=
  let c := s.belay.count + 1
  let s : State := { s with
    belay := { s.belay with count := c }
    seq := { s.seq with adds := if c % 64 = 0 then [0, 0, 0, 0, 0, 0, 0, 0] else s.seq.adds } }
  s.freeDue.settleQueues.endSection

/-- A pin of step gate or replay mode is ready and has not been taken. -/
def State.gatedWaits (s : State) : Bool :=
  (List.range 10).any (fun st => match s.dueIssue st with | some x => s.pinReady st x | none => false)

/-- What is due at this count and comes before the next tick: latched pins, completions, cutoffs, origins, launches and wakes. -/
def State.workDue (s : State) : Bool :=
  (!s.seq.gateWait && s.seq.issue.any (fun q => q != [])) || s.seq.flights.any (fun f => decide (f.done ≤ s.count)) ||
    s.anyCutoffDue || s.originDue || s.launchDue || s.gatedWaits ||
    (s.power.st == .bivouac && s.req.wakeOn && decide (s.req.wakeAt ≤ s.count) &&
      (!s.req.waking || decide (s.req.wakeAt + 60000 ≤ s.count) ||
        (!s.power.rail && decide (s.req.wakeAt + 20000 ≤ s.count))))

/-- The count runs: it does in every receiver state but STALLED (Table 11-3). -/
def State.countRuns (s : State) : Bool := s.power.standby && s.belay.st != .stalled

/-- BELAY_TICK (R20): the count advances once everything due at it has been done, and the pins of the new tick are latched (R165). -/
def State.tick (s : State) : State :=
  if s.countRuns && !s.workDue then
    let s := s.advance
    if s.relaxed then s else s.latchTick
  else s

/-- The row BELAY_TICK. -/
def execBelayTick (s : State) : Host.Outcome State Fault Refusal := answer s s.tick

/-! ### The jump of a re-lock (R397) -/

/-- Completions that are due take effect. -/
def State.completeDue (s : State) : Nat → State
  | 0 => s
  | fuel + 1 => if s.seq.flights.any (fun f => decide (f.done ≤ s.count)) then (s.completeNext.sealDone).completeDue fuel else s

/-- The latched pins of a stream are executed; those latched since `since` are discharged. -/
def State.dischargeStream (s : State) (st since : Nat) : Nat → State
  | 0 => s
  | fuel + 1 =>
    match s.seq.issue.getD st [] with
    | [] => s
    | x :: _ =>
      let x := if x.at_ > since then { x with gone := true } else x
      (((s.unlatch st).noteLast st x).executePin st x).dischargeStream st since fuel

/-- Pins of a stream that a count step to `u` discharges in the running section: the first and how many. The SEAL is not among
them. -/
def State.discharged (s : State) (u st : Nat) : Option (Nat × Nat) :=
  let pos := s.seq.pos.getD st 0
  let due := fun (p : Pin) => decide (s.seq.secOrigin + p.tick ≤ u)
  let fixed := ((s.pricking.stream s.seq.sec st).drop pos).takeWhile due
  let n := (fixed.filter (fun p => p.op ≠ 17)).length + ((s.dynOf st).filter due).length
  if n = 0 ∨ !s.streamRuns st then none else some (pos, n)

/-- One STALL entry for each stream of the running section that has pins to discharge (R397, log 30). -/
def State.stallEntries (s : State) (u : Nat) : State :=
  if s.relaxed then s
  else (List.range 10).foldl (fun s st => match s.discharged u st with
    | some (i, n) => s.dev ⟨0x28, 0, streamUnit st, s.seq.sec, i, 0, n⟩
    | none => s) s

/-- One count of a jump to `u` from `since`: as a tick, with its origins, its pins discharged, and its completions and cutoffs. -/
def State.jumpTick (s : State) (u since : Nat) : State :=
  let sec := s.seq.sec
  let s := s.advance
  let s := s.completeDue (s.seq.flights.length + 8)
  let s := s.cutAll
  let s := if s.seq.running ∧ s.seq.sec ≠ sec then s.stallEntries u else s
  let s := if s.originDue then (s.stepOrigin.stallEntries u) else s
  let s := if s.relaxed then s else s.latchTick
  (List.range 10).foldl (fun s st => s.dischargeStream st since (s.seq.issue.getD st []).length) s

/-- The counts up to `u`, one by one while the engine runs; then the count is `u`. -/
def State.jumpFrom (s : State) (u since : Nat) : Nat → State
  | 0 => { s with belay := { s.belay with count := u } }
  | fuel + 1 =>
    if s.isRunning ∧ s.count < u then (s.jumpTick u since).jumpFrom u since fuel
    else { s with belay := { s.belay with count := u } }

/-- The receiver is LOCKED on a candidate. -/
def State.lockOn (s : State) (cand : Nat) : State :=
  { s with belay := { s.belay with
      st := .locked, cand := cand, goodRun := 0, badRun := 0, disagree := 0, lastGood := s.belay.count, holdFor := false } }

/-- A LINK-DOWN cairn of the belay receiver: cause 5. -/
def State.belayCairn (s : State) (qual b : Nat) : State := s.raise 0x03 (source 2 0) qual 5 b

/-- A count step forward in RUNNING (R397). -/
def State.jump (s : State) (u : Nat) : State :=
  let c := s.count
  let s := (s.stallEntries u).belayCairn 6 (Nat.min (u - c) (2 ^ 32 - 1))
  let s : State := { s with belay := { s.belay with st := .locked } }
  s.jumpFrom u c (u - c)

/-- Re-lock (R397) on a candidate whose count is `u`. A launch whose count is stepped over takes effect at it (Table 11-5). -/
def State.relock (s : State) (cand u : Nat) : State :=
  let c := s.count
  if s.isRunning then
    if u > c + 2 ^ 26 ∨ c > u + 2 ^ 26 then
      let s := ((s.belayCairn 7 0).hold 9).dropRequests
      State.lockOn { s with belay := { s.belay with count := u } } cand
    else if u ≤ c + 1 ∧ c ≤ u + 1 then s.lockOn cand
    else if u < c then
      let s := if s.belay.st = .stalled then s else s.belayCairn 5 0
      { s with belay := { s.belay with st := .stalled, cand := cand, holdFor := true } }
    else (s.jump u).lockOn cand
  else if s.power.st = .ready ∧ s.req.launchOn ∧ s.req.entering.isNone ∧ c ≤ s.req.launchAt ∧ s.req.launchAt < u then
    let s := State.launchNow { s with belay := { s.belay with count := s.req.launchAt, st := .locked } }
    if s.isRunning then (s.stepOrigin.jump u).lockOn cand
    else State.lockOn { s with belay := { s.belay with count := u } } cand
  else State.lockOn { s with belay := { s.belay with count := u } } cand

/-! ### Candidates (R387, R388) -/

/-- The belay block of the running image. -/
def State.belayBlock (s : State) : BelayBlock := s.image.config.belay

/-- A candidate is usable: UP, or a ring port behind a CLOSED-ACTIVE bride with a measured λ; and VALID in its last BELAY packet. A
pod root's candidate is usable while its PHY is UP. -/
def State.usable (s : State) (p : Nat) : Bool :=
  let q := s.port p
  if p < 32 then
    (decide (q.link.st = .up) || (match ringPair p with
      | some r => decide ((s.bride r).st = .closedActive) && q.link.lambda.isSome
      | none => false)) && (match q.belayRx with | some (_, v, _) => v | none => false)
  else decide (p < 36 ∧ q.link.st = .up)

/-- The candidates of the belay block. -/
def State.candidates (s : State) : List Nat := s.belayBlock.up.filter (· ≠ 63)

/-- The first usable candidate. -/
def State.firstUsable (s : State) : Option Nat := s.candidates.find? s.usable

/-! ### Markers (R389) -/

/-- The multiple of 1,024 nearest to an instant in 1/192 tick. -/
def nearestMark (i : Int) : Nat := (((i + 512 * 192) / (1024 * 192)) * 1024).toNat

/-- A MARK from the candidate in use, at an instant in 1/192 tick: assigned by position, discarded where it disagrees with the last
BELAY packet, else its phase error taken (R389, R394). -/
def State.marker (s : State) (p instant : Nat) : State :=
  match (s.port p).link.lambda, (s.port p).belayRx with
  | some l, some (m, _, _) =>
    let mine := if s.belay.st = .locked then s.belay.cand == p else s.candidates.contains p
    if !s.power.standby ∨ !mine then s
    else
      let d := (instant : Int) - l
      let n := nearestMark d
      let err := d - n * 192
      let b := s.belay
      if b.st = .locked then
        if n < m ∨ m + 66560 < n then
          { s with belay := { b with discarded := b.discarded + 1, disagree := b.disagree + 1 } }
        else if err.natAbs > 96 then { s with belay := { b with phase := err, badRun := b.badRun + 1, disagree := 0 } }
        else { s with belay := { b with phase := err, badRun := 0, disagree := 0, lastGood := b.count } }
      else { s with belay := { b with phase := err, goodRun := if err.natAbs ≤ 8 then b.goodRun + 1 else 0 } }
  | _, _ => s

/-- The row BELAY_MARKER. -/
def execBelayMarker (port instant : Nat) (s : State) : Host.Outcome State Fault Refusal := answer s (s.marker port instant)

/-! ### Receiver states (Table 11-3) -/

/-- A condition of LOCKED to leave for HOLDOVER holds. -/
def State.holdoverDue (s : State) : Bool :=
  let b := s.belay
  b.st == .locked &&
    (if s.belayBlock.role = 2 then s.belayBlock.refsel == false && !b.refPresent
     else (!s.usable b.cand && s.firstUsable.isNone) || decide (b.badRun ≥ (if s.belayBlock.role = 1 then 1 else 2)) || decide (b.disagree ≥ 2)
       || (s.belayBlock.role == 0 && decide (b.lastGood + 2304 ≤ b.count)))

/-- HOLDOVER entered (R395). -/
def State.enterHoldover (s : State) : State :=
  State.belayCairn { s with belay := { s.belay with st := .holdover, hoStart := s.belay.count, goodRun := 0 } } 4 0

/-- The row BELAY_HOLDOVER. -/
def execBelayHoldover (s : State) : Host.Outcome State Fault Refusal :=
  answer s (if s.power.standby ∧ s.holdoverDue then s.enterHoldover else s)

/-- STALLED entered once HOLD ticks have passed in HOLDOVER (R394, R395). -/
def State.stall (s : State) : State :=
  if s.power.standby ∧ s.belay.st = .holdover ∧ s.belay.hoStart + s.belayBlock.hold ≤ s.count then
    State.belayCairn { s with belay := { s.belay with st := .stalled, holdFor := false } } 5 0
  else s

/-- The row BELAY_STALL. -/
def execBelayStall (s : State) : Host.Outcome State Fault Refusal := answer s s.stall

/-- A machine root starts: its count is BLY_ROOT_START (R394). -/
def State.rootStart (s : State) : State :=
  State.lockOn { s with belay := { s.belay with count := s.reg64 0x10020, rooted := true } } 63

/-- ACQUIRE to LOCKED (R394): 4 good markers, 16 Syncs at a pod root, or a machine root's reference. -/
def State.acquireLock (s : State) (u : Nat) : State :=
  let need := if s.belayBlock.role = 1 then 16 else 4
  if !s.power.standby ∨ s.belay.st ≠ .acquire ∨ s.img.run.isNone then s
  else if s.belayBlock.role = 2 then (if s.belayBlock.refsel ∨ s.belay.refPresent then s.rootStart else s)
  else
    match s.firstUsable with
    | some p => if s.belay.goodRun ≥ need then State.lockOn { s with belay := { s.belay with count := u } } p else s
    | none => s

/-- The row BELAY_ACQUIRE_LOCK. -/
def execBelayAcquireLock (upstream : Nat) (s : State) : Host.Outcome State Fault Refusal := answer s (s.acquireLock upstream)

/-- Re-lock from any usable candidate, out of HOLDOVER or STALLED (R397). -/
def State.relockRow (s : State) (cand u : Nat) : State :=
  let may := s.belay.st = .holdover ∨ (s.belay.st = .stalled ∧ !s.belay.holdFor)
  if s.power.standby ∧ s.belayBlock.role ≠ 2 ∧ may ∧ cand ∈ s.candidates ∧ s.usable cand then s.relock cand u else s

/-- The row BELAY_RELOCK. -/
def execBelayRelock (candidate upstream : Nat) (s : State) : Host.Outcome State Fault Refusal := answer s (s.relockRow candidate upstream)

/-- A held count resumes when the upstream reaches it (R397). -/
def execBelayStallResume (upstream : Nat) (s : State) : Host.Outcome State Fault Refusal :=
  answer s (if s.power.standby ∧ s.belay.holdFor ∧ s.belay.st = .stalled ∧ s.count ≤ upstream then s.lockOn s.belay.cand else s)

/-- The candidate in use has failed and another is usable (R388): within 1 tick the receiver stays LOCKED, else it is a re-lock. -/
def State.changeCandidate (s : State) (u : Nat) : State :=
  if !s.power.standby ∨ s.belay.st ≠ .locked ∨ s.belayBlock.role = 2 ∨ s.usable s.belay.cand then s
  else
    match s.firstUsable with
    | some p => if u ≤ s.count + 1 ∧ s.count ≤ u + 1 then s.lockOn p else s.relock p u
    | none => s

/-- The row BELAY_CANDIDATE_CHANGE. -/
def execBelayCandidateChange (upstream : Nat) (s : State) : Host.Outcome State Fault Refusal := answer s (s.changeCandidate upstream)

/-! ### The machine root's reference (R394, R396) -/

/-- REFERENCE_INPUT_LOST: a LOCKED machine root on the reference input enters HOLDOVER. -/
def State.refLost (s : State) : State :=
  let s : State := { s with belay := { s.belay with refPresent := false } }
  if s.belayBlock.role = 2 ∧ !s.belayBlock.refsel ∧ s.belay.st = .locked then s.enterHoldover else s

/-- The row REFERENCE_INPUT_LOST. -/
def execReferenceInputLost (s : State) : Host.Outcome State Fault Refusal := answer s (if s.power.standby then s.refLost else s)

/-- REFERENCE_INPUT_PRESENT: the count of a machine root resumes from where it stood, or starts. -/
def State.refBack (s : State) : State :=
  let s : State := { s with belay := { s.belay with refPresent := true } }
  if s.belayBlock.role = 2 ∧ !s.belayBlock.refsel ∧ s.img.run.isSome then
    (match s.belay.st with
     | .acquire => s.rootStart
     | .holdover | .stalled => s.lockOn 63
     | .locked => s)
  else s

/-- The row REFERENCE_INPUT_PRESENT. -/
def execReferenceInputPresent (s : State) : Host.Outcome State Fault Refusal := answer s (if s.power.standby then s.refBack else s)

/-! ### Time between pods (R391 to R393). Times are in 1/192 tick. -/

/-- This instant as a time: 4 ns for each count (R392). -/
def State.ptpNow (s : State) : Int := (s.count : Int) * 192

/-- A PTP message put on the wire: kind 0 Sync, 1 Delay_Req, 3 Delay_Resp. -/
def State.ptpSend (s : State) (kind port seq : Nat) (time : Int) : State :=
  { s with belay := { s.belay with ptpOut := s.belay.ptpOut ++ [(kind, port, seq, time)] } }

/-- A carriage port that is UP. -/
def State.carriageUp (s : State) (p : Nat) : Bool := decide (32 ≤ p ∧ p < 36 ∧ (s.port p).link.st = .up)

/-- SYNC_SEND (R392): by the machine root, one-step, on a carriage port that is UP. -/
def execSyncSend (port : Nat) (s : State) : Host.Outcome State Fault Refusal :=
  answer s (if s.belayBlock.role = 2 ∧ s.belay.st = .locked ∧ s.carriageUp port then
    (let s' := s.ptpSend 0 port s.belay.ptpSeq s.ptpNow
     { s' with belay := { s'.belay with ptpSeq := (s'.belay.ptpSeq + 1) % 65536 } }) else s)

/-- DELAY_REQ_SEND (R392): by a pod root, on its upstream carriage port. -/
def execDelayReqSend (port : Nat) (s : State) : Host.Outcome State Fault Refusal :=
  answer s (if s.belayBlock.role = 1 ∧ s.candidates.contains port ∧ s.carriageUp port then
    (let s' := s.ptpSend 1 port s.belay.ptpSeq s.ptpNow
     { s' with belay := { s'.belay with ptpSeq := (s'.belay.ptpSeq + 1) % 65536, dreq := some (s.belay.ptpSeq, s.ptpNow) } }) else s)

/-- A message that this pod root takes: of its domain, from a candidate port. -/
def State.ptpMine (s : State) (m : PtpMsg) : Bool :=
  s.power.standby && s.belayBlock.role == 1 && m.domain == s.belayBlock.domain && s.candidates.contains m.port && s.carriageUp m.port

/-- A master-to-slave interval: the offset is what is left of it after the mean path delay; within ±14 ns (672 units) it is good (R393). -/
def State.takeSync (s : State) (ms : Int) : State :=
  let o := ms - s.belay.delay
  let good := decide (o.natAbs ≤ 672)
  { s with belay := { s.belay with
      ms := some ms, offset := o, phase := o, syncWait := none
      goodRun := if good then s.belay.goodRun + 1 else 0
      badRun := if good then 0 else s.belay.badRun + 1
      lastGood := if good then s.belay.count else s.belay.lastGood } }

/-- SYNC (R391, R392): one-step at once, two-step with its Follow_Up. -/
def State.syncIn (s : State) (m : PtpMsg) : State :=
  if !s.ptpMine m then s
  else if m.twoStep then { s with belay := { s.belay with syncWait := some (m.seq, m.stamp, m.time, m.correction) } }
  else s.takeSync (m.stamp - m.time - m.correction)

/-- The row SYNC. -/
def execSync (msg : PtpMsg) (s : State) : Host.Outcome State Fault Refusal := answer s (s.syncIn msg)

/-- FOLLOW_UP (R391): the precise origin of the two-step Sync with its sequenceId. -/
def State.followUpIn (s : State) (m : PtpMsg) : State :=
  match s.belay.syncWait with
  | some (q, stamp, _, corr) => if s.ptpMine m ∧ q = m.seq then s.takeSync (stamp - m.time - corr - m.correction) else s
  | none => s

/-- The row FOLLOW_UP. -/
def execFollowUp (msg : PtpMsg) (s : State) : Host.Outcome State Fault Refusal := answer s (s.followUpIn msg)

/-- DELAY_REQ (R392): the machine root answers with the time at which it came. -/
def execDelayReq (msg : PtpMsg) (s : State) : Host.Outcome State Fault Refusal :=
  answer s (if s.power.standby ∧ s.belayBlock.role = 2 ∧ msg.domain = s.belayBlock.domain ∧ s.carriageUp msg.port then
    s.ptpSend 3 msg.port msg.seq msg.stamp else s)

/-- DELAY_RESP (R391, R392): the mean path delay, from this and the last Sync. -/
def State.delayRespIn (s : State) (m : PtpMsg) : State :=
  match s.belay.dreq, s.belay.ms with
  | some (q, t3), some ms =>
    if s.ptpMine m ∧ q = m.seq ∧ m.peer = s.coord then
      { s with belay := { s.belay with delay := (ms + (m.time - t3 - m.correction)) / 2, dreq := none } }
    else s
  | _, _ => s

/-- The row DELAY_RESP. -/
def execDelayResp (msg : PtpMsg) (s : State) : Host.Outcome State Fault Refusal := answer s (s.delayRespIn msg)

end Sys2Proof.Machine
end

