-- ==== Sys2Proof/Machine/Store.lean ====
section
/-! DEFINITION. The pattern store (R418 to R428): its layout, the birth and key records, and the class of an image copy. -/

namespace Sys2Proof.Machine

/-! ### The device -/

/-- S ÷ 2 (Table 12-2). -/
def storeHalf : Nat := Config.storeSize / 2

/-- The device is one that R418 allows, and it answers Read SFDP (R419). -/
def storeGood : Bool :=
  Config.storeAnswers && decide (2 ^ 26 ≤ Config.storeSize ∧ Config.storeSize ≤ 2 ^ 31) && 2 ^ Config.storeSize.log2 == Config.storeSize

/-- MGT_STORE.MODE once phase 1 has run (Table 14-26). -/
def storeModeNow : Nat := if !storeGood then 3 else if Config.storeOctal then 2 else 1

/-- Bytes of the store. -/
def State.storeRead (s : State) (a n : Nat) : List Byte := Memory.readN storeBlank s.store a n

/-- Bytes programmed into erased room. -/
def State.storeProgram (s : State) (a : Nat) (bs : List Byte) : State := { s with store := Memory.writeN storeBlank s.store a bs }

/-- Room erased. -/
def State.storeErase (s : State) (a n : Nat) : State := { s with store := s.store.blank a n }

/-- A signature, r first, each half 48 bytes, most significant byte first (Table 12-3). -/
def signedBy (key : Nat × Nat) (message sig : List Byte) : Bool :=
  ecdsaVerify key (sha384 message) (beNat (sig.take 48)) (beNat ((sig.drop 48).take 48))

/-! ### Birth and key records (R426, R428) -/

/-- A birth record, if it is valid (R428, Table 12-5). -/
def birthRecord (bs : List Byte) : Option Birth :=
  let n := bytesAt bs 4 4
  if bytesAt bs 0 4 = 0x42544831 ∧ 4192 ≤ n ∧ n ≤ 65536 ∧ bytesAt bs 16 1 = Config.stepping ∧
      signedBy Config.romKey (bs.take (n - 96)) ((bs.drop (n - 96)).take 96) then
    some ⟨bytesAt bs 8 8, bytesAt bs 17 1 % 16, bytesAt bs 18 6, bytesAt bs 24 1 % 128⟩
  else none

/-- The birth record that the engine uses: the primary if it is valid, else the backup (R428). -/
def State.readBirth (s : State) : Option Birth :=
  match birthRecord (s.storeRead 0 65536) with
  | some b => some b
  | none => birthRecord (s.storeRead storeHalf 65536)

/-- A key record, if it is valid (R426). -/
def keyRecord (bs : List Byte) : Option OwnerKey :=
  if bytesAt bs 0 4 = 0x4B594B31 ∧ bytesAt bs 208 4 = crc32c (bs.take 208) ∧ allZero (bs.drop 212) ∧
      signedBy Config.romKey (bs.take 112) ((bs.drop 112).take 96) then
    some ⟨bytesAt bs 4 4, flag (bytesAt bs 8 1) 0, beNat ((bs.drop 16).take 48), beNat ((bs.drop 64).take 48)⟩
  else none

/-- The owner key: the valid record of higher KSEQ (R426). -/
def State.readKey (s : State) : Option OwnerKey :=
  match keyRecord (s.storeRead 0x10000 4096), keyRecord (s.storeRead (storeHalf + 0x10000) 4096) with
  | some a, some b => if a.kseq ≥ b.kseq then some a else some b
  | some a, none => some a
  | none, k => k

/-- A key record written to both places, backup first (R427). -/
def State.writeKey (s : State) (record : List Byte) : State :=
  let s := (s.storeErase (storeHalf + 0x10000) 4096).storeProgram (storeHalf + 0x10000) record
  (s.storeErase 0x10000 4096).storeProgram 0x10000 record

/-! ### Copies (R421 to R425) -/

/-- Where copy A or B begins, and how much room it has (Table 12-2). -/
def copyBase (b : Bool) : Nat := if b then storeHalf + 2 ^ 20 else 2 ^ 20

/-- Room of a copy. -/
def copyRoom : Nat := storeHalf - 2 ^ 20

/-- The header of a copy. -/
def State.copyHead (s : State) (b : Bool) : List Byte := s.storeRead (copyBase b) 4096

/-- SEQ of a header. -/
def headSeq (h : List Byte) : Nat := bytesAt h 8 8

/-- USED of a header, in 4 KiB units. -/
def headUsed (h : List Byte) : Nat := bytesAt h 16 4

/-- MAGIC, HFORMAT, HCRC and SEQ are good: the copy is not EMPTY (R425). -/
def headGood (h : List Byte) : Bool :=
  bytesAt h 0 4 == 0x5A544B31 && bytesAt h 4 4 == 1 && bytesAt h 28 4 == crc32c (h.take 28 ++ (h.drop 32).take 1120)
    && headSeq h != 0 && headSeq h != 2 ^ 64 - 1

/-- The commit marker of a header (R424). -/
def commitMarker (h : List Byte) : List Byte :=
  leBytes 4 0x4D4D4F43 ++ leBytes 8 (headSeq h) ++ leBytes 4 (crc32c (h.take 1248)) ++ zeros 4080

/-- The sections of the directory, in order (R422). -/
def headSections (h : List Byte) : List Section := ((pieces 16 ((h.drop 128).take 1024)).take (bytesAt h 20 1)).map Section.parse

/-- First and last-but-one 4 KiB unit that a section takes. -/
def Section.span (x : Section) : Nat × Nat := (x.offset, x.offset + ceilDiv x.length 4096)

/-- The directory rules (R421, R422): entries, places within USED, no overlap. -/
def directoryGood (h : List Byte) : Bool :=
  let n := bytesAt h 20 1
  let ss := headSections h
  decide (1 ≤ n ∧ n ≤ 64) && allZero ((h.drop (128 + 16 * n)).take (1024 - 16 * n))
    && ss.all (fun x => decide (1 ≤ x.offset) && decide (4096 * x.offset + x.length ≤ 4096 * headUsed h))
    && (indexed ss).all (fun a => (indexed ss).all (fun b =>
        a.1 == b.1 || decide (a.2.span.2 ≤ b.2.span.1) || decide (b.2.span.2 ≤ a.2.span.1)))

/-- The indices that a section type may have (Table 12-4). -/
def sectionIndices (type : Nat) : Nat := if type = 2 then 9 else if type = 5 then 8 else if 1 ≤ type ∧ type ≤ 9 then 1 else 0

/-- Section types (Table 12-4): none reserved, none twice, every required one present. -/
def sectionsGood (ss : List Section) : Bool :=
  ss.all (fun x => decide (x.index < sectionIndices x.type))
    && (ss.map (fun x => (x.type, x.index))).eraseDups.length == ss.length
    && [1, 2, 3, 4, 7, 8].all (fun t => (List.range (sectionIndices t)).all (fun i => ss.any (fun x => x.type == t && x.index == i)))

/-- The bytes of a section of a copy. -/
def State.sectionRead (s : State) (b : Bool) (x : Section) : List Byte := s.storeRead (copyBase b + 4096 * x.offset) x.length

/-- The key that a copy is signed with, if the key policy allows it (R426). -/
def State.signKey (s : State) (h : List Byte) : Option (Nat × Nat) :=
  match bytesAt h 21 1, s.power.key with
  | 0, none => some Config.romKey
  | 0, some k => if k.ownerOnly then none else some Config.romKey
  | 1, some k => some (k.qx, k.qy)
  | _, _ => none

/-- Everything that a VALID copy must meet beyond its header and its marker (R423, R425). -/
def State.copyChecks (s : State) (b : Bool) (h : List Byte) : Bool :=
  let ss := headSections h
  let body := ss.map (s.sectionRead b)
  directoryGood h && sectionsGood ss && (ss.zip body).all (fun x => x.1.scrc == crc32c x.2)
    && (match s.signKey h with
        | some k => signedBy k (h.take 1152 ++ body.flatten) ((h.drop 1152).take 96)
        | none => false)

/-- The classes of a copy (R425). -/
inductive CopyClass where
  | empty | halfWritten | invalid | valid
  deriving DecidableEq, Repr

/-- The class of a copy (R425). -/
def State.copyClass (s : State) (b : Bool) : CopyClass :=
  let h := s.copyHead b
  if !headGood h then .empty
  else if s.storeRead (copyBase b + 4096 * headUsed h) 4096 ≠ commitMarker h then .halfWritten
  else if s.copyChecks b h then .valid
  else .invalid

/-- SEQ of a copy. -/
def State.copySeq (s : State) (b : Bool) : Nat := headSeq (s.copyHead b)

/-- The copies, newest first: by SEQ, copy A before B where they are equal (R429). -/
def State.newestFirst (s : State) : List Bool := if s.copySeq false ≥ s.copySeq true then [false, true] else [true, false]

/-- The outcome of the choice of a copy (Table 12-6). -/
inductive CopyChoice where
  /-- Load this copy; the INVALID copies newer than it. -/
  | copy (b : Bool) (invalid : List Bool)
  /-- HELD for a cause of Table 12-8, with the copy concerned. -/
  | held (cause : Nat) (b : Bool)
  deriving DecidableEq, Repr

/-- The copy that is loaded (R429). -/
def State.chooseCopy (s : State) (named : Nat) : CopyChoice :=
  if named = 1 ∨ named = 2 then
    (if s.copyClass (named == 2) = .valid then .copy (named == 2) [] else .held 1 (named == 2))
  else
    let valid := s.newestFirst.filter (fun b => s.copyClass b = .valid)
    let half := s.newestFirst.filter (fun b => s.copyClass b = .halfWritten)
    let above := fun (b : Bool) => valid.all (fun v => decide (s.copySeq v < s.copySeq b))
    match half.find? above, valid with
    | some b, _ => .held 2 b
    | none, v :: _ => .copy v (s.newestFirst.filter (fun b => s.copyClass b == .invalid && decide (s.copySeq v < s.copySeq b)))
    | none, [] => .held 1 false

end Sys2Proof.Machine
end

