-- ==== Sys2Proof/Machine/Checks.lean ====
section
/-! DEFINITION. The image checks (R30 to R505): each answers whether an image passes the labelled statement, on a state whose running
image is the candidate. What a statement calls "in use" is named by a pin, a pitch, a descriptor or a context of the image. -/

namespace Sys2Proof.Machine

/-! ### What an image names -/

/-- Every static pin of a pricking, with its section and stream. -/
def Pricking.pins (pk : Pricking) : List (Nat × Nat × Pin) :=
  (List.range 3).flatMap (fun sec => (List.range 10).flatMap (fun st => (pk.stream sec st).map (fun p => (sec, st, p))))

/-- Every pin of every pricking of the image. -/
def Image.pins (im : Image) : List (Nat × Nat × Pin) := im.prickings.flatMap Pricking.pins

/-- Policy entries in use: MODE is not OFF, or the tensor is privileged (R83). -/
def Image.tensorsOn (im : Image) : List (Nat × Policy) := im.policy.filter (fun e => e.2.mode ≠ 0 || e.2.priv)

/-- Scaling units of a tensor (R85). -/
def Policy.units (pol : Policy) : Nat := if pol.unit = 31 then 1 else ceilDiv pol.n (2 ^ pol.unit)

/-- The tensor takes heat: TOPB, SIGN, or wide blocks (R84). -/
def Policy.heated (pol : Policy) : Bool := pol.runMode == 3 || pol.runMode == 4 || pol.wideK != 0

/-- The HEAT pins of a tensor. -/
def heatPinsOf (ps : List (Nat × Nat × Pin)) (t : Nat) : List Pin := (ps.filter (fun x => x.2.2.op = 7 ∧ x.2.2.pitch = t)).map (·.2.2)

/-- Carried contexts that a map of their slice names (R217). -/
def Image.contextsUsed (im : Image) : List CtxEnt :=
  im.coding.flatMap (fun c => ((c.pitchMap ++ c.objectMap).filter (fun e => flag e.2 7)).map (fun e => nth c.ctxs (e.2 % 128) default))

/-- Groups in use: those that pins, pitches, valid routed layers and carried contexts name. -/
def Image.groupsUsed (im : Image) : List Nat :=
  (im.pins.filterMap (fun x => x.2.2.groupOf) ++ im.prickings.flatMap (fun pk => pk.pitches.map (·.group)) ++
    (im.routed.layers.filter (·.2.valid)).flatMap (fun e => [e.2.group, e.2.vgroup]) ++
    (im.contextsUsed.filter (fun c => !c.surveyed)).map (·.group)).eraseDups

/-- Two half-open intervals meet. -/
def meets (a b : Nat × Nat) : Bool := decide (a.1 < b.2) && decide (b.1 < a.2)

/-- Of any two items of a list, `ok` holds. -/
def pairwiseOk {α : Type} (ok : α → α → Bool) : List α → Bool
  | [] => true
  | x :: xs => xs.all (ok x) && pairwiseOk ok xs

/-! ### Configuration (R30, R387, R500) -/

/-- R30: extents are powers of two inside the axes' limits. -/
def Image.check30 (im : Image) : Bool :=
  let e := im.config.extents
  e.length == 4 && (e.zip [8, 16, 16, 32]).all (fun x => decide (1 ≤ x.1 ∧ x.1 ≤ x.2) && 2 ^ x.1.log2 == x.1)

/-- R500: the coordinate is set and lies inside the extents. -/
def Image.check500 (im : Image) (coordReg : Nat) : Bool :=
  flag coordReg 16 && ((coordAxes (field coordReg 15 0)).zip im.config.extents).all (fun x => decide (x.1 < x.2))

/-- A ring port P(4s) or P(4s + 1). -/
def isRingPort (p : Nat) : Bool := decide (p < 32) && decide (p % 4 < 2)

/-- R387: the belay block. -/
def Image.check387 (im : Image) : Bool :=
  let b := im.config.belay
  let rest := b.up.drop 1
  let up0 := nth b.up 0 63
  let range := fun (i : Int) => decide (-7 ≤ i ∧ i ≤ -3)
  b.role < 3 && decide (1024 ≤ b.hold ∧ b.hold < 2 ^ 24) && range b.logSync && range b.logDreq && b.resv == 0 && (b.role == 2 || !b.refsel)
    && (if b.role = 2 then b.up.all (· == 63)
        else if b.role = 1 then decide (32 ≤ up0 ∧ up0 ≤ 35) && rest.all (fun p => p == 63 || decide (32 ≤ p ∧ p ≤ 35))
        else isRingPort up0 && rest.all (fun p => p == 63 || decide (p ≤ 29)))

/-! ### Policy, scales and groups (R49, R84, R105, R119) -/

/-- The heat entries of a tensor on a slice (R84). -/
def Policy.heatRange (pol : Policy) (sl : Nat) : Nat × Nat := (pol.heatBase, pol.heatBase + pol.nS sl)

/-- R84: an entry by itself, and against the HEAT pins that name it. -/
def Image.check84 (im : Image) : Bool :=
  im.tensorsOn.all (fun (e : Nat × Policy) =>
    let pol := e.2
    let heats := heatPinsOf im.pins e.1
    let used := im.pins.any (fun x => x.2.2.op == 6 && x.2.2.pitch == e.1)
    pol.mode < 5 && decide (pol.n ≤ 2 ^ 26) && pol.slices != 0
      && (pol.runMode != 3 || (pol.budget != 0 && decide (pol.budget ≤ pol.n)))
      && !(used && pol.heated && heats.isEmpty) && heats.all (fun p => (im.group p.group).size == 2 ^ pol.hgroup)
      && !(pol.wideK != 0 && pol.runMode == 1)
      && (maskBits pol.slices).all (fun sl => pol.nS sl == 0 || decide ((pol.heatRange sl).2 ≤ 8388608)))
    && pairwiseOk (fun (a b : Nat × Policy) => (List.range 8).all (fun sl => !meets (a.2.heatRange sl) (b.2.heatRange sl))) im.tensorsOn

/-- Entries of the scale map of a type that carry a unit of a tensor. -/
def Image.scaleEntries (im : Image) (level : Bool) (t u : Nat) : Nat :=
  (im.config.scales.filter (fun e => e.valid && e.level == level && e.tensor == t && decide (e.first ≤ u ∧ u < e.first + e.count))).length

/-- R49: every unit in one TYPE 0 entry, every requantised unit in one TYPE 1 entry; pitches differ; reserved fields are 0. -/
def Image.check49 (im : Image) : Bool :=
  let valid := im.config.scales.filter (·.valid)
  im.tensorsOn.all (fun e => (List.range e.2.units).all (fun u => im.scaleEntries false e.1 u == 1))
    && im.prickings.all (fun pk => pk.pmap.all (fun m =>
        !((pk.pitchAt m.pitch).axis == 4 && m.set != 2 && pk.requanted m) || im.scaleEntries true m.tensor m.unit == 1))
    && (valid.map (·.pitch)).eraseDups.length == valid.length && im.config.scales.all (fun e => e.resv == 0)

/-- R105: the SIGN pitches of a tensor have the group of its heat pitches, of size 2^HGROUP. -/
def Image.check105 (im : Image) : Bool :=
  im.prickings.all (fun pk => pk.pmap.all (fun m =>
    let pol := im.policyOf m.tensor
    let g := (pk.pitchAt m.pitch).group
    !(m.set == 0 && pol.runMode == 4) || ((im.group g).size == 2 ^ pol.hgroup
      && pk.pmap.all (fun h => !(h.set == 2 && h.tensor == m.tensor) || (pk.pitchAt h.pitch).group == g))))

/-- R119: a descriptor in use. -/
def GroupDesc.checked (extents : List Nat) (g : GroupDesc) : Bool :=
  (g.axes.zip extents).all (fun x =>
    let a := x.1
    if a.spans then decide (1 ≤ a.stride ∧ a.stride ≤ 16) && decide (a.log2ext ≤ 5) && a.resv == 0 && decide (a.origin + a.ext * a.stride ≤ x.2)
    else a.origin == 0 && a.log2ext == 0 && a.stride == 0 && a.resv == 0)
    && (let n := nth g.axes 0 default
        !n.spans || (2 ^ n.stride.log2 == n.stride && n.origin % (n.ext * n.stride) == 0))

/-- R119: the descriptors in use, and membership in the groups that pins name. -/
def Image.check119 (im : Image) (coord : Nat) : Bool :=
  im.groupsUsed.all (fun g => (im.group g).checked im.config.extents)
    && (im.pins.filterMap (fun x => x.2.2.groupOf)).all (fun g => (im.group g).has coord)

/-! ### Pins (R166 to R168, R200) -/

/-- No AUX, WIDE or CODED. -/
def Pin.plain (p : Pin) : Bool := !p.aux && !p.wide && !p.coded

/-- Every field that Table 5-3 or Table 7-7 marks "—" is 0 (R166). -/
def Pin.dashes (p : Pin) : Bool :=
  let bare := p.buf == 0 && p.portq == 0 && p.arg == 0 && p.plain
  match p.op with
  | 0 => p.pitch == 0 && p.chunk == 0 && bare
  | 3 | 4 => p.portq == 0 && p.arg == 0 && p.plain
  | 7 => !p.aux || (p.buf == noBuffer && p.portq == 0)
  | 8 => p.buf == 0 && p.portq == 0
  | 9 | 10 => p.portq == 0
  | 11 => p.arg == 0 && p.plain
  | 12 | 13 => !p.aux && !p.wide
  | 15 => p.chunk == 0 && bare
  | 16 | 17 => p.pitch == 0 && p.chunk == 0 && bare
  | _ => true

/-- The N ports (Table 1-8): P(4s + 2) and P(4s + 3) of slices 0 to 6. -/
def isNPort (p : Nat) : Bool := decide (p < 28) && decide (2 ≤ p % 4)

/-- Every encoding of the pin is one that its table gives (Tables 5-3 and 7-7). -/
def Pin.encodings (p : Pin) : Bool :=
  match p.op with
  | 1 => p.arg < 4 && (if p.aux then p.arg == 0 && !p.coded else true) && (p.arg == 3 || decide (p.portq ≤ 36))
  | 2 | 11 => decide (p.portq ≤ 36)
  | 5 => p.aux || decide (p.portq < 24) || decide (32 ≤ p.portq ∧ p.portq ≤ 34)
  | 6 => decide (p.portq ≤ 8) && p.arg != 0
  | 7 => p.aux || (decide (p.portq ≤ 8) && p.arg != 0)
  | 12 => if p.arg % 4 = 0 then p.portq == 0x3FF && p.rank == 0 else p.arg % 4 < 3 && (p.portq == 36 || isNPort p.portq)
  | 13 => p.chunk % 4096 == 0 && p.buf == noBuffer && p.arg % 4 < 2 && (p.portq == 36 || isNPort p.portq)
  | 14 => p.portq < 24
  | op => op < 18

/-- The pin may stand in the stream, with its SLICE field as the stream has it (Tables 5-2 and 5-3). -/
def Pin.streamGood (p : Pin) (st : Nat) : Bool :=
  p.slice == (if st < 8 then st else 0)
    && (p.op == 0 || (if p.op ≤ 13 then decide (st < 8) else if p.op = 14 then st == 8 else st == 9))

/-- The pin may stand in the section: 0 step, 1 eval, 2 checkpoint (Table 5-3, R36). -/
def Pin.sectionGood (p : Pin) (sec : Nat) : Bool :=
  match p.op with
  | 0 => true
  | 1 => if p.aux then sec == 0 else true
  | 2 | 10 | 11 | 12 | 13 | 15 => sec < 2
  | 5 => if p.aux then sec == 2 else true
  | 8 => sec != 1
  | 16 => sec == 0 && p.tick == 0
  | _ => sec == 0

/-- The pin may be dynamic (Table 5-3). -/
def Pin.dynamicGood (p : Pin) : Bool := [0, 1, 2, 3, 5, 9, 10, 12, 13].contains p.op && !(p.op == 1 && p.aux) && !(p.op == 5 && p.aux)

/-- The staging units that a pin names: first unit and count. -/
def pinUnits (im : Image) (pk : Pricking) (st : Nat) (p : Pin) : List (Nat × Nat) :=
  let r := pk.pitchAt p.pitch
  let c := unitsFor r.bytes
  match p.op with
  | 1 => if !p.aux && p.arg % 4 = 0 then [(p.buf, c)] else []
  | 2 => (p.buf, r.expectUnits) :: (if p.arg = noBuffer then [] else [(p.arg, c)])
  | 3 => [(p.buf, r.expectUnits)]
  | 4 => [(p.buf, c)]
  | 5 => if p.aux then [] else [(p.buf, c)]
  | 6 =>
    let pol := im.policyOf p.pitch
    let n := if p.wide then p.arg else pol.mainChunks st (csizeBytes p.portq)
    [(p.buf, n * unitsFor (csizeBytes p.portq))]
  | 7 => if p.aux then [] else [(p.buf, ceilDiv (2 * p.arg) (csizeBytes p.portq) * unitsFor (csizeBytes p.portq))]
  | 8 =>
    let c := im.surveyCtx st p
    if p.aux && !c.surveyed then [(c.tbuf, 1)] else []
  | 9 | 10 => [(p.buf, c), (p.arg, c)]
  | 11 => [(p.buf, 1)]
  | 12 => [(p.buf, 1)]
  | _ => []

/-- The pin's indices lie in their tables (R200). -/
def pinIndices (pk : Pricking) (p : Pin) : Bool :=
  let pitch := decide (p.pitch < pk.pitches.length)
  let md := fun (i : Nat) => decide (i < pk.mdescs.length)
  match p.op with
  | 1 => pitch && (!p.aux || md p.buf)
  | 5 => if p.aux then md p.arg && md (p.arg + 1) else pitch && (p.portq == 33 || md p.arg)
  | 2 | 3 | 4 | 9 | 10 | 11 | 12 | 13 => pitch
  | 8 => md p.arg
  | 15 => decide (p.pitch < pk.opens.length)
  | _ => true

/-- A wire format code of Table 2-2, or 0 (Table 5-4). -/
def formatCode (f : Nat) : Bool := [0, 1, 2, 3, 8, 9, 10, 11].contains f

/-- Every encoding and reserved field of a pitch record (Table 5-4), and its prusik entries' places. A record of no chunk is a place in the
table that no collective uses, so it needs no hop (DEDUCED, log 31). -/
def Pitch.good (r : Pitch) (prusiks : Nat) : Bool :=
  r.axis < 6 && decide (r.round ≤ 4) && r.kind < 6 && formatCode r.format
    && (if r.kind = 1 then r.owidth == r.format else r.owidth == 0 || decide (8 ≤ r.owidth ∧ r.owidth ≤ 11))
    && decide (r.csize ≤ 8) && (r.chunks == 0 || r.hops != 0) && decide (r.hops ≤ 32) && !(r.carry && r.ageMax == 0) && (r.kind == 4 || r.root == 0)
    && (r.prusikCount != 0 || r.prusikCutoff == 0) && decide (r.prusikFirst + r.prusikCount ≤ prusiks) && r.resv == 0

/-- Every encoding and reserved field of the tables (R163, R171, R187). -/
def Pricking.tablesGood (pk : Pricking) : Bool :=
  pk.head.resv == 0 && decide (pk.head.nMdesc ≤ 8192) && pk.pitches.all (fun r => r.good pk.prusiks.length)
    && pk.prusiks.all (fun e => e.resv == 0)
    && pk.mdescs.all (fun m => m.kind < 3 && m.resv == 0 && (m.kind != 2 || decide (m.base < 2 ^ 20)))
    && pk.opens.all (fun o => o.resv == 0 && decide (o.bufFirst + o.bufCount ≤ 6144) && decide (o.maxPins ≤ 2048))

/-- Ascending ticks, six pins in a tick at most, 32,768 in any span of 4,096 ticks (R200, Table 5-8). -/
def streamOrder (ps : List Pin) : Bool :=
  (ps.zip (ps.drop 1)).all (fun x => decide (x.1.tick ≤ x.2.tick)) && (ps.zip (ps.drop 6)).all (fun x => decide (x.1.tick < x.2.tick))
    && (ps.zip (ps.drop 32768)).all (fun x => decide (x.1.tick + 4096 ≤ x.2.tick))

/-- R200, but for the statements that it names by their labels. -/
def Image.check200 (im : Image) (pk : Pricking) : Bool :=
  pk.tablesGood && pk.streams.all streamOrder && pk.pins.all (fun (x : Nat × Nat × Pin) =>
    let p := x.2.2
    p.dashes && p.encodings && p.streamGood x.2.1 && p.sectionGood x.1 && pinIndices pk p
      && decide (p.tick + pinLatency im pk x.2.1 p ≤ pk.length x.1)
      && (pinUnits im pk x.2.1 p).all (fun u => decide (u.1 + u.2 ≤ 6144)))

/-! ### Orders and timing of a pricking (R36, R177 to R184, R188, R197, R296, R321) -/

/-- The clip picots of the image (R281). -/
def Image.clips (im : Image) : List NormEnt := im.optim.norms.filter (fun e => e.valid && e.clip)

/-- Completion of the last clip picot's last round under the published latencies (R36). -/
def Image.clipDone (im : Image) (pk : Pricking) : Nat :=
  maxNat ((pk.pins.filter (fun x => x.1 = 0 ∧ x.2.2.op = 11 ∧ im.clips.any (fun e => e.pitch == x.2.2.pitch))).map
    (fun x => x.2.2.tick + pinLatency im pk x.2.1 x.2.2))

/-- R36. -/
def Image.check36 (im : Image) (pk : Pricking) : Bool :=
  let engine := pk.stream 0 9
  let seals := engine.filter (fun p => p.op = 17)
  (match seals, engine.getLast? with
   | [sl], some last => last.op == 17 &&
      (List.range 9).all (fun st => (pk.stream 0 st).all (fun p => decide (p.tick < sl.tick)))
   | _, _ => false)
    && (pk.stream 0 8).all (fun p => p.op != 14 || decide (im.clipDone pk ≤ p.tick))
    && pk.pins.all (fun x => !x.2.2.isMemSend || x.1 == 0)

/-- R168: the side area's pin of a tensor with wide blocks, one in each slice stream that selects it, before its first SELECT. -/
def Image.check168 (im : Image) (pk : Pricking) : Bool :=
  im.tensorsOn.all (fun e => e.2.wideK == 0 || (maskBits e.2.slices).all (fun sl =>
    let ps := (pk.stream 0 sl).filter (fun p => p.op = 6 ∧ p.pitch = e.1)
    ps.isEmpty || (match ps with
      | p :: rest => p.wide && rest.all (fun q => !q.wide) && decide (e.2.sideChunks sl (csizeBytes p.portq) ≤ p.arg)
      | [] => true)))

/-- R171: a DELIVER to the heat table names heat entries inside the tensor's range. How many elements the chunk has stands in the chunk
alone (R126), so the first entry is judged (DEDUCED, log 31). -/
def Image.check171 (im : Image) (pk : Pricking) : Bool :=
  pk.pins.all (fun x => !x.2.2.isDeliver 34 ||
    (let m := pk.mdescAt x.2.2.arg
     m.kind == 2 && decide (m.length < (im.policyOf m.base).nS x.2.1)))

/-- R177: allotments that may not be 0. -/
def Image.check177 (im : Image) (pk : Pricking) : Bool :=
  pk.head.aSlice.all (· != 0) && (List.range 24).all (fun k =>
    pk.head.sta k != 0 || im.pins.all (fun x => !(x.2.2.op == 14 && x.2.2.portq == k)))

/-- R180: hop budgets. -/
def Pricking.check180 (pk : Pricking) : Bool :=
  let h := pk.head
  [h.hN, h.hXY, h.hAux].all (fun x => decide (2 * x + 8 ≤ 699)) && decide (2 * h.hW + 8 ≤ 748)

/-- δ of R178: 16 ticks where a path has a carriage link. -/
def Image.delta (im : Image) (r : Pitch) : Nat :=
  if r.axis = 4 ∨ ((r.kind = 2 ∨ r.kind = 3) ∧ ((im.group r.group).axis 4).spans) then 16 else 2

/-- R182: guard bands. -/
def Image.check182 (im : Image) (pk : Pricking) : Bool :=
  pk.pitches.all (fun r => r.chunks == 0 || decide (3 * r.hops * (2 * pk.head.hop r.axis + 8) + im.delta r ≤ r.guard))

/-- A port of the class that an axis uses, for W_p. -/
def axisPort (axis : Nat) : Nat := if axis = 0 then 36 else if axis = 4 then 32 else 0

/-- R184: prusik cutoffs. -/
def Pricking.check184 (pk : Pricking) : Bool :=
  pk.pitches.all (fun r => r.prusikCount == 0 ||
    decide (r.cutoff + 64 + 2 * wireTicks (axisPort r.axis) (r.wireBytes r.coded) ≤ r.prusikCutoff))

/-- The windows of a section: record and interval (R187). -/
def Pricking.openWindows (pk : Pricking) (sec : Nat) : List (OpenRec × Nat × Nat) :=
  ((pk.stream sec 9).filter (fun p => p.op = 15)).map (fun p =>
    let o := nth pk.opens p.pitch default
    (o, p.tick, p.tick + o.length))

/-- The ports that a record declares. -/
def OpenRec.ports (o : OpenRec) : List Nat :=
  (List.range 36).filter (fun p => if p < 32 then flag o.portsLo p else flag o.portsHi (p - 32))

/-- A static pin uses a resource that a window declares: a port, staging units, memory movers or coders (R188). -/
def Image.inWindow (im : Image) (pk : Pricking) (st : Nat) (p : Pin) (w : OpenRec × Nat × Nat) : Bool :=
  let lat := (p.tick, p.tick + pinLatency im pk st p)
  let mine := decide (st < 8) && flag w.1.slices st
  (match pinWindow im pk st p with
   | some i => w.1.ports.contains p.portq && meets (p.tick + i.1 - 6, p.tick + i.2 + retryExt pk.head p.portq) w.2
   | none => false)
    || (mine && (pinUnits im pk st p).any (fun u => meets (u.1, u.1 + u.2) (w.1.bufFirst, w.1.bufFirst + w.1.bufCount))
        && decide (w.2.1 ≤ p.tick ∧ p.tick < w.2.2))
    || (mine && meets lat w.2 && ((pinRes st p).any (fun x =>
        (x == .movers st && w.1.memBytes != 0) || ((x == .encoder st || x == .decoder st) && w.1.coderTicks != 0))))

/-- R188. -/
def Image.check188 (im : Image) (pk : Pricking) : Bool :=
  (List.range 3).all (fun sec =>
    let ws := pk.openWindows sec
    ws.all (fun w => pk.pins.all (fun x => x.1 != sec || !im.inWindow pk x.2.1 x.2.2 w))
      && pairwiseOk (fun (a b : OpenRec × Nat × Nat) => !meets a.2 b.2 || a.1.slices &&& b.1.slices == 0) ws)

/-- R197: the head of a variant, 1,024 pins in format 2 (R198). -/
def Pricking.check197 (pk : Pricking) : Bool :=
  (List.range 10).all (fun st => decide (((pk.stream 0 st).filter (fun p => p.tick < 512)).length ≤ (if pk.head.format = 2 then 1024 else 2048)))

/-- R296: allotment under a memory-sourced SEND. -/
def Pricking.check296 (pk : Pricking) : Bool :=
  pk.pins.all (fun x => !x.2.2.isMemSend || decide ((if 32 ≤ x.2.2.portq ∧ x.2.2.portq ≤ 35 then 700 else 750) ≤ pk.head.slc x.2.1))

/-- R321: token windows on native ports. -/
def Image.check321 (im : Image) (pk : Pricking) : Bool :=
  pk.pins.all (fun x =>
    let p := x.2.2
    !((p.op == 13 || (p.op == 12 && p.arg % 4 != 0)) && decide (p.portq < 32)) || decide (48 ≤ pinWire im pk p))

/-! ### Coding (R147, R205, R218) -/

/-- R147: a broadcast of a code table: its root's source is the table, and its ROOT is the context's. -/
def Image.check147 (im : Image) (coord : Nat) (pk : Pricking) : Bool :=
  pk.pins.all (fun x =>
    let st := x.2.1
    let p := x.2.2
    let r := pk.pitchAt p.pitch
    let ctxs := (nth im.coding st default).ctxs.filter (fun c => !c.surveyed)
    if r.kind ≠ 4 then true
    else if p.isSend 0 ∧ (im.group r.group).rank coord = r.root then ctxs.any (fun c => c.tbuf == p.buf && c.root == r.root)
    else if p.isDeliver 32 then
      (let m := pk.mdescAt p.arg
       match ctxs.find? (fun c => c.banksBase + 4096 = m.base) with
       | some c => c.root == r.root
       | none => true)
    else true)

/-- R205: chunks that are never coded. -/
def Pricking.check205 (pk : Pricking) : Bool :=
  (indexed pk.pitches).all (fun e => !e.2.coded ||
    (e.2.kind != 2 && e.2.kind != 3 && e.2.kind != 4 && !pk.pins.any (fun x => x.2.2.isMemSend && x.2.2.pitch == e.1)))

/-- The split of a wire format (Table 6-2). -/
def formatSplit (f : Nat) : Nat :=
  if f = 2 ∨ f = 8 then 1 else if f = 1 ∨ f = 9 then 2 else if f = 11 then 3 else 0

/-- R218. -/
def Image.check218 (im : Image) (coord : Nat) (pk : Pricking) : Bool :=
  let coders := pk.pins.filter (fun x => (pk.pitchAt x.2.2.pitch).coded && [1, 2, 9, 10, 12, 13].contains x.2.2.op && !x.2.2.aux)
  (indexed pk.pitches).all (fun e => !e.2.coded || (List.range 8).any (fun sl => (im.pitchCtx sl e.1).isSome))
    && coders.all (fun (x : Nat × Nat × Pin) => match im.pitchCtx x.2.1 x.2.2.pitch with
        | none => !(x.2.2.op == 9 || x.2.2.op == 10 || x.2.2.coded)
        | some i =>
          let r := pk.pitchAt x.2.2.pitch
          !(r.kind == 0) || (im.ctxEnt x.2.1 i).split == formatSplit r.format)
    && pk.pins.all (fun (x : Nat × Nat × Pin) =>
        (x.2.2.op != 8 || flag ((nth im.coding x.2.1 default).objectMap.get 0 x.2.2.pitch) 7)
          && !(x.2.2.op == 2 && x.2.2.coded && decide ((pk.pitchAt x.2.2.pitch).csize > 6)))
    && (im.contextsUsed.filter (fun c => !c.surveyed)).all (fun c => (im.group c.group).has coord)

/-! ### Token exchange (R239, R266) -/

/-- R239. -/
def Image.check239 (im : Image) (coord : Nat) : Bool :=
  let toks := im.pins.filter (fun x => x.2.2.op = 12 ∨ x.2.2.op = 13)
  (im.routed.layers.filter (·.2.valid)).all (fun (e : Nat × Routed) =>
    let d := e.2
    let g := im.group d.group
    let mine := toks.filter (fun x => x.2.2.layer = e.1)
    decide (1 ≤ d.vfmt ∧ d.vfmt ≤ 5) && decide (1 ≤ d.x ∧ d.x ≤ 1024) && d.sfmt < 2 && !(d.ids && d.sfmt != 0) && d.cap != 0 && d.resv == 0
      && [2, 3, 4].all (fun a => !(g.axis a).spans) && d.x % g.size == 0 && !(decide (4 ≤ d.vfmt) && d.h % 32 != 0) && d.slices != 0
      && (im.group d.vgroup).has coord
      && mine.all (fun x => x.2.2.op != 12 || x.2.2.buf == (match x.2.2.arg % 4 with | 0 => d.sbuf | 1 => d.vbuf | _ => d.bbuf))
      && !(mine.any (fun x => x.1 == 0) && mine.any (fun x => x.1 == 1)))

/-- R266: expert tensors are of the routed class, and this engine holds their experts. -/
def Image.check266 (im : Image) (coord : Nat) : Bool :=
  im.routed.experts.all (fun e =>
    let d := im.layerOf e.2.1
    (im.policyOf e.1).routed && d.valid && decide (e.2.2 < d.x) && im.expertRank d e.2.2 == (im.group d.group).rank coord)

/-! ### The optimiser (R276, R281, R285) -/

/-- binary32: finite, and not negative. -/
def f32NonNeg (x : Nat) : Bool := decide (x < 0x7F800000) || x == 0x80000000

/-- The ranges of an optimiser class (Table 8-2). -/
def OptClass.good (c : OptClass) : Bool :=
  let below1 := fun (x : Nat) => f32NonNeg x && (decide (x < 0x3F800000) || x == 0x80000000)
  c.mode < 2 && below1 c.beta1 && below1 c.beta2 && decide (0 < c.eps ∧ c.eps < 0x7F800000) && f32NonNeg c.lambda

/-- Bytes of a parameter in storage (Table 8-3). -/
def OptEnt.paramBytes (e : OptEnt) : Nat := if e.form = 1 then 2 else 4

/-- The extents of an entry. -/
def OptimSec.extentsOf (o : OptimSec) (e : OptEnt) : List Extent := (o.extents.drop e.extFirst).take e.extCount

/-- A range lies in the stack of a station. -/
def Image.inStack (im : Image) (k base len : Nat) : Bool :=
  let s := nth im.config.stackMap k (0, 0)
  decide (s.1 ≤ base ∧ base + len ≤ s.1 + s.2)

/-- An optimiser entry (R276). -/
def Image.optEntGood (im : Image) (t : Nat) (e : OptEnt) : Bool :=
  let xs := im.optim.extentsOf e
  e.form < 3 && e.lazy < 3 && decide (1 ≤ e.extCount ∧ e.extCount ≤ 24) && xs.length == e.extCount
    && (match im.optim.classes.find e.cls with | some c => c.good | none => false)
    && xs.all (fun x => x.station < 24 && im.inStack x.station x.pbase (x.count * 1024 * e.paramBytes)
        && im.inStack x.station x.mbase (2 * 1056 * x.count))
    && pairwiseOk (fun (a b : Extent) => !meets (a.first, a.first + a.count) (b.first, b.first + b.count)) xs
    && (e.lazy == 0 || (im.routed.experts.find t).isSome)

/-- An UPDATE pin against the optimiser's tables (R276). -/
def Image.updateGood (im : Image) (p : Pin) : Bool :=
  let e := im.optim.entries.get default p.pitch
  p.arg != 0 && decide (8192 * p.buf + 4096 * p.arg ≤ 2 ^ 21) && e.valid
    && (im.optim.extentsOf e).any (fun x => x.station == p.portq && decide (x.first ≤ p.chunk ∧ p.chunk + p.arg ≤ x.first + x.count))

/-- R276. -/
def Image.check276 (im : Image) : Bool :=
  decide (1 ≤ im.optim.spikeH ∧ im.optim.spikeH ≤ 16) && decide (1 ≤ im.optim.schedLen ∧ im.optim.schedLen ≤ 2 ^ 24)
    && im.optim.norms.all (fun e => !e.valid || (e.type < 3 && decide (1 ≤ e.count ∧ e.count ≤ 25)))
    && (im.optim.entries.filter (·.2.valid)).all (fun e => im.optEntGood e.1 e.2)
    && im.pins.all (fun x => x.2.2.op != 14 || im.updateGood x.2.2)

/-- R281: clip entries. -/
def Image.check281 (im : Image) : Bool :=
  let valid := im.optim.norms.filter (·.valid)
  im.clips.all (fun e => e.type == 0) && (valid.map (·.pitch)).eraseDups.length == valid.length
    && pairwiseOk (fun (a b : NormEnt) => !meets (a.first, a.first + a.count) (b.first, b.first + b.count)) im.clips

/-- R285: without a clip picot, TAU, KAPPA and SKIP_NF are 0. -/
def Image.check285 (im : Image) (pk : Pricking) : Bool :=
  let clip := pk.pins.any (fun x => x.2.2.op == 11 && im.clips.any (fun e => e.pitch == x.2.2.pitch))
  clip || (im.optim.tau == 0 && im.optim.kappa == 0 && !im.optim.skipNf)

/-! ### Areas, payload map, seal (R406, R501, R503) -/

/-- R501: the SELECT pins of a tensor in a slice stream name one main area. -/
def Pricking.check501 (pk : Pricking) : Bool :=
  (List.range 8).all (fun sl =>
    let ps := (pk.stream 0 sl).filter (fun p => p.op = 6 ∧ !p.wide)
    pairwiseOk (fun (a b : Pin) => a.pitch != b.pitch || (a.buf == b.buf && a.portq == b.portq)) ps)

/-- The chunks of scatter pitches that entries cover are those of the pitch, each once, in order. -/
def coversRun (chunks at_ : Nat) : List PMapEnt → Bool
  | [] => at_ == chunks
  | e :: es => e.first == at_ && e.count != 0 && coversRun chunks (at_ + e.count) es

/-- R503. -/
def Image.check503 (im : Image) (pk : Pricking) : Bool :=
  (pk.pmap.zip (pk.pmap.drop 1)).all (fun x => decide (x.1.pitch < x.2.pitch ∨ (x.1.pitch = x.2.pitch ∧ x.1.first < x.2.first)))
    && (indexed pk.pitches).all (fun e => e.2.kind != 0 || coversRun e.2.chunks 0 (pk.pmap.filter (fun m => m.pitch = e.1)))
    && pk.pmap.all (fun m =>
        let pol := im.policyOf m.tensor
        m.resv == 0 && m.set < 3 && decide (m.pitch < pk.pitches.length) && (pk.pitchAt m.pitch).kind == 0
          && (pol.mode != 0 || pol.priv) && (if m.set = 2 then m.unit == 0 else decide (m.unit < pol.units)))

/-- When the entries of a REDUCE are final: its slots, and a second entry of each where the pitch carries (R156, R406). -/
def State.sealEntries (s : State) (pk : Pricking) (x : Nat × Pin) : List (Nat × Nat) :=
  let p := x.2
  let r := pk.pitchAt p.pitch
  let open_ := maxNat (((pk.stream 0 x.1).filter (fun q => q.op = 2 ∧ q.pitch = p.pitch ∧ q.chunk = p.chunk)).map (·.tick))
  (s.slotSources r p.chunk (pk.opensOwn x.1 p)).flatMap (fun rank =>
    let k := 2 * slotKey p.pitch p.chunk rank
    let final := if (pk.prusikAt r p.chunk rank).isSome then r.prusikCutoff else p.tick
    (k, final) :: (if r.carry then [(k + 1, open_)] else []))

/-- The tick at which the last entry is absorbed: static order, six in a tick, none before the tick after it is final (R406). -/
def absorbFrom (t n : Nat) : List (Nat × Nat) → Nat
  | [] => t
  | e :: es => if e.2 + 1 > t then absorbFrom (e.2 + 1) 1 es else if n < 6 then absorbFrom t (n + 1) es else absorbFrom (t + 1) 1 es

/-- R406: the last entry is absorbed by the SEAL's tick. -/
def State.check406 (s : State) (pk : Pricking) : Bool :=
  let reduces := (List.range 8).flatMap (fun st => ((pk.stream 0 st).filter (fun p => p.op = 3)).map (fun p => (st, p)))
  let es := (reduces.flatMap (s.sealEntries pk)).mergeSort (fun a b => decide (a.1 ≤ b.1))
  match (pk.stream 0 9).find? (fun p => p.op = 17) with
  | some sl => decide (absorbFrom 0 0 es ≤ sl.tick)
  | none => false

/-! ### All checks -/

/-- R195: what all prickings share. -/
def Image.check195 (im : Image) : Bool :=
  let key := fun (pk : Pricking) => (pk.head.format, pk.head.lStep, pk.head.lEval, pk.head.nEval, pk.head.nCkpt, pk.head.lCkpt)
  im.prickings.length == 9 && im.prickings.all (fun pk => key pk == key (im.pricking 0))

/-- R198: the format that the stepping loads. -/
def Image.check198 (im : Image) : Bool := im.prickings.all (fun pk => pk.head.format == (if Config.stepping = 1 then 2 else 3))

/-- The checks of one pricking, by the labels of their statements. -/
def State.pricChecks (s : State) (v : Nat) (pk : Pricking) : List (Nat × Bool) :=
  let im := s.image
  let c := s.coord
  [(200, im.check200 pk), (36, im.check36 pk), (168, im.check168 pk), (171, im.check171 pk), (177, im.check177 pk), (180, pk.check180),
   (182, im.check182 pk), (184, pk.check184), (188, im.check188 pk), (197, v == 0 || pk.check197), (147, im.check147 c pk),
   (205, pk.check205), (218, im.check218 c pk), (285, im.check285 pk), (296, pk.check296), (321, im.check321 pk), (501, pk.check501),
   (503, im.check503 pk), (406, s.check406 pk)]

/-- Every check, in the order in which the model makes them (log 31). -/
def State.imageChecks (s : State) : List (Nat × Bool) :=
  let im := s.image
  let c := s.coord
  [(198, im.check198), (195, im.check195), (30, im.check30), (500, im.check500 s.mgmt.coordReg), (387, im.check387), (84, im.check84),
   (119, im.check119 c), (49, im.check49), (105, im.check105), (239, im.check239 c), (266, im.check266 c), (276, im.check276),
   (281, im.check281)] ++ (indexed im.prickings).flatMap (fun e => s.pricChecks e.1 e.2)

/-- The label of the first check that fails; 0 where none does (Table 14-13). -/
def State.failingCheck (s : State) : Nat := ((s.imageChecks.find? (fun x => !x.2)).map (·.1)).getD 0

end Sys2Proof.Machine
end

