-- ==== Sys2Proof/Machine/Startup.lean ====
section
/-! DEFINITION. Start-up and supply (R429 to R433, R452 to R456): loading an image, the supply monitor, and the resets of Table 12-13. -/

namespace Sys2Proof.Machine

/-! ### Decoding a copy (Table 12-7, phase 5) -/

/-- The conformance word (R404, Table 11-6). -/
def conformanceWord (grade format : Nat) : Nat :=
  let a1 := decide (Config.stepping = 1)
  format % 2 ^ 32 + 1 * 2 ^ 32 + 0x0F * 2 ^ 40 + (if a1 then 6 else 7) * 2 ^ 48 + grade % 16 * 2 ^ 56 + Config.stepping % 16 * 2 ^ 60

/-- The bytes of the section of a type and index; none where the copy has none. -/
def State.sectionOf (s : State) (b : Bool) (type index : Nat) : Option (List Byte) :=
  ((headSections (s.copyHead b)).find? (fun x => x.type = type ∧ x.index = index)).map (s.sectionRead b)

/-- The nine prickings with their byte strings, or none where an object cannot be decoded or breaks R505. -/
def State.readPrickings (s : State) (b : Bool) : Option (List (Pricking × List Byte)) :=
  (List.range 9).mapM (fun i =>
    match (s.sectionOf b 2 i).bind readObject with
    | none => none
    | some u => (Pricking.parse u).map (fun pk => (pk, u)))

/-- The entries of a table that are not all zero, by index. -/
def tableEntries {α : Type} (f : List Byte → α) (k : Nat) (bs : List Byte) : Tab α :=
  ((indexed (pieces k bs)).filter (fun e => !allZero e.2)).map (fun e => (e.1, f e.2))

/-- The image of a copy, or the label of the statement that its layout breaks (log 31). -/
def State.decodeImage (s : State) (b : Bool) : Except Nat Image :=
  let sect := fun type index => (s.sectionOf b type index).getD []
  match Config.readConfig (sect 1 0), s.readPrickings b, Config.readOptim (sect 7 0) with
  | none, _, _ => .error 422
  | _, none, _ => .error 505
  | _, _, none => .error 276
  | some cfg, some ps, some opt =>
    let codings := (List.range 8).map (fun i => match s.sectionOf b 5 i with | none => some default | some x => Config.readCoding x)
    let routed := match s.sectionOf b 6 0 with | none => some default | some x => Config.readRouted x
    if codings.any (·.isNone) then .error 218
    else if routed.isNone then .error 239
    else
      .ok
        { seq := s.copySeq b, copyB := b, config := cfg, prickings := ps.map (·.1), phash := ps.map (fun p => sha256 p.2)
          policy := tableEntries Policy.parse 32 (sect 3 0)
          groups := (pieces 8 ((sect 4 0).take 2048)).map GroupDesc.parse, groupBytes := (sect 4 0).take 2048
          coding := codings.map (·.getD default), routed := routed.getD default, optim := opt
          sched := (pieces 4 (sect 8 0)).map leNat, mgtfw := (s.sectionOf b 9 0).isSome
          conf := conformanceWord ((s.power.birth.map (·.grade)).getD 0) ((ps.head?.map (·.1.head.format)).getD 0) }

/-- The image of a copy once it has passed phases 5 and 6: the image, or the failing check. -/
def State.checkedImage (s : State) (b : Bool) : Except Nat Image :=
  match s.decodeImage b with
  | .error n => .error n
  | .ok im =>
    let t : State := { s with img := { s.img with run := some im }, mgmt := { s.mgmt with coord := s.mgmt.coordReg % 2 ^ 16 } }
    if t.failingCheck = 0 then .ok im else .error t.failingCheck

/-! ### Loading (R429, R430) -/

/-- What a load starts from: no image, groups IDLE, anchors FREE, ground queues as the image gives them (R120, R350, R373). -/
def State.clearForLoad (s : State) : State :=
  let s := s.clearData.dropRequests
  { s with
    img := { s.img with
      run := none, previous := none, prepared := none, prep := 0, rethread := 0, loaded := false, seq := 0, launched := false }
    groups := [], anc := Anchors.reset, gq := []
    slices := s.slices.map (fun sl => { sl with ctxs := [] })
    saved := none }

/-- RW-L fields that CONFIG names are written (R484). -/
def State.writeLocked (s : State) (fs : List (Nat × Nat × Nat)) : State :=
  fs.foldl (fun (s : State) (f : Nat × Nat × Nat) =>
    let old := s.reg f.1
    s.setReg f.1 ((old ^^^ (old &&& f.2.1)) + (f.2.2 &&& f.2.1))) s

/-- Phase 7: the image is ready, its tables, defaults and coordinate are in place, and the engine enters READY. -/
def State.installImage (s : State) (im : Image) : State :=
  let s := (s.clearForLoad.placeTables im (fun _ _ => true)).writeLocked im.config.rwl
  { s with
    img := { s.img with run := some im, loaded := true, loadedB := im.copyB, seq := im.seq }
    mgmt := { s.mgmt with coord := s.mgmt.coordReg % 2 ^ 16 }
    brides := (s.brides.zip im.config.brides).map (fun (x : Bride × Bool × Nat) => { x.1 with openEn := x.2.1, atCount := x.2.2 })
    gq := im.config.queues.map (fun (e : Nat × List Nat) => (e.1, { GroundQ.reset with desc := e.2 }))
    seq := { s.seq with variant := 0 }
    power := { s.power with st := .ready, phase := 0, cause := 0, check := 0 } }

/-- HELD by the loader: the image is not kept (Table 12-8). -/
def State.loadFailed (s : State) (cause check copy : Nat) : State := s.clearForLoad.holdImage cause check copy

/-- Phases 4 to 7 (Table 12-7). The owner key enrolled since the last load applies (R427). -/
def State.loadNow (s : State) : State :=
  let s : State := { s with power := { s.power with key := s.readKey, phase := 4 } }
  match s.chooseCopy s.power.loadCopy with
  | .held cause b => s.loadFailed cause 0 (ofBool b)
  | .copy b invalid =>
    let s := invalid.foldl (fun s x => s.raise 0x14 (source 0 3) 0 6 (ofBool x)) s
    match s.checkedImage b with
    | .error n => s.loadFailed 6 n (ofBool b)
    | .ok im => s.installImage im

/-- Phase 1: the store, the birth record and the key records (Table 12-7). -/
def State.phaseOne (s : State) : State :=
  { s with power := { s.power with
      phase1 := true, storeMode := storeModeNow, birth := if storeGood then s.readBirth else none
      key := if storeGood then s.readKey else none } }

/-- LOADING is entered for copy `named` (0 AUTO, 1 A, 2 B). A failure of phase 1 holds the engine; the load runs once HBM is ready. -/
def State.enterLoading (s : State) (named : Nat) : State :=
  let s := if s.power.phase1 ∧ s.power.birth.isSome then s else s.phaseOne
  let s := s.clearForLoad
  let s : State := { s with
    power := { s.power with st := .loading, phase := 2, cause := 0, check := 0, loadCopy := named }
    seq := { s.seq with variant := 0 } }
  if s.power.storeMode = 3 then s.loadFailed 4 0 0
  else if s.power.birth.isNone then s.loadFailed 3 0 0
  else if s.power.hbmReady then s.loadNow
  else s

/-- A reading at a die's sense point, and the lowest since the last read of it. -/
def Power.reading (p : Power) (die mv : Nat) (warn : Bool) : Power :=
  let low := nth p.low die 0
  { p with
    now := p.now.set die mv, low := p.low.set die (if low = 0 then mv else Nat.min low mv), warn := p.warn.set die warn }

/-- The readings of the eight dies once the rail is up: above 0.575 V, and otherwise free (log 4). -/
def State.freshReadings (s : State) : State :=
  (List.range 8).foldl (fun (s : State) die =>
    let r := s.fresh
    { r.2 with power := r.2.power.reading die (575 + r.1 % 3521) (nth r.2.power.warn die false) }) s

/-- The row CORE_RAIL_UP (R433): OFF to LOADING; in a wake, the rail that the engine asked for is there. -/
def State.railUp (s : State) : State :=
  if !s.power.standby ∨ s.power.rail then s
  else
    let t := State.freshReadings { s with power := { s.power with rail := true } }
    if s.power.st = .off then t.enterLoading 0
    else if s.power.st = .bivouac ∧ s.req.waking then t
    else s

/-- The row CORE_RAIL_UP. -/
def execCoreRailUp (s : State) : Host.Outcome State Fault Refusal := answer s s.railUp

/-- The row HBM_READY (R430). -/
def execHbmReady (s : State) : Host.Outcome State Fault Refusal :=
  answer s (if !s.power.standby then s
    else
      let t : State := { s with power := { s.power with hbmReady := true } }
      if s.power.st = .loading then t.loadNow else t)

/-- The row LOAD_PHASE_TIMEOUT (Table 12-7): phase 1 before LOADING, phases 2 and 3 in it; the other phases have no bound. -/
def State.phaseTimeout (s : State) (phase : Nat) : State :=
  if !s.power.standby then s
  else if phase = 1 ∧ !s.power.phase1 ∧ s.power.st = .off then
    { s with power := { s.power with phase1 := true, storeMode := 3, birth := none, key := none } }
  else if s.power.st ≠ .loading then s
  else if phase = 2 then s.loadFailed 3 0 0
  else if phase = 3 then s.loadFailed 5 0 0
  else s

/-- The row LOAD_PHASE_TIMEOUT. -/
def execLoadPhaseTimeout (phase : Nat) (s : State) : Host.Outcome State Fault Refusal := answer s (s.phaseTimeout phase)

/-! ### Standby supply (R454, R456) -/

/-- Everything at its reset value but what the pattern store holds, and the model's own fields. -/
def State.powerReset (s : State) : State := { State.reset with store := s.store, free := s.free }

/-- The row STANDBY_POWER_ON: the reset of Table 12-13, and phase 1 from mask ROM. -/
def execStandbyPowerOn (s : State) : Host.Outcome State Fault Refusal := answer s s.powerReset.phaseOne

/-- The row STANDBY_SUPPLY_LOSS: every domain is removed, and the brides become CLOSED-PASSIVE. -/
def State.supplyLoss (s : State) : State :=
  let t := s.powerReset
  { t with
    power := { t.power with standby := false }
    brides := t.brides.map (fun (b : Bride) => { b with st := .closedPassive }) }

/-- The row STANDBY_SUPPLY_LOSS. -/
def execStandbySupplyLoss (s : State) : Host.Outcome State Fault Refusal := answer s s.supplyLoss

/-! ### Core reset (R456) -/

/-- A staging ends aborted: the header sector is erased if its programming has begun (R437). -/
def State.abortStaging (s : State) : State :=
  let g := s.img.staging
  if g.st ≠ 1 then s
  else
    let s := if g.header then s.storeErase (copyBase g.toB) 4096 else s
    State.irq { s with img := { s.img with staging := { g with st := 4, header := false } } } 5

/-- Core reset (Table 12-13): slices, stations, movers and control plane; a host staging aborts. Owner, fences, cairn log, belay
receiver, bride control and management's staging are kept. -/
def State.coreReset (s : State) : State :=
  if s.power.st = .off then s
  else
    let s := if s.img.staging.byMgmt then s else s.abortStaging
    let s := s.clearData.dropRequests
    { s with
      power := { s.power with st := .off, prior := .off, rail := false, hbmReady := false, phase := 0, cause := 0, check := 0 }
      req := { s.req with waking := false, wakeOn := false, wake := 0 }
      img := { s.img with prepared := none, prep := 0, rethread := if s.img.rethread = 1 then 0 else s.img.rethread, launched := false }
      slices := s.slices.map (fun (sl : Slice) => { Slice.reset with fenced := sl.fenced, carry := sl.carry })
      stations := []
      groups := [], anc := Anchors.reset, gq := []
      regs := s.regs.filter (fun e => !coreRegister e.1)
      counters := []
      seq := { Seq.reset with variant := 0 }
      srec := StepRec.reset
      brides := s.brides.map (fun (b : Bride) => { b with st := .closedActive })
      ports := s.ports.map (fun (p : Port) => { p with disable := false, enableDue := false })
      out := { s.out with flagPop := [], flagOvf := false, irqPop := [], irqOvf := false }
      saved := none }

/-- The row CORE_RESET: a package reset. -/
def execCoreReset (s : State) : Host.Outcome State Fault Refusal := answer s (if s.power.standby then s.coreReset else s)

/-- The row GLB_CTL_RESET_CORE: open to management (Table 14-5). -/
def execGlbCtlResetCore (m : Master) (s : State) : Host.Outcome State Fault Refusal := answer s (if s.may m true then s.coreReset else s)

/-! ### Management restart (R444, R456) -/

/-- The management controller and Igvaelo restart from mask ROM. -/
def State.restartMgmt (s : State) : State :=
  { s with mgmt := { s.mgmt with
      da := none, mwl := 69, mrl := 69, events := 0, rstAction := 0, eid := 0, tid := 0
      receiver := 0 } }

/-- The row MANAGEMENT_RESTART. -/
def execManagementRestart (s : State) : Host.Outcome State Fault Refusal := answer s (if s.power.standby then s.restartMgmt else s)

/-- The row FIRMWARE_WATCHDOG. -/
def execFirmwareWatchdog (s : State) : Host.Outcome State Fault Refusal := answer s (if s.power.standby then s.restartMgmt else s)

/-- The row GLB_CTL_MGT_RESTART: once the management heartbeat has been missing for 100 ms (R444). -/
def execGlbCtlMgtRestart (m : Master) (s : State) : Host.Outcome State Fault Refusal :=
  answer s (if s.may m false && s.mgmtMissing then s.restartMgmt else s)

/-! ### The supply monitor (R452 to R454) -/

/-- The monitor reports: the standby supply is there and the core rail is not off on purpose. -/
def State.monitors (s : State) : Bool := s.power.standby && s.power.rail

/-- A suspect window opens: it marks the running step, unless that has issued its SEAL, in which case it marks the next (R37, R453). -/
def State.openSuspect (s : State) (die mv : Nat) : State :=
  let quiet := s.req.entering.isSome || s.power.st == .bivouac
  let inStep := s.isRunning && s.seq.running && !quiet
  let index := if s.srec.step = s.seq.step then s.count - s.seq.origin else 0
  let s := if inStep then s.dev ⟨0x29, 0, die, 0, index, 0, 0⟩ else s
  { s with power := { s.power with
      suspects := s.power.suspects ++ [⟨die, s.count, mv, !quiet, if inStep then s.srec.step + 1 else 0⟩] } }

/-- CORE_RAIL_WARNING_DIP: below 0.565 V, not below 0.54 V. -/
def State.railDip (s : State) (die mv : Nat) : State :=
  if !s.monitors ∨ die ≥ 8 ∨ mv < 540 ∨ mv ≥ 565 then s
  else
    let s : State := { s with power := s.power.reading die mv true }
    if s.power.suspects.any (fun w => w.die == die) then
      { s with power := { s.power with
          suspects := s.power.suspects.map (fun w => if w.die = die then { w with low := Nat.min w.low mv } else w) } }
    else s.openSuspect die mv

/-- The row CORE_RAIL_WARNING_DIP. -/
def execCoreRailWarningDip (die mv : Nat) (s : State) : Host.Outcome State Fault Refusal := answer s (s.railDip die mv)

/-- The window of a die closes: its SUPPLY-WARN cairn gives its lowest reading and its length (R453). -/
def State.closeSuspect (s : State) (die : Nat) : State :=
  match s.power.suspects.find? (fun w => w.die = die) with
  | none => s
  | some w =>
    let s := s.raise 0x11 (source 1 die) 0 w.low (s.count - w.start)
    { s with power := { s.power with suspects := s.power.suspects.erase w } }

/-- SUPPLY_WARNING_CLEAR: the rail is at or above 0.575 V; the reading itself is free (log 4). -/
def State.supplyClear (s : State) (die : Nat) : State :=
  if !s.power.standby ∨ die ≥ 8 ∨ nth s.power.warn die false = false then s
  else
    let r := s.fresh
    let s := r.2.closeSuspect die
    { s with power := s.power.reading die (575 + r.1 % 3521) false }

/-- The row SUPPLY_WARNING_CLEAR. -/
def execSupplyWarningClear (die : Nat) (s : State) : Host.Outcome State Fault Refusal := answer s (s.supplyClear die)

/-- CORE_RAIL_RESET_LEVEL: a SUPPLY-WARN cairn "reset", and a core reset. -/
def State.railReset (s : State) (die mv : Nat) : State :=
  if !s.monitors ∨ die ≥ 8 ∨ mv ≥ 540 then s
  else
    let w := s.power.suspects.find? (fun w => w.die = die)
    let low := match w with | some w => Nat.min w.low mv | none => mv
    let len := match w with | some w => s.count - w.start | none => 0
    let s := s.raise 0x11 (source 1 die) 0xC low len
    let s : State := { s with power := { s.power.reading die mv true with suspects := s.power.suspects.filter (fun x => x.die ≠ die) } }
    s.coreReset

/-- The row CORE_RAIL_RESET_LEVEL. -/
def execCoreRailResetLevel (die mv : Nat) (s : State) : Host.Outcome State Fault Refusal := answer s (s.railReset die mv)

/-! ### A wake that fails (R451) -/

/-- The die whose reading is lowest, the first of them. -/
def Power.lowestDie (p : Power) : Nat :=
  (List.range 8).foldl (fun d i => if nth p.now i 0 < nth p.now d 0 then i else d) 0

/-- WAKE_FAILED: the rail is not above 0.565 V by w + 20,000. -/
def State.wakeFailed (s : State) : State :=
  if s.power.st = .bivouac ∧ s.req.waking ∧ !s.power.rail ∧ s.req.wakeAt + 20000 ≤ s.count then
    let d := s.power.lowestDie
    (s.raise 0x11 (source 1 d) 0xB (nth s.power.now d 0) 0).coreReset
  else s

/-- The row WAKE_FAILED. -/
def execWakeFailed (s : State) : Host.Outcome State Fault Refusal := answer s s.wakeFailed

end Sys2Proof.Machine
end

