-- ==== Sys2Proof/Machine/Staging.lean ====
section
/-! DEFINITION. Staging (R435 to R437), preparation and re-thread (R438, R439), LOAD and RECOVER (R432), key enrolment (R427) and STATUS
(R448): the image registers' actions and the Igvaelo commands that share them. Igvaelo answers with the codes of R448: 0 SUCCESS,
1 REFUSED, 2 BUSY, 3 INVALID, 4 NOT-OWNER, 5 UNAVAILABLE. -/

namespace Sys2Proof.Machine

/-- IMG_STAT.REASON after a refused action (Table 14-16). -/
def State.imgRefuse (s : State) (reason : Nat) : State := { s with img := { s.img with reason := reason } }

/-- A staging runs. -/
def State.stages (s : State) : Bool := s.img.staging.st == 1

/-- The target copy: the one that is not the loaded image, copy B where none is loaded (R435). True is B. -/
def State.stageTarget (s : State) : Bool := if s.img.loaded then !s.img.loadedB else true

/-! ### Staging (R435, R436) -/

/-- A staging begins: every sector up to the new copy's commit marker is erased (step 1 of R436). -/
def State.beginStaging (s : State) (byMgmt : Bool) (len : Nat) : State :=
  let b := s.stageTarget
  let s := s.storeErase (copyBase b) (roundUp len 4096 + 4096)
  { s with img := { s.img with staging := ⟨1, byMgmt, b, len, 0, false⟩, prep := if s.img.prep = 1 then s.img.prep else 0, prepared := none } }

/-- Steps 4 and 5 of R436 on the target copy: the copy is read back and checked as a VALID copy would be, and the commit marker is
programmed; or the header sector is erased, and an IMAGE cairn says that the copy was refused. The flag says which. -/
def State.commitStaging (s : State) : State × Bool :=
  let g := s.img.staging
  let h := s.copyHead g.toB
  let good := headGood h && s.copyChecks g.toB h
  let s :=
    if good then s.storeProgram (copyBase g.toB + 4096 * headUsed h) (commitMarker h)
    else (s.storeErase (copyBase g.toB) 4096).raise 0x14 (source 0 2) 0 6 (ofBool g.toB)
  (State.irq { s with img := { s.img with staging := { g with st := if good then 2 else 3, header := false } } } 5, good)

/-- IMG_CTL.STAGE (R435): steps 1 to 3 of R436 program the copy that the host placed in HBM (log 32). -/
def State.hostStage (s : State) : State :=
  let base := s.reg 0x20010 * 4096
  let len := s.reg 0x20014 * 4096
  let busy := s.stages || s.power.st == .loading
  if busy then s.imgRefuse 6
  else if s.power.st ≠ .ready ∧ s.power.st ≠ .held ∧ s.power.st ≠ .running then s.imgRefuse 1
  else if s.img.loaded ∧ s.hbmNat (base + 8) 8 ≤ s.img.seq then s.imgRefuse 7
  else
    let bytes := (s.hbmRead base (Nat.min len copyRoom))
    let t := s.beginStaging false len
    let c := copyBase t.img.staging.toB
    let t := (t.storeProgram (c + 4096) (bytes.drop 4096)).storeProgram c (bytes.take 4096)
    { t with img := { t.img with staging := { t.img.staging with progress := len, header := true } } }

/-- The row IMG_CTL_STAGE. -/
def execImgCtlStage (m : Master) (s : State) : Host.Outcome State Fault Refusal :=
  answer s (if s.may m false then s.hostStage else s)

/-- STAGING_COMPLETE: a host staging has been programmed. -/
def execStagingComplete (s : State) : Host.Outcome State Fault Refusal :=
  answer s (if s.power.standby && s.stages && !s.img.staging.byMgmt then s.commitStaging.1 else s)

/-- IMG_CTL.ABORT: a staging that the host started (R437). -/
def execImgCtlAbort (m : Master) (s : State) : Host.Outcome State Fault Refusal :=
  answer s (if s.may m false then
    (if !s.stages then s.imgRefuse 1 else if s.img.staging.byMgmt then s.imgRefuse 8 else s.abortStaging) else s)

/-- STAGE-BEGIN: BUSY while a staging or a load runs; INVALID where the copy has no room (R435). -/
def State.stageBegin (s : State) (len : Nat) : State :=
  if s.stages ∨ s.power.st = .loading then s.answerWith [2]
  else if len < 4096 ∨ roundUp len 4096 + 4096 > copyRoom then s.answerWith [3]
  else (s.beginStaging true len).answerWith [0]

/-- The row STAGE_BEGIN. -/
def execStageBegin (length : Nat) (s : State) : Host.Outcome State Fault Refusal :=
  answer s (if s.power.standby then s.stageBegin length else s)

/-- STAGE-DATA: bytes of the target copy, in any order (R435); bytes of its first sector program the header (R436). -/
def State.stageData (s : State) (offset : Nat) (bytes : List Byte) : State :=
  let g := s.img.staging
  if !s.stages ∨ !g.byMgmt then s.answerWith [1]
  else if bytes = [] ∨ bytes.length > 4000 ∨ offset + bytes.length > roundUp g.len 4096 then s.answerWith [3]
  else
    let s := s.storeProgram (copyBase g.toB + offset) bytes
    let g := { g with progress := Nat.min g.len (g.progress + bytes.length), header := g.header || decide (offset < 4096) }
    State.answerWith { s with img := { s.img with staging := g } } [0]

/-- The row STAGE_DATA. -/
def execStageData (offset : Nat) (bytes : List Byte) (s : State) : Host.Outcome State Fault Refusal :=
  answer s (if s.power.standby then s.stageData offset bytes else s)

/-- STAGE-END: steps 4 and 5 of R436; refused where no staging of management runs or SEQ is not above the loaded copy's. -/
def State.stageEnd (s : State) : State :=
  if !s.stages ∨ !s.img.staging.byMgmt ∨ (s.img.loaded ∧ s.copySeq s.img.staging.toB ≤ s.img.seq) then s.answerWith [1]
  else
    let r := s.commitStaging
    r.1.answerWith [if r.2 then 0 else 1]

/-- The row STAGE_END. -/
def execStageEnd (s : State) : Host.Outcome State Fault Refusal := answer s (if s.power.standby then s.stageEnd else s)

/-- STAGE-ABORT: any staging (R437). -/
def execStageAbort (s : State) : Host.Outcome State Fault Refusal :=
  answer s (if s.power.standby then (if s.stages then s.abortStaging.answerWith [0] else s.answerWith [1]) else s)

/-! ### LOAD and RECOVER (R432) -/

/-- Why a LOAD does not load: IMG_STAT.REASON, 0 where it does (Tables 12-9, 12-14, 14-16). -/
def State.loadRefusal (s : State) : Nat :=
  if s.stages then 6 else if s.power.st ≠ .ready ∧ s.power.st ≠ .held then 1 else 0

/-- IMG_CTL.LOAD of copy `c`; the reserved code 3 is taken as AUTO (R13, log 33). -/
def State.ctlLoad (s : State) (c : Nat) : State :=
  if s.loadRefusal = 0 then s.enterLoading (if c = 3 then 0 else c) else s.imgRefuse s.loadRefusal

/-- The row IMG_CTL_LOAD. -/
def execImgCtlLoad (m : Master) (copy : Nat) (s : State) : Host.Outcome State Fault Refusal :=
  answer s (if s.may m false then s.ctlLoad copy else s)

/-- The row LOAD (Table 12-11). -/
def State.igvaeloLoad (s : State) (c : Nat) : State :=
  if s.mgmt.owner ≠ .mgmt then s.answerWith [4]
  else if c > 2 then s.answerWith [3]
  else if s.power.st = .off ∨ s.power.st = .bivouac then s.answerWith [5]
  else if s.loadRefusal = 6 then s.answerWith [2]
  else if s.loadRefusal = 1 then s.answerWith [1]
  else (s.enterLoading c).answerWith [0]

/-- The row LOAD. -/
def execLoad (copy : Nat) (s : State) : Host.Outcome State Fault Refusal := answer s (if s.power.standby then s.igvaeloLoad copy else s)

/-- Why RECOVER has no effect (Table 14-16); without a kept image it is STATE (log 34). -/
def State.recoverRefusal (s : State) : Nat :=
  if s.power.st ≠ .held ∨ s.power.cause < 7 then 1
  else if s.groups.any (fun e => e.2.st = 3) then 9
  else if s.fencedSlices.length ≥ 2 then 0xA
  else if s.belay.st ≠ .locked then 0xB
  else 0

/-- IMG_CTL.RECOVER: HELD to READY with the kept image (R432). -/
def State.recover (s : State) : State :=
  if s.recoverRefusal = 0 then { s with power := { s.power with st := .ready, cause := 0, check := 0 } } else s.imgRefuse s.recoverRefusal

/-- The row IMG_CTL_RECOVER. -/
def execImgCtlRecover (m : Master) (s : State) : Host.Outcome State Fault Refusal := answer s (if s.may m false then s.recover else s)

/-! ### Preparation and re-thread (R438, R439) -/

/-- IMG_CTL.PREPARE: the preparation of the staged copy starts. -/
def State.prepare (s : State) : State :=
  if !s.isRunning ∨ s.img.rethread = 1 then s.imgRefuse 1
  else if s.stages then s.imgRefuse 6
  else if s.img.prep = 1 then s
  else { s with img := { s.img with prep := 1, pcause := 0, prepared := none } }

/-- The row IMG_CTL_PREPARE. -/
def execImgCtlPrepare (m : Master) (s : State) : Host.Outcome State Fault Refusal := answer s (if s.may m false then s.prepare else s)

/-- The prepared image, or the cause that failed: phases 4 to 7 against the staged copy. -/
def State.prepared (s : State) : Except Nat Image :=
  let b := s.stageTarget
  match s.copyClass b with
  | .valid => (match s.checkedImage b with | .ok im => .ok im | .error _ => .error 6)
  | .halfWritten => .error 2
  | _ => .error 1

/-- PREPARATION_COMPLETE. -/
def State.preparationDone (s : State) : State :=
  if s.img.prep ≠ 1 then s
  else
    match s.prepared with
    | .ok im => State.irq { s with img := { s.img with prep := 2, prepared := some im, pcause := 0 } } 5
    | .error c => State.irq { s with img := { s.img with prep := 3, prepared := none, pcause := c } } 5

/-- The row PREPARATION_COMPLETE. -/
def execPreparationComplete (s : State) : Host.Outcome State Fault Refusal := answer s s.preparationDone

/-- What a re-thread may not change (R439). -/
def Image.layoutKey (im : Image) : List Byte × List Nat × BelayBlock × List (Nat × Nat × Nat) :=
  (im.groupBytes, im.config.extents, im.config.belay, im.config.rwl)

/-- Why a re-thread at step t is refused: the first reason of R439 that applies, 0 for none. -/
def State.rethreadRefusal (s : State) (t : Nat) : Nat :=
  if !s.isRunning then 1
  else
    match s.img.prepared with
    | none => 2
    | some im =>
      if im.conf ≠ s.image.conf then 3
      else if im.layoutKey ≠ s.image.layoutKey then 4
      else if s.originOf t < s.count + 62500 then 5
      else 0

/-- IMG_CTL.RETHREAD (R439). -/
def State.rethread (s : State) : State :=
  let t := s.reg48 0x20018
  let why := s.rethreadRefusal t
  if why ≠ 0 then State.irq { s with img := { s.img with rethread := 2, reason := why } } 5
  else { s with img := { s.img with rethread := 1, rethreadStep := t } }

/-- The row IMG_CTL_RETHREAD. -/
def execImgCtlRethread (m : Master) (s : State) : Host.Outcome State Fault Refusal := answer s (if s.may m false then s.rethread else s)

/-- IMG_CTL.CANCEL: an ARMED re-thread, until the count reaches origin(t) − 64. -/
def State.cancelRethread (s : State) : State :=
  if s.img.rethread ≠ 1 then s.imgRefuse 1
  else if s.originOf s.img.rethreadStep ≤ s.count + 64 then s.imgRefuse 5
  else State.irq { s with img := { s.img with rethread := 4 } } 5

/-- The row IMG_CTL_CANCEL. -/
def execImgCtlCancel (m : Master) (s : State) : Host.Outcome State Fault Refusal :=
  answer s (if s.may m false then s.cancelRethread else s)

/-! ### Keys and status -/

/-- ENROLL-KEY (R427): a valid record with a KSEQ above the current one, written backup first; a refused one raises an IMAGE cairn
(Table 13-1). -/
def State.enroll (s : State) (record : List Byte) : State :=
  let now := s.readKey
  match (if record.length = 4096 then keyRecord record else none) with
  | none => (s.raise 0x14 (source 0 2) 0 6 0).answerWith [1]
  | some k =>
    let newer : Bool := match now with | some o => decide (o.kseq < k.kseq) | none => true
    if newer then (s.writeKey record).answerWith [0] else (s.raise 0x14 (source 0 2) 0 6 0).answerWith [1]

/-- The row ENROLL_KEY. -/
def execEnrollKey (record : List Byte) (s : State) : Host.Outcome State Fault Refusal :=
  answer s (if s.power.standby then s.enroll record else s)

/-- IMG_STAT (Table 14-14). -/
def State.imgStat (s : State) : Nat :=
  (if s.power.st = .held then s.power.cause else 0) + s.img.pcause * 2 ^ 4 + ofBool (s.img.loaded && s.img.loadedB) * 2 ^ 8
    + s.img.staging.st * 2 ^ 9 + s.img.prep * 2 ^ 12 + s.img.rethread * 2 ^ 15 + s.img.reason * 2 ^ 18

/-- STATUS (Table 12-11): global state, owner, heartbeat ages, IMG_STAT, staging progress. -/
def execStatus (s : State) : Host.Outcome State Fault Refusal :=
  answer s (if s.power.standby then
    s.answerWith [0, s.power.st.code, s.mgmt.owner.code, ageMs s.power.cycles s.mgmt.hostHb, ageMs s.power.cycles s.mgmt.mgtHb, s.imgStat,
      s.img.staging.progress] else s)

end Sys2Proof.Machine
end

