-- ==== Sys2Proof/Machine/Groups.lean ====
section
/-! DEFINITION. Group formation: the states of a group queue and the formation exchange (R120, R121, Table 4-2). -/

namespace Sys2Proof.Machine

/-- GQ_CTL.ARM (R120): IDLE to FORMING in READY; the completion counter starts again (R491). -/
def State.armGroup (s : State) (g : Nat) : State :=
  if s.power.st = .ready ∧ (s.groupQ g).st = 0 ∧ g < 256 then
    s.onGroup g (fun q => { q with st := 1, refuse := 0, done := 0, armTick := s.count })
  else s

/-- The row GQ_CTL_ARM. -/
def execGqCtlArm (m : Master) (group : Nat) (s : State) : Host.Outcome State Fault Refusal :=
  answer s (if s.mayCore m false then s.armGroup group else s)

/-- GQ_CTL.DISARM (R120): ARMED or REFUSED to IDLE, in READY or HELD. -/
def State.disarmGroup (s : State) (g : Nat) : State :=
  let st := (s.groupQ g).st
  if (s.power.st = .ready ∨ s.power.st = .held) ∧ (st = 2 ∨ st = 3) ∧ g < 256 then s.onGroup g (fun q => { q with st := 0 }) else s

/-- The row GQ_CTL_DISARM. -/
def execGqCtlDisarm (m : Master) (group : Nat) (s : State) : Host.Outcome State Fault Refusal :=
  answer s (if s.mayCore m false then s.disarmGroup group else s)

/-- The complement of a 32-bit value. -/
def not32 (v : Nat) : Nat := 2 ^ 32 - 1 - v % 2 ^ 32

/-- The six values of this member (R121): halves of the conformance word, their complements, the CRC of the descriptor and its
complement. -/
def State.formationValues (s : State) (g : Nat) : List Nat :=
  let w := s.image.conf
  let c := crc32c (s.image.group g).bytes
  [w % 2 ^ 32, w / 2 ^ 32 % 2 ^ 32, not32 w, not32 (w / 2 ^ 32), c, not32 c]

/-- A value is the same at every member: its maximum is the complement of the maximum of its complement. -/
def agreed (v nv : Nat) : Bool := v == not32 nv

/-- A group is REFUSED: CONFORMANCE, and the engine enters HELD (R120, R121, Table 13-1). -/
def State.refuseGroup (s : State) (g refuse qual b : Nat) : State :=
  ((((s.onGroup g (fun q => { q with st := 3, refuse := refuse })).raise 0x15 (source 4 g) qual g b).hold 7).dropRequests)

/-- The formation exchange completes with the maxima over all members. -/
def State.formed (s : State) (g : Nat) (maxima : List Nat) : State :=
  if (s.groupQ g).st ≠ 1 ∨ !s.coreUp then s
  else
    let v := fun (i : Nat) => Nat.max (nth maxima i 0) (nth (s.formationValues g) i 0)
    if !(agreed (v 0) (v 2) && agreed (v 1) (v 3)) then s.refuseGroup g 1 0 0
    else if !agreed (v 4) (v 5) then s.refuseGroup g 2 0 0
    else s.onGroup g (fun q => { q with st := 2 })

/-- The row FORMATION_EXCHANGE_DONE. -/
def execFormationExchangeDone (group : Nat) (maxima : List Nat) (s : State) : Host.Outcome State Fault Refusal :=
  answer s (s.formed group maxima)

/-- The exchange has not completed within 2,500,000 ticks of ARM (R121). -/
def State.formationTimeout (s : State) (g : Nat) : State :=
  if (s.groupQ g).st = 1 ∧ s.coreUp ∧ (s.groupQ g).armTick + 2500000 ≤ s.count then s.refuseGroup g 3 8 1 else s

/-- The row FORMATION_TIMEOUT. -/
def execFormationTimeout (group : Nat) (s : State) : Host.Outcome State Fault Refusal := answer s (s.formationTimeout group)

end Sys2Proof.Machine
end

