-- ==== Sys2Proof/Machine/DynamicPins.lean ====
section
/-! DEFINITION. The dynamic pin queue (R187 to R191, Table 5-11): what a new tail index makes the engine take, how each pin is checked, and
where its outcome goes. Ticks are counted from the origin of the step. -/

namespace Sys2Proof.Machine

/-! ### Windows -/

/-- A window of the step: its section, record number, record, and interval. -/
structure DynWin where
  sec : Nat
  index : Nat
  rec_ : OpenRec
  start : Nat
  stop : Nat
  deriving DecidableEq, Repr, Inhabited

/-- The sections of the running step that may hold windows: step, and eval where the step has one. -/
def State.dynSections (s : State) : List Nat :=
  let h := s.pricking.head
  if h.nEval ≠ 0 ∧ (s.seq.step + 1) % h.nEval = 0 then [0, 1] else [0]

/-- Every window of the running step. -/
def State.dynWindows (s : State) : List DynWin :=
  s.dynSections.flatMap (fun sec =>
    let b := s.sectionBase sec
    ((s.pricking.stream sec 9).filter (fun p => p.op = 15)).map (fun p =>
      let o := nth s.pricking.opens p.pitch default
      ⟨sec, p.pitch, o, b + p.tick, b + p.tick + o.length⟩))

/-- The window whose interval contains a pin's TICK and whose SLICES include its SLICE (R189). -/
def State.dynWindow (s : State) (p : Pin) : Option DynWin :=
  s.dynWindows.find? (fun w => decide (w.start ≤ p.tick ∧ p.tick < w.stop) && flag w.rec_.slices p.slice && decide (p.slice < 8))

/-- The OPEN of a window was void. -/
def State.voidWindow (s : State) (w : DynWin) : Bool :=
  s.seq.windows.contains (w.sec, w.index, w.start - s.sectionBase w.sec, true)

/-- The dynamic pins accepted in the step, in order. -/
def State.accepted (s : State) : List Pin := s.srec.dpins.map (fun b => Pin.ofNat (leNat b))

/-! ### What a pin uses -/

/-- The port interval of a pin, with setup and extension (R190): port and interval. -/
def State.dynPort (s : State) (p : Pin) : Option (Nat × Nat × Nat) :=
  (pinWindow s.image s.pricking p.slice p).map (fun w =>
    (p.portq, p.tick + w.1 - 6, p.tick + w.2 + retryExt s.pricking.head p.portq))

/-- The interval in which a pin holds its units. -/
def State.dynSpan (s : State) (p : Pin) : Nat × Nat := (p.tick, p.tick + s.latency p.slice p)

/-- Memory-mover bytes of a pin. -/
def State.moverBytes (s : State) (p : Pin) : Nat :=
  let r := s.pricking.pitchAt p.pitch
  if p.op = 5 ∧ p.portq = 32 then
    (if r.kind = 2 ∨ r.kind = 3 then 4096 else if (s.pricking.mdescAt p.arg).kind = 0 then 4 * r.elems else r.bytes)
  else if p.op = 13 ∨ (p.op = 12 ∧ p.portq = 36) then s.image.reserved (s.image.layerOf p.layer) p.coded
  else 0

/-- Encoder and decoder ticks of a pin. -/
def State.coderTicks (s : State) (p : Pin) : Nat := if p.op = 9 ∨ p.op = 10 then s.latency p.slice p else 0

/-- The units that a pin claims. -/
def State.claimed (s : State) (p : Pin) : List (Nat × Nat) :=
  (pinUnits s.image s.pricking p.slice p).filter (fun u => p.claims u.1)

/-- The first unit of the buffer that a pin releases at its completion (R176). -/
def Pin.releases (p : Pin) : Option Nat := if p.release then some (if p.op = 2 then p.arg else p.buf) else none

/-- Staging that an accepted pin claimed is still held when a later pin claims it: no accepted pin has released it by then. -/
def State.stillHeld (s : State) (ps : List Pin) (q p : Pin) : Bool :=
  q.slice == p.slice && decide (q.tick ≤ p.tick) && (s.claimed q).any (fun u => (s.claimed p).any (fun v =>
    meets (u.1, u.1 + u.2) (v.1, v.1 + v.2) &&
      !ps.any (fun z => z.slice == q.slice && z.releases == some u.1 && decide (q.tick ≤ z.tick ∧ (s.dynSpan z).2 ≤ p.tick))))

/-- Two pins overlap on a port, on the die-to-die egress, or on a unit of Table 5-8. -/
def State.overlaps (s : State) (p q : Pin) : Bool :=
  (match s.dynPort p, s.dynPort q with
   | some a, some b => a.1 == b.1 && meets a.2 b.2
   | _, _ => false)
  || ((pinRes p.slice p).any (fun r => (pinRes q.slice q).contains r) && meets (s.dynSpan p) (s.dynSpan q))
  || (p.portq == 36 && q.portq == 36 && p.slice == q.slice && [1, 12, 13].contains p.op && [1, 12, 13].contains q.op &&
      meets (p.tick + 26, p.tick + 26 + pinWire s.image s.pricking p) (q.tick + 26, q.tick + 26 + pinWire s.image s.pricking q))

/-! ### The checks (Table 5-11) -/

/-- A slice, port, channel or staging unit lies outside the window's declaration. -/
def State.outside (s : State) (w : DynWin) (p : Pin) : Bool :=
  let named := [1, 2, 12, 13].contains p.op && decide (p.portq < 36)
  (named && !w.rec_.ports.contains p.portq)
  || ((pinWindow s.image s.pricking p.slice p).isSome && !flag w.rec_.vcs p.vc)
  || (pinUnits s.image s.pricking p.slice p).any (fun u =>
      !(decide (w.rec_.bufFirst ≤ u.1) && decide (u.1 + u.2 ≤ w.rec_.bufFirst + w.rec_.bufCount)))

/-- MAX_PINS, MEM_BYTES or CODER_TICKS would be exceeded. -/
def State.overBudget (s : State) (w : DynWin) (p : Pin) : Bool :=
  let mine := s.accepted.filter (fun q => s.dynWindow q == some w)
  decide (mine.length ≥ w.rec_.maxPins)
  || decide (sumNat (mine.map s.moverBytes) + s.moverBytes p > w.rec_.memBytes)
  || decide (sumNat ((mine.filter (fun q => q.slice == p.slice)).map s.coderTicks) + s.coderTicks p > w.rec_.coderTicks)

/-- The reason code of a pin that the engine takes now: the first check that fails, 0 where none does. In replay mode and while the queue
is disabled the answer is WINDOW (R191, Table 13-5). -/
def State.dynReason (s : State) (p : Pin) : Nat :=
  if !p.dynamicGood ∨ !p.dashes ∨ !p.encodings then 1
  else if s.req.replay ∨ flag (s.reg 0xB4) 12 then 2
  else
    match s.dynWindow p with
    | none => 2
    | some w =>
      let late : Bool := match s.dynPort p with | some a => decide (a.2.2 > w.stop) | none => false
      if s.voidWindow w then 2
      else if s.seq.origin + p.tick < s.count + 256 then 3
      else if (s.dynSpan p).2 > w.stop ∨ late then 4
      else if s.outside w p then 5
      else if s.accepted.any (fun q => s.overlaps p q || s.stillHeld s.accepted q p) then 6
      else if s.overBudget w p then 7
      else if s.seq.dynAccepted ≥ 2048 then 8
      else 0

/-! ### The rings (R189) -/

/-- Entries in both rings, as the launch took RLOG2. -/
def State.dpqSize (s : State) : Nat := 2 ^ (field (s.reg (2 ^ 24 + 0xA4)) 3 0 + 4)

/-- One pin is taken: checked, answered in the status ring, and where it is accepted inserted into its stream and recorded (R190, R191).
An entry that cannot be read is answered OPCODE. -/
def State.takeDynamic (s : State) : State :=
  let i := s.reg 0xB0
  let slot := i % s.dpqSize
  let at_ := s.reg (2 ^ 24 + 0xA8) * 4096 + 16 * slot
  let bytes := s.hbmRead at_ 16
  let bad := s.hbmFaulty at_ 16
  let p := Pin.ofNat (leNat bytes)
  let reason := if bad then 1 else s.dynReason p
  let s := if bad then s.hbmError (source 3 0) at_ else s
  let s :=
    if reason = 0 then
      State.onRec { s with seq := { s.seq with dyn := s.seq.dyn ++ [p], dynAccepted := s.seq.dynAccepted + 1 } }
        (fun r => { r with dpins := r.dpins ++ [bytes] })
    else s
  let s := s.hbmWrite (s.reg (2 ^ 24 + 0xAC) * 4096 + 8 * slot) (leBytes 8 (i + reason * 2 ^ 32))
  s.setReg 0xB0 (i + 1)

/-- The entries from the head up to the tail are taken in order, at most `fuel` of them. -/
def State.takeDynamics (s : State) : Nat → State
  | 0 => s
  | fuel + 1 => if s.reg 0xB0 = s.reg 0xA0 then s else s.takeDynamic.takeDynamics fuel

/-- GLB_DPQ_DB (R189): a running engine takes what is pending; otherwise the tail is kept. -/
def State.dpqDoorbell (s : State) (tail : Nat) : State :=
  let s := s.setReg 0xA0 tail
  if s.isRunning then s.takeDynamics s.dpqSize else s

/-- GLB_DPQ_CTL.DISABLE (R477): set, it acts at the pin being checked, which is done; cleared, it lasts until the next step origin. -/
def State.dpqDisable (s : State) (d : Bool) : State :=
  let s := s.setReg 0xA4 (field (s.reg 0xA4) 30 0 + ofBool d * 2 ^ 31)
  if d then s.setReg 0xB4 (2 ^ 12) else s

end Sys2Proof.Machine
end

