-- ==== Sys2Proof/Machine/Training.lean ====
section
/-! DEFINITION. Training and the states of ports and carriage paths (R336 to R339, Table 9-9), the ends of a link (R309), port resets
(R456), and the brides (R340 to R345). A native port and a carriage path are both a `Link`, addressed by the port and, on a carriage
port, the W coordinate of the peer. -/

namespace Sys2Proof.Machine

/-! ### Links -/

/-- The link of a native port, or of the path to pod `w` of a carriage port. -/
def State.link (s : State) (p w : Nat) : Link := if p < 32 then (s.port p).link else s.path (p - 32) w

/-- That link changed. -/
def State.onLink (s : State) (p w : Nat) (f : Link → Link) : State :=
  if p < 32 then s.onPort p (fun q => { q with link := f q.link }) else s.onPath (p - 32) w f

/-- Packets put on a link whatever its state: training sends before UP. -/
def State.sendOn (s : State) (p w : Nat) (pkts : List (List Byte)) : State :=
  if p < 32 then s.onPort p (fun q => q.sendPackets s.count pkts) else pkts.foldl (fun s b => s.sendFrame (p - 32) w b) s

/-- SOURCE of a link: the port, or the carriage path (Table 13-2). -/
def linkSource (p w : Nat) : Nat := if p < 32 then source 8 p else source 9 (p - 32 + 4 * w)

/-- The link carries flits or frames that its state machine reads: IDENT, MEASURE or UP. -/
def Link.live (l : Link) : Bool := l.st = .ident || l.st = .measure || l.st = .up

/-- The paths of a port whose link is one of those on which a row acts: for a native port, the link itself. -/
def linksOf (p : Nat) : List Nat := if p < 32 then [0] else List.range 32

/-! ### VC4 packets of training -/

/-- A VC4 packet of this package to the peer of a link. -/
def State.controlPacket (s : State) (p w type : Nat) (payload : List Byte) : List Byte :=
  packetBytes { (default : PktHead) with
    vc := 4, type := type, src := s.coord, dst := if p < 32 then (s.port p).link.peer else s.pathPeer w, first := true, last := true } [] payload

/-- The IDENT packet of a port (Table 9-10). -/
def State.identPacket (s : State) (p w : Nat) : List Byte :=
  s.controlPacket p w 0x10 (leBytes 2 s.coord ++ leBytes 1 p ++ zeros 1 ++ leBytes 1 1 ++ zeros 11)

/-- The core cycle at which the current tick begins: 6 core cycles for each tick (R21). -/
def State.coreCycle (s : State) : Nat := 6 * s.count

/-- IDENT entered: the state, and an IDENT packet to the peer (R337). -/
def State.enterIdent (s : State) (p w : Nat) : State :=
  let s := s.onLink p w (fun l => l.restart .ident)
  s.sendOn p w [s.identPacket p w]

/-- FAILED entered with a cause of Table 14-21, and its LINK-DOWN cairn, cause 4 (Table 13-1). -/
def State.failLink (s : State) (p w cause : Nat) : State :=
  (s.onLink p w (fun l => { l.restart .failed with fail := cause, failTick := s.count })).raise 0x03 (linkSource p w) 0 4 cause

/-- A port's PHY, or a native port, in FAILED. -/
def State.failPort (s : State) (p cause : Nat) : State :=
  State.raise (s.onPort p (fun q => { q with link := { q.link.restart .failed with fail := cause, failTick := s.count } }))
    0x03 (source 8 p) 0 4 cause

/-- A port that goes back to FRAME or PMD, its retry buffer emptied (R309, R339). -/
def State.backTo (s : State) (p : Nat) (st : PortSt) : State := s.onPort p (fun q => { q with link := q.link.restart st })

/-- A port leaves UP: a LINK-DOWN cairn with its cause, unless the end was commanded, and the count of Table 9-14 (R309, R460). -/
def State.leaveUp (s : State) (p : Nat) (st : PortSt) (cause : Nat) : State :=
  if (s.port p).link.st ≠ .up then s.backTo p st
  else
    let s := (s.backTo p st).bump (portCounter p 6) noUnit 1
    if cause = 0 then s else s.raise 0x03 (source 8 p) 0 cause 0

/-- A link goes down for a cause of Table 13-1: a native port retrains from FRAME, a path by IDENT and MEASURE (R309, R334). -/
def State.linkDown (s : State) (p w cause : Nat) : State :=
  if p < 32 then s.leaveUp p .frame cause
  else
    let up := decide ((s.path (p - 32) w).st = .up)
    let s := s.enterIdent p w
    if up then State.raise (s.bump (pathCounter (p - 32) w 6) noUnit 1) 0x03 (linkSource p w) 0 cause 0 else s

/-! ### Table 9-9 -/

/-- Lane training ends (R336). -/
def State.pmdDone (s : State) (p : Nat) (o : PmdOutcome) : State :=
  if (s.port p).link.st ≠ .pmd then s
  else
    match o with
    | .trained => s.backTo p .frame
    | .noSignal => s.failPort p 1
    | .timeout => s.failPort p 2

/-- The row PMD_TRAINING_DONE. -/
def execPmdTrainingDone (port : Nat) (outcome : PmdOutcome) (s : State) : Host.Outcome State Fault Refusal :=
  answer s (s.pmdDone port outcome)

/-- Lock is found, or not (R336): a native port goes to IDENT; a carriage PHY is UP, and each of its paths sends its first ACKONLY
frame and its IDENT. -/
def State.lockDone (s : State) (p : Nat) (locked : Bool) : State :=
  if (s.port p).link.st ≠ .frame then s
  else if !locked then s.failPort p 3
  else if p < 32 then s.enterIdent p 0
  else
    let s := s.backTo p .up
    ((List.range 32).filter s.pathCabled).foldl (fun s w =>
      let s := s.onLink p w (fun l => l.restart .ident)
      let f := s.frame (p - 32) w none 0 (s.path (p - 32) w)
      (s.onPort p (fun q => { q with wire := q.wire ++ [f] })).enterIdent p w) s

/-- The row FLIT_LOCK. -/
def execFlitLock (port : Nat) (locked : Bool) (s : State) : Host.Outcome State Fault Refusal := answer s (s.lockDone port locked)

/-- Flit lock is lost (R339): back to FRAME; LINK-DOWN, cause 2, where the port was UP. -/
def State.loseLock (s : State) (p : Nat) : State :=
  if (s.port p).link.live then s.leaveUp p .frame 2 else s

/-- The row LOSS_OF_LOCK. -/
def execLossOfLock (port : Nat) (s : State) : Host.Outcome State Fault Refusal := answer s (s.loseLock port)

/-- The signal is lost (R339): back to PMD. -/
def State.loseSignal (s : State) (p : Nat) : State :=
  if (s.port p).link.live ∨ (s.port p).link.st = .frame then s.leaveUp p .pmd 2 else s

/-- The row LOSS_OF_SIGNAL. -/
def execLossOfSignal (port : Nat) (s : State) : Host.Outcome State Fault Refusal := answer s (s.loseSignal port)

/-- A FAILED port, or a FAILED path of a carriage port whose PHY is UP, tries again after 25,000,000 ticks (Table 9-9). -/
def State.retryFailed (s : State) (p w : Nat) : State :=
  let q := (s.port p).link
  if q.st = .failed then (if q.failTick + 25000000 ≤ s.count then s.backTo p .pmd else s)
  else if p ≥ 32 ∧ (s.path (p - 32) w).st = .failed ∧ (s.path (p - 32) w).failTick + 25000000 ≤ s.count then s.enterIdent p w
  else s

/-- The row PORT_FAILED_RETRY. -/
def execPortFailedRetry (port peerW : Nat) (s : State) : Host.Outcome State Fault Refusal := answer s (s.retryFailed port peerW)

/-- A commanded retrain: PMD from FAILED, else FRAME, with no LINK-DOWN cairn (Table 9-9, R460). -/
def State.retrain (s : State) (p : Nat) : State :=
  match (s.port p).link.st with
  | .failed => s.backTo p .pmd
  | .off | .pmd => s
  | .frame | .ident | .measure | .up => s.leaveUp p .frame 0

/-- The row PRT_CTL_RETRAIN: open to management as a reset (Table 14-21). -/
def execPrtCtlRetrain (m : Master) (port : Nat) (s : State) : Host.Outcome State Fault Refusal :=
  answer s (if s.mayCore m true then s.retrain port else s)

/-- PRT_CTL.DISABLE (R477): set, the port goes OFF at the end of the transfer under way; cleared, it is enabled at the next step
origin. -/
def State.disablePort (s : State) (p : Nat) (d : Bool) : State :=
  s.onPort p (fun q => if d then { q with disable := true, enableDue := false } else { q with enableDue := q.disable })

/-- The row PRT_CTL_DISABLE. -/
def execPrtCtlDisable (m : Master) (port : Nat) (disable : Bool) (s : State) : Host.Outcome State Fault Refusal :=
  answer s (if s.mayCore m false then s.disablePort port disable else s)

/-! ### IDENT and MEASURE (R337, R338) -/

/-- Coordinates differ in one axis only. -/
def onlyAxis (a b i : Nat) : Bool :=
  (List.range 4).all (fun k => k == i || nth (coordAxes a) k 0 == nth (coordAxes b) k 0)

/-- The checks of R337 on an IDENT payload received on port `p` (path `w` on a carriage port): what failed, or d - 1 - BRIDGES. -/
def State.identCheck (s : State) (p : Nat) (pay : List Byte) : Except Nat Nat :=
  let c := bytesAt pay 0 2
  let port := bytesAt pay 2 1 % 64
  let br := bytesAt pay 3 1 % 16
  let own := s.coord
  if bytesAt pay 4 1 ≠ 1 then .error 6
  else if p = 30 ∨ p = 31 then (if port = 63 ∧ c = own then .ok 0 else .error 4)
  else if c = own then .error 5
  else
    match arrivalAxis p with
    | some (i, odd) =>
      let e := nth s.image.config.extents i 1
      let a := nth (coordAxes own) i 0
      let b := nth (coordAxes c) i 0
      let d := if odd then ringDist e b a else ringDist e a b
      if port = (if odd then p - 1 else p + 1) ∧ onlyAxis own c i ∧ d ≥ 1 + br then .ok (d - 1 - br) else .error 4
    | none =>
      if p < 32 then
        (if port = p ∧ onlyAxis own c 0 ∧ (nth (coordAxes c) 0 0 = nth (coordAxes own) 0 0 ^^^ (p / 4 + 1)) ∧ br = 0 then .ok 0 else .error 4)
      else if port = p ∧ onlyAxis own c 3 then .ok 0 else .error 4

/-- An IDENT packet is received in IDENT: FAILED, or MEASURE with its 16 probes. -/
def State.identIn (s : State) (p : Nat) (pkt : List Byte) : State :=
  let pay := packetPayload pkt
  let w := (PktHead.parse pkt).src % 32
  if (s.link p w).st ≠ .ident then s
  else
    let c := bytesAt pay 0 2
    let note := fun (l : Link) (passed : Nat) => { l with peer := c, bridges := bytesAt pay 3 1 % 16, passed := passed }
    match s.identCheck p pay with
    | .error e => State.failLink (s.onLink p w (fun l => note l l.passed)) p w e
    | .ok d =>
      let s := s.onLink p w (fun l => { note l d with st := .measure, probes := [] })
      s.sendOn p w ((List.range 16).map (fun _ => s.controlPacket p w 0x11 (leBytes 8 s.coreCycle)))

/-- The row IDENT. -/
def execIdent (port : Nat) (packet : List Byte) (s : State) : Host.Outcome State Fault Refusal :=
  answer s (s.received port packet 0x10 (fun s => s.identIn port packet))

/-- A probe is answered with its own bytes and the core cycles it was held (R338). -/
def State.measureIn (s : State) (p : Nat) (pkt : List Byte) (held : Nat) : State :=
  let w := (PktHead.parse pkt).src % 32
  if !(s.link p w).live then s
  else s.sendOn p w [s.controlPacket p w 0x12 ((packetPayload pkt).take 8 ++ leBytes 4 held)]

/-- The row MEASURE. -/
def execMeasure (port : Nat) (packet : List Byte) (held : Nat) (s : State) : Host.Outcome State Fault Refusal :=
  answer s (s.received port packet 0x11 (fun s => s.measureIn port packet held))

/-- h_m in ticks: the largest of ⌈(round trip − hold) ÷ 12⌉ (R338). -/
def probesHm (xs : List Nat) : Nat := maxNat (xs.map (fun x => ceilDiv x 12))

/-- λ in 1/32 core cycle: the mean of (round trip − hold) ÷ 2 over 16 probes (R389). -/
def probesLambda (xs : List Nat) : Nat := sumNat xs

/-- A MEASURE-REPLY is received at a core cycle; the sixteenth ends the measurement (R338). -/
def State.replyIn (s : State) (p : Nat) (pkt : List Byte) (cycle : Nat) : State :=
  let pay := packetPayload pkt
  let w := (PktHead.parse pkt).src % 32
  let l := s.link p w
  if l.st ≠ .measure then s
  else
    let xs := l.probes ++ [cycle - bytesAt pay 0 8 - bytesAt pay 8 4]
    if xs.length < 16 then s.onLink p w (fun l => { l with probes := xs })
    else
      let hm := probesHm xs
      let s := s.onLink p w (fun l => { l with
        probes := xs, hm := hm, lambda := if p < 32 then some (probesLambda xs) else l.lambda })
      if hm > s.pricking.head.portHop p ∨ hm > 326 then s.failLink p w 7
      else s.onLink p w (fun l => { l with st := .up, replays := 0, credits := [256, 256, 64], owed := [0, 0, 0], creditTick := s.count })

/-- The row MEASURE_REPLY. -/
def execMeasureReply (port : Nat) (packet : List Byte) (cycle : Nat) (s : State) : Host.Outcome State Fault Refusal :=
  answer s (s.received port packet 0x12 (fun s => s.replyIn port packet cycle))

/-! ### Brides (R340 to R345) -/

/-- An OPEN condition fails: the bride closes (R341). -/
def State.closeBride (s : State) (r : Nat) : State :=
  if (s.bride r).st = .isOpen ∧ !s.brideMayOpen r then s.onBride r (fun b => { b with st := .closedActive }) else s

/-- The row BRIDE_CLOSE. -/
def execBrideClose (pair : Nat) (s : State) : Host.Outcome State Fault Refusal := answer s (s.closeBride pair)

/-- The row BRIDE_OPEN. -/
def execBrideOpen (pair : Nat) (s : State) : Host.Outcome State Fault Refusal := answer s (s.openBride pair)

/-- A flit as a CLOSED-ACTIVE bride passes it (R342): an IDENT packet at byte 0 of the body has 1 added to BRIDGES, up to 15, and the
LCRC is computed again; every other flit is unchanged. -/
def passedFlit (bs : List Byte) : List Byte :=
  let b := bs.take 252
  let good := bytesAt bs 252 4 = crc32c b
  let head := FlitHead.parse (bytesAt bs 0 4)
  if good ∧ !head.idle ∧ bytesAt bs 4 1 = 0x90 then
    let n := bytesAt bs 39 1
    let b := b.take 39 ++ leBytes 1 (n / 16 * 16 + Nat.min 15 (n % 16 + 1)) ++ b.drop 40
    b ++ leBytes 4 (crc32c b)
  else bs

/-- A flit crosses a CLOSED-ACTIVE bride. -/
def State.brideFlit (s : State) (r : Nat) (fromOdd : Bool) (bs : List Byte) : State :=
  if s.power.standby ∧ (s.bride r).st = .closedActive then s.onBride r (fun b => { b with wire := b.wire ++ [(fromOdd, passedFlit bs)] })
  else s

/-- The row BRIDE_PASS_FLIT. -/
def execBridePassFlit (pair : Nat) (fromOdd : Bool) (bytes : List Byte) (s : State) : Host.Outcome State Fault Refusal :=
  answer s (s.brideFlit pair fromOdd bytes)

/-- PRT_BRIDE_CTL (0), PRT_BRIDE_AT_LO (1) or PRT_BRIDE_AT_HI (2) of ring pair `r` written. -/
def State.writeBride (s : State) (r reg v : Nat) : State :=
  s.onBride r (fun b =>
    match reg with
    | 0 => { b with openEn := flag v 0 }
    | 1 => { b with atCount := b.atCount / 2 ^ 32 * 2 ^ 32 + v % 2 ^ 32 }
    | 2 => { b with atCount := v % 2 ^ 32 * 2 ^ 32 + b.atCount % 2 ^ 32 }
    | _ => b)

/-- The row PRT_BRIDE_CTL_WRITE: open to management (R341). -/
def execPrtBrideCtlWrite (m : Master) (pair reg : Nat) (value : Word) (s : State) : Host.Outcome State Fault Refusal :=
  answer s (if s.may m true then s.writeBride pair reg value.toNat else s)

/-- The Igvaelo command BRIDE writes PRT_BRIDE_CTL and PRT_BRIDE_AT (Table 12-11). -/
def State.brideCommand (s : State) (r : Nat) (open_ : Bool) (count : Nat) : State :=
  if r ≥ 8 then s.answerWith [3]
  else (s.onBride r (fun b => { b with openEn := open_, atCount := count % 2 ^ 64 })).answerWith [0]

/-- The row BRIDE. -/
def execBride (pair : Nat) (open_ : Bool) (count : Nat) (s : State) : Host.Outcome State Fault Refusal :=
  answer s (if s.power.standby then s.brideCommand pair open_ count else s)

/-! ### The Igvaelo command RESET (Tables 12-11, 12-13) -/

/-- Its answer and effect: a port reset needs the core. -/
def State.resetCommand (s : State) (k : ResetKind) : State :=
  match k with
  | .core => s.coreReset.answerWith [0]
  | .mgmt => s.restartMgmt.answerWith [0]
  | .port p => if p ≥ 36 then s.answerWith [3] else if !s.coreUp then s.answerWith [5] else (s.retrain p).answerWith [0]

/-- The row RESET. -/
def execReset (kind : ResetKind) (s : State) : Host.Outcome State Fault Refusal :=
  answer s (if s.power.standby then s.resetCommand kind else s)

end Sys2Proof.Machine
end

