-- ==== Sys2Proof/Machine/Links.lean ====
section
/-! DEFINITION. Links that carry traffic: flits received and the retry of R306 to R310, frames on carriage paths (R331 to R335), belay
markers and BELAY packets (R311, R312), credits (R325), the corrected codewords of a window (R460). -/

namespace Sys2Proof.Machine

/-! ### Acknowledgement and replay (R306, R307) -/

/-- `a` lies past the number `n`, by at most half of the numbers. -/
def seqPast (m n a : Nat) : Bool := let d := (a + m - n % m) % m; d ≠ 0 && d ≤ m / 2

/-- An ACK frees what it covers; a replay count starts again where it advances (R307, R309). -/
def Link.ack (l : Link) (m a now : Nat) : Link :=
  let rest := l.kept.dropWhile (fun k => seqPast m k.seq a)
  if rest.length < l.kept.length then { l with kept := rest, replays := 0, ackTick := now } else l

/-- The kept units again, with the current ACK: flits on a native port, frames on a path. -/
def State.resent (s : State) (p w : Nat) : List (List Byte) :=
  let l := s.link p w
  l.kept.map (fun k =>
    if p < 32 then flitBytes ⟨false, false, k.seq, l.rxSeq, false⟩ ((k.bytes.drop 4).take 248)
    else s.frame (p - 32) w (some k.bytes) k.seq { l with nakDue := false })

/-- A replay of everything kept, oldest first (R307): LINK-RETRY, its counters, and the end of the link at the 16th without progress
(R309, R334). -/
def State.replay (s : State) (p w : Nat) : State :=
  let l := s.link p w
  match l.kept.head? with
  | none => s
  | some k =>
    let units := s.resent p w
    let s := s.onLink p w (fun l => { l with replays := l.replays + 1, ackTick := s.count })
    let s := s.onPort p (fun q => { q with wire := q.wire ++ units })
    let s := ((s.linkCount p w 3 1).linkCount p w 4 units.length).raise 0x02 (linkSource p w) 0 units.length k.seq
    if l.replays + 1 ≥ 16 then s.linkDown p w 1 else s

/-- What waited for room in the retry buffer goes out as far as it fits. -/
def State.drainLink (s : State) (p w : Nat) : State :=
  if p < 32 then s.onPort p (fun q => q.drain s.count)
  else
    let q := (s.path (p - 32) w).txq
    q.foldl (fun s b => s.sendFrame (p - 32) w b) (s.onPath (p - 32) w (fun l => { l with txq := [] }))

/-- ACK and NAK of a unit that was read well (R306, R307). -/
def State.unitAck (s : State) (p w m a : Nat) (nak : Bool) : State :=
  let s := (s.onLink p w (fun l => l.ack m a s.count)).drainLink p w
  if nak then s.replay p w else s

/-- A NAK sent at once, in an idle flit or an ACKONLY frame (R306, R308). -/
def State.sendNak (s : State) (p w : Nat) : State :=
  let s := s.onLink p w (fun l => { l with errOpen := true, nakDue := true, nakTick := s.count })
  let l := s.link p w
  let f := if p < 32 then (l.idleFlit false).2 else s.frame (p - 32) w none l.txSeq l
  (s.onPort p (fun q => { q with wire := q.wire ++ [f] })).onLink p w (fun l => { l with nakDue := false, ackOwed := none })

/-- A unit is discarded in an error event: the first discard of the event sends NAK (R306). -/
def State.discard (s : State) (p w : Nat) : State := if (s.link p w).errOpen then s else s.sendNak p w

/-! ### Packets of the flit stream (R305, R314) -/

/-- The packets that a flit body completes, and what is left of one that continues; a zero byte where a packet would start ends the
body. -/
def readPackets : Nat → List Byte → List (List Byte) × List Byte
  | 0, bs => ([], bs)
  | fuel + 1, bs =>
    if bytesAt bs 0 1 = 0 then ([], [])
    else if bs.length < 32 then ([], bs)
    else
      let n := (PktHead.parse bs).total
      let m := roundUp n 8
      if bs.length < m then ([], bs)
      else
        let r := readPackets fuel (bs.drop m)
        (bs.take n :: r.1, r.2)

/-- A packet received: kept for its row, or discarded and counted where it breaks R314. -/
def State.takePacket (s : State) (p w : Nat) (pkt : List Byte) : State :=
  if packetGood pkt then s.onPort p (fun q => { q with rx := q.rx ++ [pkt] })
  else (s.linkCount p w 7 1).owe p pkt

/-- Codewords of the flit counted; more than 64 uncorrectable ones within 250 ticks end an UP port (R309, R346). -/
def State.codewords (s : State) (p corrected bad : Nat) : State :=
  let s := (s.bump (portCounter p 0) noUnit corrected).bump (portCounter p 1) noUnit bad
  s.onPort p (fun q => { q with
    corrected := q.corrected + corrected
    link := { q.link with uncorr := (q.link.uncorr.filter (fun t => s.count < t + 250)) ++ List.replicate (Nat.min bad 65) s.count } })

/-- A data flit that was read well (R306): accepted, a replay duplicate, or out of sequence. -/
def State.dataFlit (s : State) (p : Nat) (h : FlitHead) (body : List Byte) : State :=
  let l := (s.port p).link
  if h.seq = l.rxSeq then
    let r := readPackets 32 (l.partialPkt ++ body)
    let s := s.onLink p 0 (fun l => { l with rxSeq := (l.rxSeq + 1) % 4096, errOpen := false, partialPkt := r.2 })
    r.1.foldl (fun s b => s.takePacket p 0 b) (s.unitAck p 0 4096 h.ack h.nak)
  else if seqPast 4096 h.seq l.rxSeq then s
  else s.discard p 0

/-- FLIT (R306): checked, counted, accepted or discarded; its ACK and NAK act. -/
def State.flitIn (s : State) (p : Nat) (bs : List Byte) (corrected bad : Nat) : State :=
  if p ≥ 32 ∨ !((s.port p).link.live || (s.port p).link.st == .frame) then s
  else
    let s := s.codewords p corrected bad
    if (s.port p).link.st = .up ∧ (s.port p).link.uncorr.length > 64 then s.leaveUp p .frame 3
    else if !(s.port p).link.live then s
    else
      let h := FlitHead.parse (bytesAt bs 0 4)
      if bad > 0 ∨ bytesAt bs 252 4 ≠ crc32c (bs.take 252) then
        let s := s.linkCount p 0 2 1
        if h.idle then s else s.discard p 0
      else if h.idle then s.unitAck p 0 4096 h.ack h.nak
      else s.dataFlit p h ((bs.drop 4).take 248)

/-- The row FLIT. -/
def execFlit (port : Nat) (bytes : List Byte) (corrected uncorrectable : Nat) (s : State) : Host.Outcome State Fault Refusal :=
  answer s (s.flitIn port bytes corrected uncorrectable)

/-- NAK again where no unit with SEQ = E has come within 2 h_m + 8 ticks (R306). -/
def State.nakAgain (s : State) (p : Nat) : State :=
  (linksOf p).foldl (fun s w =>
    let l := s.link p w
    if l.live ∧ l.errOpen ∧ l.nakTick + 2 * l.hm + 8 ≤ s.count then s.sendNak p w else s) s

/-- The row NAK_RESEND_TIMER. -/
def execNakResendTimer (port : Nat) (s : State) : Host.Outcome State Fault Refusal := answer s (s.nakAgain port)

/-- A replay where the oldest unit stays unacknowledged for 2 h_m + 16 ticks (R307). -/
def State.silence (s : State) (p : Nat) : State :=
  (linksOf p).foldl (fun s w =>
    let l := s.link p w
    if l.live ∧ l.kept ≠ [] ∧ l.ackTick + 2 * l.hm + 16 ≤ s.count then s.replay p w else s) s

/-- The row REPLAY_ON_SILENCE. -/
def execReplayOnSilence (port : Nat) (s : State) : Host.Outcome State Fault Refusal := answer s (s.silence port)

/-- The end of a window of 250,000 ticks (R460): LINK-CORR where the corrected codewords exceed a threshold other than 0. -/
def State.corrWindow (s : State) (p : Nat) : State :=
  let thr := s.reg (0x10000C + 0x100 * p)
  let n := (s.port p).corrected
  if s.count % 250000 ≠ 0 ∨ p ≥ 36 then s
  else
    let s := s.onPort p (fun q => { q with corrected := 0 })
    if thr ≠ 0 ∧ n > thr then s.raise 0x01 (source 8 p) 0 n thr else s

/-- The row LINK_CORR_WINDOW. -/
def execLinkCorrWindow (port : Nat) (s : State) : Host.Outcome State Fault Refusal := answer s (s.corrWindow port)

/-! ### Markers and BELAY packets (R311, R312) -/

/-- A MARK at a count that is a multiple of 1,024, once, in a flit of a native port that has lock (R311). -/
def State.markSend (s : State) (p : Nat) : State :=
  let q := s.port p
  if p ≥ 32 ∨ s.count % 1024 ≠ 0 ∨ q.markSent = s.count ∨ !(q.link.live || q.link.st == .frame) then s
  else s.onPort p (fun q =>
    let r := q.link.idleFlit true
    { q with link := r.1, markSent := s.count, wire := q.wire ++ [r.2] })

/-- The row BELAY_MARKER_SEND. -/
def execBelayMarkerSend (port : Nat) (s : State) : Host.Outcome State Fault Refusal := answer s (s.markSend port)

/-- The next MARK that a port will send. -/
def State.nextMark (s : State) (p : Nat) : Nat :=
  if s.count % 1024 = 0 ∧ (s.port p).markSent ≠ s.count then s.count else (s.count / 1024 + 1) * 1024

/-- The BELAY packet of a port (R312): the next MARK, VALID while LOCKED, ROOT at the machine root (R388). -/
def State.belayPacket (s : State) (p : Nat) : List Byte :=
  s.controlPacket p 0 0x13 (leBytes 8 (s.nextMark p) ++
    leBytes 1 (ofBool (s.belay.st == .locked) + 2 * ofBool (s.image.config.belay.role == 2)) ++ zeros 7)

/-- BELAY_PACKET_SEND (R312): at once in training, else among the VC4 packets that wait for a slot. -/
def State.belaySend (s : State) (p : Nat) : State :=
  let q := s.port p
  if p ≥ 32 ∨ !q.link.live then s
  else
    let s := s.onPort p (fun q => { q with belayTick := s.count })
    if q.link.st = .up then s.onPort p (fun q => { q with control := q.control ++ [s.belayPacket p] })
    else s.sendOn p 0 [s.belayPacket p]

/-- The row BELAY_PACKET_SEND. -/
def execBelayPacketSend (port : Nat) (s : State) : Host.Outcome State Fault Refusal := answer s (s.belaySend port)

/-- A BELAY packet is received: what it says is kept (R312, R388). -/
def State.belayIn (s : State) (p : Nat) (pkt : List Byte) : State :=
  let pay := packetPayload pkt
  let f := bytesAt pay 8 1
  s.onPort p (fun q => { q with belayRx := some (bytesAt pay 0 8, flag f 0, flag f 1) })

/-- The row BELAY. -/
def execBelay (port : Nat) (packet : List Byte) (s : State) : Host.Outcome State Fault Refusal :=
  answer s (s.received port packet 0x13 (fun s => s.belayIn port packet))

/-! ### Credits (R325) -/

/-- Returned credit, up to the buffers' size. -/
def State.creditIn (s : State) (p : Nat) (pkt : List Byte) : State :=
  let v := bytesAt (packetPayload pkt) 0 8
  let w := (PktHead.parse pkt).src % 32
  s.onLink p w (fun l => { l with credits := [nth l.credits 0 0 + field v 15 0, nth l.credits 1 0 + field v 31 16, nth l.credits 2 0 + field v 47 32] })

/-- The row CREDIT. -/
def execCredit (port : Nat) (packet : List Byte) (s : State) : Host.Outcome State Fault Refusal :=
  answer s (s.received port packet 0x14 (fun s => s.creditIn port packet))

/-- CREDIT_SEND (R325): once 16 units are owed, or 256 ticks after the last while any is. -/
def State.creditSend (s : State) (p : Nat) : State :=
  (linksOf p).foldl (fun s w =>
    let l := s.link p w
    let n := sumNat l.owed
    if l.live ∧ n ≠ 0 ∧ (n ≥ 16 ∨ l.creditTick + 256 ≤ s.count) then
      let pkt := s.controlPacket p w 0x14 (leBytes 2 (nth l.owed 0 0) ++ leBytes 2 (nth l.owed 1 0) ++ leBytes 2 (nth l.owed 2 0) ++ zeros 2)
      let s := s.onLink p w (fun l => { l with owed := [0, 0, 0], creditTick := s.count })
      if l.st = .up then s.onPort p (fun q => { q with control := q.control ++ [pkt] }) else s.sendOn p w [pkt]
    else s) s

/-- The row CREDIT_SEND. -/
def execCreditSend (port : Nat) (s : State) : Host.Outcome State Fault Refusal := answer s (s.creditSend port)

/-! ### Carriage frames (R331 to R335) -/

/-- Where the EtherType of a frame stands: after a tag, or after the addresses. -/
def etherAt (bs : List Byte) : Nat := if bytesAt bs 12 1 = 0x81 ∧ bytesAt bs 13 1 = 0 then 16 else 12

/-- A big-endian 16-bit number in a frame. -/
def be16 (bs : List Byte) (i : Nat) : Nat := bytesAt bs i 1 * 256 + bytesAt bs (i + 1) 1

/-- A frame of the carriage's EtherType, on the path of its sender's pod. -/
def State.carriageIn (s : State) (p w : Nat) (rest : List Byte) : State :=
  let l := s.path (p - 32) w
  let head := bytesAt rest 0 8
  let pseq := field head 15 0
  if !l.live then s
  else
    let s := s.unitAck p w 65536 (field head 31 16) (flag head 32)
    if flag head 33 then s
    else if pseq = l.rxSeq then
      let s := s.onLink p w (fun l => { l with
        rxSeq := (l.rxSeq + 1) % 65536, errOpen := false, ackOwed := some (l.ackOwed.getD s.count) })
      s.takePacket p w ((rest.drop 8).take (PktHead.parse (rest.drop 8)).total)
    else if seqPast 65536 pseq l.rxSeq then s
    else s.discard p w

/-- CARRIAGE_FRAME (R331 to R335): FCS, PAUSE and PFC, time messages, DA, EtherType. -/
def State.frameIn (s : State) (p : Nat) (bs : List Byte) : State :=
  let n := bs.length - 4
  let i := etherAt bs
  let et := be16 bs i
  if p < 32 ∨ (s.port p).link.st ≠ .up then s
  else if bytesAt bs n 4 ≠ fcs (bs.take n) then s.bump (portCounter p 2) noUnit 1
  else if et = 0x8808 then s.bump (portCounter p 10) noUnit 1
  else if et = 0x88F7 then s
  else if bs.take 6 ≠ s.mac s.coord (p - 32) then s.bump (portCounter p 9) noUnit 1
  else if et ≠ field (s.reg 0x106000) 15 0 then s.bump (portCounter p 11) noUnit 1
  else s.carriageIn p (be16 bs 8 % 32) ((bs.take n).drop (i + 2))

/-- The row CARRIAGE_FRAME. -/
def execCarriageFrame (port : Nat) (bytes : List Byte) (s : State) : Host.Outcome State Fault Refusal := answer s (s.frameIn port bytes)

/-- ACKONLY_SEND (R334): PACK for a frame that nothing else has acknowledged. -/
def State.ackOnly (s : State) (p w : Nat) : State :=
  let l := s.path (p - 32) w
  if p < 32 ∨ !l.live ∨ l.ackOwed.isNone then s
  else
    let f := s.frame (p - 32) w none l.txSeq l
    (s.onPort p (fun q => { q with wire := q.wire ++ [f] })).onPath (p - 32) w (fun l => { l with ackOwed := none, nakDue := false })

/-- The row ACKONLY_SEND. -/
def execAckonlySend (port peerW : Nat) (s : State) : Host.Outcome State Fault Refusal := answer s (s.ackOnly port peerW)

end Sys2Proof.Machine
end

