-- ==== Sys2Proof/Machine/Traffic.lean ====
section
/-! DEFINITION. What ports carry: chunks received and forwarded (R131, R136, R178, R328), prusik requests (R149, R150, R323), token
packets (R258, R316), and the ground class in the slots that windows leave (R319, R322, R329, R330). -/

namespace Sys2Proof.Machine

/-! ### Forwarding (R131, R328) -/

/-- Where a packet for another package goes on: straight on along its ring, or by the dimension order; none where it has passed its
destination. -/
def State.onward (s : State) (p : Nat) (h : PktHead) : Option Nat :=
  let next := (s.route h.src h.dst).map (·.1)
  match arrivalAxis p with
  | some (i, _) => if s.passedDest p h then none else if nth (coordAxes s.coord) i 0 ≠ nth (coordAxes h.dst) i 0 then some (p ^^^ 1) else next
  | none => if p < 32 then next else none

/-- A packet that has passed its destination is discarded and counted (R328). -/
def State.dropPassed (s : State) (p : Nat) (h : PktHead) : State := s.linkCount p (h.src % 32) 8 1

/-- A chunk's packet forwarded at once, neither staged nor checked (R131). -/
def State.relayChunk (s : State) (p : Nat) (h : PktHead) (pkt : List Byte) : State :=
  match s.onward p h with
  | some out => s.transmit out [pkt]
  | none => s.dropPassed p h

/-! ### Chunks (R136, R178, R315) -/

/-- The slice and opening that wait for a chunk that comes by port `p` (R132, R178): one whose EXPECT names that port; else one of the
port's slice; else any, since a prusik answer comes by the port of its route (R149, R184; DEDUCED, log 37). -/
def State.chunkOpening (s : State) (p : Nat) (h : PktHead) : Option (Nat × Opening) :=
  let all := (List.range 8).filterMap (fun k => (s.opening k h.pitch h.chunk).map (fun o => (k, o)))
  match all.find? (fun e => e.2.ports.contains p) with
  | some e => some e
  | none => match all.find? (fun e => e.1 == portSlice p) with
    | some e => some e
    | none => all.head?

/-- The pieces of a packet so far: with a FIRST packet a new one begins, another must follow on from what has come. -/
def State.piece (s : State) (p : Nat) (h : PktHead) (body : List Byte) : State × Option (List Byte) :=
  let mine := fun (a : Asm) => a.port == p && a.type == h.vc && a.pitch == h.pitch && a.chunk == h.chunk && a.src == h.src
  let before := s.seq.asm.find? mine
  let s := { s with seq := { s.seq with asm := s.seq.asm.filter (fun a => !mine a) } }
  let go := fun (bs : List Byte) =>
    if h.last then (s, some bs)
    else ({ s with seq := { s.seq with asm := s.seq.asm ++ [⟨p, h.vc, h.pitch, h.chunk, h.src, bs⟩] } }, none)
  if h.first then go body
  else
    match before with
    | some a => if a.bytes.length = h.offset then go (a.bytes ++ body) else (s, none)
    | none => (s, none)

/-- A packet of a chunk for this package: staged while an EXPECT, or a picot, waits for it; the chunk is judged once it is whole. -/
def State.chunkIn (s : State) (p : Nat) (pkt : List Byte) : State :=
  let h := PktHead.parse pkt
  let waits := if h.vc = 0 then (s.chunkOpening p h).isSome else (s.picot h.pitch).isSome
  if h.dst ≠ s.coord then s.relayChunk p h pkt
  else if h.first ∧ !waits then s
  else
    match s.piece p h (packetPayload pkt) with
    | (s, none) => s
    | (s, some whole) =>
      if h.vc ≠ 0 then s.picotInput h.src h.pitch h.chunk whole
      else
        match s.chunkOpening p h with
        | some (sl, o) => s.acceptChunk sl o h.src whole
        | none => s

/-- The row CHUNK. -/
def execChunk (port : Nat) (packet : List Byte) (s : State) : Host.Outcome State Fault Refusal :=
  answer s (s.received port packet 0x01 (fun s => s.chunkIn port packet))

/-! ### Prusik requests (R149, R150, R323) -/

/-- The slices whose streams hold an answer window for a pitch and chunk. -/
def State.answerSlices (s : State) (pitch chunk : Nat) : List Nat :=
  (List.range 8).filter (fun sl => (s.pricking.stream s.seq.sec sl).any (fun p => p.isSend 2 && p.pitch == pitch && p.chunk == chunk))

/-- A request at its source: held once for each slot and step; relayed by displacement where it is for another package (R323). -/
def State.prusikIn (s : State) (p : Nat) (pkt : List Byte) : State :=
  let h := PktHead.parse pkt
  let pay := packetPayload pkt
  let r : PrusikHeld := ⟨h.pitch, h.chunk, h.src, bytesAt pay 0 2, bytesAt pay 2 3, h.group, false⟩
  if h.dst ≠ s.coord then
    match s.onward p h with
    | some out => s.onPort out (fun q => { q with prusik := q.prusik ++ [(s.count, pkt)] })
    | none => s.dropPassed p h
  else if h.seq ≠ s.seq.step % 2 ^ 16 then s
  else (s.answerSlices h.pitch h.chunk).foldl (fun s sl => s.onSlice sl (fun x =>
    if x.prusik.any (fun y => y.from_ == r.from_ && y.rpitch == r.rpitch && y.rchunk == r.rchunk) then x
    else { x with prusik := x.prusik ++ [r] })) s

/-- The row PRUSIK_REQ. -/
def execPrusikReq (port : Nat) (packet : List Byte) (s : State) : Host.Outcome State Fault Refusal :=
  answer s (s.received port packet 0x03 (fun s => s.prusikIn port packet))

/-- A window that owns the slot of this tick (R319). -/
def Port.inWindow (q : Port) (t : Nat) : Option Window := q.windows.find? (fun w => w.start ≤ t ∧ t < w.stop)

/-- PRUSIK_REQUEST_SEND (R323): the oldest request whose tick has come, at most one in any 64 ticks; in a window it displaces one flit. -/
def State.prusikSend (s : State) (p : Nat) : State :=
  let q := s.port p
  match q.prusik with
  | [] => s
  | (due, pkt) :: rest =>
    let soon : Bool := match q.prusikTick with | some t => decide (s.count < t + 64) | none => false
    if s.count < due ∨ soon then s
    else
      let up := s.upTowards p (PktHead.parse pkt).dst
      let s := s.onPort p (fun q => { q with prusik := rest, prusikTick := some s.count })
      let s := if up ∧ (q.inWindow s.count).isSome then s.linkCount p (packetW pkt) 5 1 else s
      s.transmit p [pkt]

/-- The row PRUSIK_REQUEST_SEND. -/
def execPrusikRequestSend (port : Nat) (s : State) : Host.Outcome State Fault Refusal := answer s (s.prusikSend port)

/-! ### Token packets (R316) -/

/-- The chunks of a packet, split from its end by their LEN fields, reach its first byte exactly. -/
def splitsWhole : Nat → List Byte → Bool
  | 0, bs => bs == []
  | fuel + 1, bs =>
    if bs = [] then true
    else if bs.length < 32 then false
    else
      let n := (TokTrailer.parse (bs.drop (bs.length - 32))).len + 32
      n ≤ bs.length && splitsWhole fuel (bs.take (bs.length - n))

/-- A packet of token chunks: one piece of a long chunk, or whole chunks. Tokens are never forwarded (R127). -/
def State.tokensIn (s : State) (p : Nat) (pkt : List Byte) : State :=
  let h := PktHead.parse pkt
  let body := packetPayload pkt
  let open_ := s.seq.asm.any (fun a => a.port == p && a.type == 2 && a.pitch == h.pitch && a.chunk == h.chunk && a.src == h.src)
  if h.dst ≠ s.coord then s.dropPassed p h
  else if (!h.first && open_) || (h.first && !h.last && !splitsWhole 130 body) then
    match s.piece p h body with
    | (s, some whole) => s.tokenChunkIn h.pitch whole
    | (s, none) => s
  else (splitChunks 130 body).foldl (fun s c => s.tokenChunkIn h.pitch c) s

/-- The row TOKENS. -/
def execTokens (port : Nat) (packet : List Byte) (s : State) : Host.Outcome State Fault Refusal :=
  answer s (s.received port packet 0x02 (fun s => s.tokensIn port packet))

/-! ### The ground class (R319, R322, R329, R330). Times of slots are in 1/25 tick. -/

/-- The end of the `n`-th slot from the first that starts at or after tick `t` (R303). -/
def slotsEnd (t n : Nat) : Nat := let b := t - t % 8; 25 * b + 8 * (ceilDiv (25 * (t % 8)) 8 + n)

/-- The end of `n` bytes sent from tick `t` on a port: in slots on a native port, with the frame's overhead on a carriage port. -/
def sendEnd (p t : Nat) (lens : List Nat) : Nat :=
  if p < 32 then slotsEnd t (ceilDiv (sumNat (lens.map (fun n => roundUp n 8))) 248)
  else 25 * t + 25 * ceilDiv (sumNat (lens.map (fun n => roundUp n 8 + 50))) 800

/-- The packets that the transfer of a window carries: those of the flight of its pitch that sends on the port. -/
def State.windowLens (s : State) (p : Nat) (w : Window) : List Nat :=
  let sends := s.seq.flights.filterMap (fun f =>
    if f.pin.pitch = w.pitch then f.upds.findSome? (fun u => match u with
      | .send q pk => if q = p then some (pk.map List.length) else none
      | _ => none) else none)
  sends.headD []

/-- The starts of the setups or windows on a port of the pins of the section that have not issued (Table 5-8). -/
def State.futureLeads (s : State) (p : Nat) : List Nat :=
  if !s.seq.running ∨ s.relaxed then []
  else
    (List.range 8).flatMap (fun st =>
      let stream := s.pricking.stream s.seq.sec st
      let latched := (s.seq.issue.getD st []).length
      let from_ := s.seq.pos.getD st 0 - latched
      ((indexed stream).drop from_).filterMap (fun e =>
        if e.2.portq ≠ p then none
        else
          match pinWindow s.image s.pricking st e.2 with
          | none => none
          | some (a, _) =>
            let x : Issue := ⟨e.2, s.seq.sec, e.1, false, 0, false⟩
            let isFirst := !(s.samePitch x).any (fun o => issueBefore o (e.2.tick, st, e.1))
            some (s.seq.secOrigin + e.2.tick + a - (if isFirst then 6 else 0)))
      ++ (s.dynOf st).filterMap (fun q =>
        if q.portq ≠ p then none
        else (pinWindow s.image s.pricking st q).map (fun w => s.seq.secOrigin + q.tick + w.1 - 6)))

/-- A VC3 or VC4 packet of `n` bytes may start now (R319, R322): no transfer of an open window needs the slot, and it ends before the
next setup or window. -/
def State.mayStart (s : State) (p n : Nat) : Bool :=
  let q := s.port p
  let t := s.count
  let stop := sendEnd p t [n]
  let used := q.windows.all (fun w => !(decide (w.start ≤ t) && decide (t < w.stop)) || sendEnd p w.start (s.windowLens p w) ≤ 25 * t)
  let next := (q.windows.filter (fun w => t < w.start)).map (·.lead) ++ s.futureLeads p
  used && next.all (fun l => decide (stop ≤ 25 * l))

/-- An input of a deficit round robin: its deficit, its quantum, and what its first packet needs. -/
structure DrrEnt where
  key : Nat
  deficit : Nat
  quantum : Nat
  need : Nat
  deriving DecidableEq, Repr

/-- Deficit round robin: the first input whose deficit covers its packet is served; where none does, each gets its quantum. -/
def drrPick : Nat → List DrrEnt → Option (Nat × List DrrEnt)
  | 0, _ => none
  | fuel + 1, es =>
    match es.find? (fun e => e.need ≤ e.deficit) with
    | some e => some (e.key, es.map (fun x => if x.key = e.key then { x with deficit := x.deficit - x.need } else x))
    | none => if es = [] then none else drrPick fuel (es.map (fun x => { x with deficit := x.deficit + x.quantum }))

/-- A packet may be sent as far as its credit goes (R325) and its link is UP. -/
def State.creditFor (s : State) (p : Nat) (pkt : List Byte) : Bool :=
  let h := PktHead.parse pkt
  s.upTowards p h.dst && (match creditClass h with
    | some c => decide (creditUnits pkt ≤ nth (s.link p (packetW pkt)).credits c 0)
    | none => true)

/-- The arbiter's input of a waiting packet: its port, or 36 for the local source (R329). -/
def GroundPkt.arbInput (g : GroundPkt) : Nat := Nat.min g.input 36

/-- The weight of an input (R329): the FAN of its last packet, or how many local queues and responders have a packet. -/
def Port.weight (q : Port) (i : Nat) : Nat :=
  if i < 36 then Nat.max 1 (((q.arb.find? (fun a => a.input == i)).map (·.fan)).getD 1)
  else Nat.max 1 (((q.ground.filter (fun g => g.arbInput == 36)).map (·.input)).eraseDups).length

/-- The weights of the active inputs together (R329). -/
def Port.activeWeight (q : Port) (now : Nat) : Nat :=
  sumNat ((q.arb.filter (fun a => now ≤ a.tick + 4096 && a.input < 36)).map (fun a => Nat.max 1 a.fan)) +
    (if q.ground.any (fun g => g.arbInput == 36) then q.weight 36 else 0)

/-- The deficit of an arbiter input. -/
def Port.deficit (q : Port) (i : Nat) : Nat := ((q.arb.find? (fun a => a.input == i)).map (·.deficit)).getD 0

/-- The first packet of each input that has credit, with the state of the VC3 arbiter. -/
def State.groundHeads (s : State) (p : Nat) : List (DrrEnt × GroundPkt) :=
  let q := s.port p
  ((q.ground.map GroundPkt.arbInput).eraseDups).filterMap (fun i =>
    match q.ground.find? (fun g => g.arbInput == i) with
    | some g => if s.creditFor p g.bytes then some (⟨i, q.deficit i, 256 * q.weight i, roundUp g.bytes.length 8⟩, g) else none
    | none => none)

/-- What VC3 would send next: the packet, and the deficits after it. -/
def State.nextGround (s : State) (p : Nat) : Option (GroundPkt × List DrrEnt) :=
  let hs := s.groundHeads p
  match drrPick 20 (hs.map (·.1)) with
  | some (k, es) => (hs.find? (fun x => x.1.key == k)).map (fun x => (x.2, es))
  | none => none

/-- The deficits of the VC3 arbiter written back; an input without a waiting packet has none. -/
def Port.setDeficits (q : Port) (es : List DrrEnt) : Port :=
  let d := fun (i : Nat) => ((es.find? (fun e => e.key == i)).map (·.deficit)).getD 0
  let arb := q.arb.map (fun a => { a with deficit := d a.input })
  { q with arb := if arb.any (fun a => a.input == 36) then arb else arb ++ [⟨36, 0, 0, d 36⟩] }

/-- A packet put in ground slots: credit taken, bytes and window slots counted (Table 9-14). -/
def State.groundOut (s : State) (p : Nat) (pkt : List Byte) : State :=
  let w := packetW pkt
  let n := roundUp pkt.length 8
  let s := match creditClass (PktHead.parse pkt) with
    | some c => s.onLink p w (fun l => { l with credits := l.credits.modify c (· - creditUnits pkt) })
    | none => s
  let s := s.linkCount p w 12 n
  let s := if ((s.port p).inWindow s.count).isSome then s.linkCount p w 13 (ceilDiv n 248) else s
  s.sendOn p w [pkt]

/-- VC3's turn: the packet leaves with the FAN of the port (R329). -/
def State.sendVc3 (s : State) (p : Nat) (g : GroundPkt) (es : List DrrEnt) : State :=
  let fan := Nat.min 255 ((s.port p).activeWeight s.count)
  let pkt := packetBytes { PktHead.parse g.bytes with fan := fan } (extBytes g.bytes (PktHead.parse g.bytes)) (packetPayload g.bytes)
  (s.onPort p (fun q => ({ q with ground := q.ground.erase g }).setDeficits es)).groundOut p pkt

/-- VC4's turn; a BELAY packet names the next MARK as of now (R312). -/
def State.sendVc4 (s : State) (p : Nat) (b : List Byte) : State :=
  let pkt := if bytesAt b 0 1 % 32 = 0x13 then s.belayPacket p else b
  (s.onPort p (fun q => { q with control := q.control.erase b })).groundOut p pkt

/-- GROUND_PACKET_SEND (R330): one packet of the class whose turn it is, if it ends in time. -/
def State.groundSend (s : State) (p : Nat) : State :=
  let q := s.port p
  let arb := s.reg (0x100010 + 0x100 * p)
  let v3 := s.nextGround p
  let v4 := match q.control with | b :: _ => if s.creditFor p b then some b else none | [] => none
  let ents := (match v3 with | some (g, _) => [(⟨3, nth q.deficits 0 0, 256 * field arb 7 0, roundUp g.bytes.length 8⟩ : DrrEnt)] | none => []) ++
    (match v4 with | some b => [(⟨4, nth q.deficits 1 0, 256 * field arb 15 8, roundUp b.length 8⟩ : DrrEnt)] | none => [])
  match drrPick 20 ents with
  | none => s
  | some (k, es) =>
    let d := fun (i : Nat) => ((es.find? (fun e => e.key == i)).map (·.deficit)).getD 0
    let turn := fun (s : State) => s.onPort p (fun q => { q with deficits := [d 3, d 4] })
    if k = 3 then
      match v3 with
      | some (g, es3) => if s.mayStart p g.bytes.length then (turn s).sendVc3 p g es3 else s
      | none => s
    else
      match v4 with
      | some b => if s.mayStart p b.length then (turn s).sendVc4 p b else s
      | none => s

/-- The row GROUND_PACKET_SEND. -/
def execGroundPacketSend (port : Nat) (s : State) : Host.Outcome State Fault Refusal := answer s (s.groundSend port)

end Sys2Proof.Machine
end

