-- ==== Sys2Proof/Machine/Registers.lean ====
section
/-! DEFINITION. The register map (chapter Register Map): what a read of each register returns (R481 to R483, R487 to R499) and what a
write does by access code, owner and domain (R8 to R14, R482 to R486). Rows that name one register call the same operations. -/

namespace Sys2Proof.Machine

/-! ### Ownership and heartbeats (R441, R442) -/

/-- GLB_OWN.CLAIM by the host: from RELEASED, or from MGMT when the management heartbeat has been missing for 100 ms (Table 12-10). -/
def State.claimOwner (s : State) : State :=
  if s.mgmt.owner = .released ∨ (s.mgmt.owner = .mgmt ∧ s.mgmtMissing) then { s with mgmt := { s.mgmt with owner := .host } } else s

/-- GLB_OWN.RELEASE by the host: from HOST. -/
def State.releaseOwner (s : State) : State :=
  if s.mgmt.owner = .host then { s with mgmt := { s.mgmt with owner := .released } } else s

/-- SEIZE by management: from RELEASED, or from HOST when the host heartbeat has been missing for 100 ms. The flag says whether it holds
the control plane afterwards. -/
def State.seizeOwner (s : State) : State × Bool :=
  if s.mgmt.owner = .released ∨ (s.mgmt.owner = .host ∧ s.hostMissing) then ({ s with mgmt := { s.mgmt with owner := .mgmt } }, true)
  else (s, s.mgmt.owner == .mgmt)

/-- RETURN by management: from MGMT to HOST. The flag says whether the owner was MGMT. -/
def State.returnOwner (s : State) : State × Bool :=
  if s.mgmt.owner = .mgmt then ({ s with mgmt := { s.mgmt with owner := .host } }, true) else (s, false)

/-- A host heartbeat. -/
def State.hostBeat (s : State) : State := { s with mgmt := { s.mgmt with hostHb := s.power.cycles } }

/-- A management heartbeat. -/
def State.mgmtBeat (s : State) : State := { s with mgmt := { s.mgmt with mgtHb := s.power.cycles } }

/-- The row GLB_OWN_CLAIM: a host write, in any ownership state. -/
def execGlbOwnClaim (m : Master) (s : State) : Host.Outcome State Fault Refusal :=
  answer s (if s.power.standby && m == .host then s.claimOwner else s)

/-- The row GLB_OWN_RELEASE. -/
def execGlbOwnRelease (m : Master) (s : State) : Host.Outcome State Fault Refusal :=
  answer s (if s.power.standby && m == .host then s.releaseOwner else s)

/-- The row GLB_HB: any host write. -/
def execGlbHb (m : Master) (s : State) : Host.Outcome State Fault Refusal :=
  answer s (if s.power.standby && m == .host then s.hostBeat else s)

/-- The row MGT_HB: management only (R11). -/
def execMgtHb (m : Master) (s : State) : Host.Outcome State Fault Refusal :=
  answer s (if s.power.standby && m == .mgmt then s.mgmtBeat else s)

/-- The row MGT_OWN_CTL_SEIZE. -/
def execMgtOwnCtlSeize (m : Master) (s : State) : Host.Outcome State Fault Refusal :=
  answer s (if s.power.standby && m == .mgmt then s.seizeOwner.1 else s)

/-- The row MGT_OWN_CTL_RETURN. -/
def execMgtOwnCtlReturn (m : Master) (s : State) : Host.Outcome State Fault Refusal :=
  answer s (if s.power.standby && m == .mgmt then s.returnOwner.1 else s)

/-! ### Doorbells and interrupts of the global block -/

/-- GLB_STEP_DB (R192): one doorbell, which a waiting GATE takes; at 255 pending it is counted and ignored. -/
def State.stepDoorbell (s : State) : State :=
  if s.seq.doorbells ≥ 255 then
    State.bump { s with seq := { s.seq with ignored := Nat.min 0xFFFF (s.seq.ignored + 1) } } 0x380 noUnit 1
  else
    let s : State := { s with seq := { s.seq with doorbells := s.seq.doorbells + 1 } }
    if s.seq.gateWait then s.takeDoorbell else s

/-- The row GLB_STEP_DB. -/
def execGlbStepDb (m : Master) (s : State) : Host.Outcome State Fault Refusal := answer s (if s.mayCore m false then s.stepDoorbell else s)

/-- The row GLB_DPQ_DB. -/
def execGlbDpqDb (m : Master) (tail : Word) (s : State) : Host.Outcome State Fault Refusal :=
  answer s (if s.mayCore m false then s.dpqDoorbell tail.toNat else s)

/-- The row GLB_DPQ_CTL_DISABLE. -/
def execGlbDpqCtlDisable (m : Master) (disable : Bool) (s : State) : Host.Outcome State Fault Refusal :=
  answer s (if s.mayCore m false then s.dpqDisable disable else s)

/-- Bits of `a` that `mask` does not hold. -/
def clearMask (a mask : Nat) : Nat := a ^^^ (a &&& mask)

/-- GLB_IRQ_STAT: a 1 clears its bit (R489). -/
def State.clearIrq (s : State) (mask : Nat) : State := s.setReg 0xE0 (clearMask (s.reg 0xE0) mask)

/-- The row GLB_IRQ_STAT_CLEAR. -/
def execGlbIrqStatClear (m : Master) (mask : Word) (s : State) : Host.Outcome State Fault Refusal :=
  answer s (if s.may m false then s.clearIrq mask.toNat else s)

/-- GLB_IRQ_EN: a bit set while its status bit is 1 sends the interrupt at once (R489). -/
def State.enableIrq (s : State) (mask : Nat) : State :=
  let old := s.reg 0xE4
  let st := s.reg 0xE0
  ((List.range 6).filter (fun n => flag mask n && !flag old n && flag st n)).foldl (fun s n => s.interrupt n) (s.setReg 0xE4 (mask % 2 ^ 6))

/-- The row GLB_IRQ_EN_WRITE. -/
def execGlbIrqEnWrite (m : Master) (mask : Word) (s : State) : Host.Outcome State Fault Refusal :=
  answer s (if s.may m false then s.enableIrq mask.toNat else s)

/-! ### Pop queues (R490) -/

/-- The word of a pop queue's oldest entry: VALID, OVF, and the index; 0 where it is empty. -/
def popWord (q : List Nat) (ovf : Bool) : Nat :=
  match q with
  | [] => 0
  | i :: _ => 2 ^ 31 + ofBool ovf * 2 ^ 30 + i % 2 ^ 16

/-- ANC_FLAG_POP read. -/
def State.popFlag (s : State) : State × Nat :=
  match s.out.flagPop with
  | [] => (s, 0)
  | i :: rest => ({ s with out := { s.out with flagPop := rest, flagOvf := false } }, popWord (i :: rest) s.out.flagOvf)

/-- GRQ_IRQ_POP read. -/
def State.popIrq (s : State) : State × Nat :=
  match s.out.irqPop with
  | [] => (s, 0)
  | i :: rest => ({ s with out := { s.out with irqPop := rest, irqOvf := false } }, popWord (i :: rest) s.out.irqOvf)

/-- The row ANC_FLAG_POP. -/
def execAncFlagPop (_m : Master) (s : State) : Host.Outcome State Fault Refusal :=
  answer s (if s.power.standby && s.coreUp then (s.popFlag.1).answerWith [s.popFlag.2] else if s.power.standby then s.answerWith [0] else s)

/-- The row GRQ_IRQ_POP. -/
def execGrqIrqPop (_m : Master) (s : State) : Host.Outcome State Fault Refusal :=
  answer s (if s.power.standby && s.coreUp then (s.popIrq.1).answerWith [s.popIrq.2] else if s.power.standby then s.answerWith [0] else s)

/-! ### Ground queues (R379, R380, R492) -/

/-- An event that a master's write brings to a ground queue. -/
def State.grqEvent (s : State) (m : Master) (q : Nat) (ev : QEvent) : State :=
  if s.mayCore m false ∧ q < 1024 then s.queueEvent q ev else s

/-- The row GRQ_CTL_ARM. -/
def execGrqCtlArm (m : Master) (queue : Nat) (s : State) : Host.Outcome State Fault Refusal := answer s (s.grqEvent m queue .arm)

/-- The row GRQ_CTL_DISABLE. -/
def execGrqCtlDisable (m : Master) (queue : Nat) (s : State) : Host.Outcome State Fault Refusal := answer s (s.grqEvent m queue .disable)

/-- The row GRQ_CTL_SUSPEND. -/
def execGrqCtlSuspend (m : Master) (queue : Nat) (s : State) : Host.Outcome State Fault Refusal := answer s (s.grqEvent m queue .suspend)

/-- The row GRQ_CTL_RESUME. -/
def execGrqCtlResume (m : Master) (queue : Nat) (s : State) : Host.Outcome State Fault Refusal := answer s (s.grqEvent m queue .resume)

/-- The row GRQ_CTL_RETRY. -/
def execGrqCtlRetry (m : Master) (queue : Nat) (s : State) : Host.Outcome State Fault Refusal := answer s (s.grqEvent m queue .retry)

/-- The row GRQ_CTL_SKIP. -/
def execGrqCtlSkip (m : Master) (queue : Nat) (s : State) : Host.Outcome State Fault Refusal := answer s (s.grqEvent m queue .skip)

/-- The row GRQ_CTL_RESET. -/
def execGrqCtlReset (m : Master) (queue : Nat) (s : State) : Host.Outcome State Fault Refusal := answer s (s.grqEvent m queue .reset)

/-- The row GRQ_DB. -/
def execGrqDb (m : Master) (queue tail : Nat) (s : State) : Host.Outcome State Fault Refusal :=
  answer s (if s.mayCore m false ∧ queue < 1024 then s.queueDoorbell queue tail else s)

/-- GRQ_SEQ (word 8) or a descriptor word written: only in IDLE or DISABLED, else counted (R492). -/
def State.writeDesc (s : State) (q w v : Nat) : State :=
  let g := s.groundQ q
  if g.st ≠ .idle ∧ g.st ≠ .disabled then s.ignoredEvent
  else if w < 8 then s.onGround q (fun g => { g with desc := g.desc.set w (v % 2 ^ 32) })
  else s.onGround q (fun g => { g with seq := v % 2 ^ 32 })

/-- The row GRQ_DESC_WRITE. -/
def execGrqDescWrite (m : Master) (queue word : Nat) (value : Word) (s : State) : Host.Outcome State Fault Refusal :=
  answer s (if s.mayCore m false ∧ queue < 1024 then s.writeDesc queue word value.toNat else s)

/-! ### Coding contexts and stations (R477) -/

/-- SLC_CODE_CTL: CTX selects, and DISABLE applies to that context. -/
def State.writeCodeCtl (s : State) (sl ctx : Nat) (d : Bool) : State :=
  (s.onSlice sl (fun x => { x with ctxSel := ctx % 128 })).onCtx sl (ctx % 128) (fun c =>
    if d then { c with disable := true, enableDue := false } else { c with enableDue := c.disable })

/-- The row SLC_CODE_CTL_DISABLE. -/
def execSlcCodeCtlDisable (m : Master) (slice ctx : Nat) (disable : Bool) (s : State) : Host.Outcome State Fault Refusal :=
  answer s (if s.mayCore m false ∧ slice < 8 then s.writeCodeCtl slice ctx disable else s)

/-- UPS_CTL.DISABLE of a station. -/
def State.disableStation (s : State) (k : Nat) (d : Bool) : State :=
  s.onStation k (fun x => if d then { x with disable := true, enableDue := false } else { x with enableDue := x.disable })

/-- The row UPS_CTL_DISABLE. -/
def execUpsCtlDisable (m : Master) (station : Nat) (disable : Bool) (s : State) : Host.Outcome State Fault Refusal :=
  answer s (if s.mayCore m false ∧ station < 24 then s.disableStation station disable else s)

/-! ### Anchors (R349, R350) -/

/-- The row ANC_CTL_ARM. -/
def execAncCtlArm (m : Master) (s : State) : Host.Outcome State Fault Refusal := answer s (if s.mayCore m false then s.startAnchorOp 1 else s)

/-- The row ANC_CTL_REVOKE. -/
def execAncCtlRevoke (m : Master) (s : State) : Host.Outcome State Fault Refusal := answer s (if s.mayCore m false then s.startAnchorOp 2 else s)

/-- The row ANC_CTL_DISARM. -/
def execAncCtlDisarm (m : Master) (s : State) : Host.Outcome State Fault Refusal := answer s (if s.mayCore m false then s.startAnchorOp 3 else s)

/-- The row ANC_E_WRITE. -/
def execAncEWrite (m : Master) (word : Nat) (value : Word) (s : State) : Host.Outcome State Fault Refusal :=
  answer s (if s.mayCore m false then s.writeAnchor word value.toNat else s)

/-! ### Reads (R481 to R483) -/

/-- A register of the core domain, which reads 0 in OFF and BIVOUAC (R482, Tables 14-1, 14-2 and 14-21). -/
def coreOffset (off : Nat) : Bool := coreRegister off && !([0x0, 0x4, 0x8, 0x10, 0x14, 0x98].contains off)

/-- GLB_STATE (Table 14-4). -/
def State.globalStat (s : State) : Nat :=
  s.power.st.code + (if s.power.st = .bivouac then s.power.prior.code * 2 ^ 4 else 0) + s.seq.variant % 16 * 2 ^ 8

/-- GLB_REQ_STAT (Table 14-2). -/
def State.reqStat (s : State) : Nat :=
  s.req.biv + s.req.bivReason * 2 ^ 3 + s.req.wake * 2 ^ 7 + s.req.stop * 2 ^ 9 + s.req.stopReason * 2 ^ 12

/-- GLB_OWN (Table 14-6). -/
def State.ownStat (s : State) : Nat :=
  s.mgmt.owner.code + ageMs s.power.cycles s.mgmt.hostHb * 2 ^ 12 + ageMs s.power.cycles s.mgmt.mgtHb * 2 ^ 22

/-- BLY_STAT (Table 14-12). -/
def State.belayStat (s : State) : Nat :=
  s.belay.st.code + s.belay.cand % 64 * 2 ^ 3 + s.belayBlock.role % 4 * 2 ^ 9 + s.req.launch * 2 ^ 12 + s.req.launchReason * 2 ^ 16
    + twos 12 (max (-2047) (min 2047 s.belay.phase)) * 2 ^ 20

/-- Slices for which a condition holds, as a mask. -/
def State.sliceMask (s : State) (f : Slice → Bool) : Nat :=
  sumNat ((List.range 8).map (fun i => if f (s.slice i) then 2 ^ i else 0))

/-- GLB_FENCE (Table 14-7). -/
def State.fenceStat (s : State) : Nat := s.sliceMask (·.fenced) + s.sliceMask (·.clearing) * 2 ^ 8

/-- Registers of the global block. -/
def State.readGlobal (s : State) (off : Nat) : Nat :=
  match off with
  | 0x00 => Config.stepping % 16 * 2 ^ 28 + ((s.power.birth.map (·.grade)).getD 0) % 16 * 2 ^ 24 + s.coord
  | 0x04 => s.globalStat
  | 0x0C => if s.img.loaded then ofBool s.image.config.gate else s.reg 0x0C
  | 0x10 => s.ownStat
  | 0x18 => s.fenceStat
  | 0x80 => s.image.conf % 2 ^ 32
  | 0x84 => s.image.conf / 2 ^ 32 % 2 ^ 32
  | 0x94 => s.seq.doorbells + s.seq.ignored * 2 ^ 16
  | 0x98 => s.reqStat
  | 0xB4 => s.seq.dynAccepted % 2 ^ 12 + field (s.reg 0xB4) 12 12 * 2 ^ 12
  | _ => if [0x08, 0x14, 0x90].contains off then 0 else s.reg off

/-- Registers of the belay and image blocks. -/
def State.readBelayImage (s : State) (off : Nat) : Nat :=
  match off with
  | 0x10000 => s.belayStat
  | 0x10004 => s.count % 2 ^ 32
  | 0x10008 => s.count / 2 ^ 32 % 2 ^ 32
  | 0x20000 => s.imgStat
  | 0x20004 => if s.power.st = .held ∧ s.power.cause = 6 then s.power.check else 0
  | 0x20008 => s.img.staging.progress / 4096
  | 0x20020 => (if s.img.loaded then s.img.seq else 0) % 2 ^ 32
  | 0x20024 => (if s.img.loaded then s.img.seq else 0) / 2 ^ 32 % 2 ^ 32
  | _ => if off = 0x2000C then 0 else s.reg off

/-- Registers of group queue `g` (Table 14-17). -/
def State.readGroup (s : State) (g i : Nat) : Nat :=
  let q := s.groupQ g
  match i with
  | 4 => q.st + q.refuse * 2 ^ 2 + q.last * 2 ^ 8
  | 8 => q.done
  | 0xC => q.pitch % 2 ^ 16
  | _ => 0

/-- Registers of ground queue `q` (Table 14-18). -/
def State.readGround (s : State) (q i : Nat) : Nat :=
  let g := s.groundQ q
  match i with
  | 0x04 => g.st.code + ofBool g.suspPending * 2 ^ 4 + g.armErr * 2 ^ 5 + g.lastFail % 256 * 2 ^ 8 + g.head * 2 ^ 16
  | 0x08 => g.tail
  | 0x0C => g.seq
  | 0x10 => g.doneCount
  | 0x14 => g.errCount
  | _ => if 0x20 ≤ i then nth g.desc ((i - 0x20) / 4) 0 else 0

/-- Registers of slice `sl` (Table 14-20). -/
def State.readSlice (s : State) (sl i : Nat) : Nat :=
  let x := s.slice sl
  let c := s.ctx sl x.ctxSel
  match i with
  | 0 => (if x.clearing then 2 else if x.fenced then 1 else 0) + x.lastPin % 2 ^ 16 * 2 ^ 16
  | 4 => x.ctxSel + ofBool (c.disable && !c.enableDue) * 2 ^ 31
  | 8 => c.gen % 64 + c.cur.getD 0 * 2 ^ 6 + ofBool c.cur.isNone * 2 ^ 8 + Nat.min 4 c.missed * 2 ^ 12
  | _ => 0

/-- FAIL and STATE of a link (Table 14-21). -/
def Link.stat (l : Link) : Nat := l.st.code + (if l.st = .failed then l.fail * 2 ^ 3 else 0)

/-- Registers of ports, paths, brides and the carriage (Table 14-21). -/
def State.readPort (s : State) (off : Nat) : Nat :=
  if off < 0x102400 then
    let p := (off - 0x100000) / 0x100
    let q := s.port p
    match off % 0x100 with
    | 0x00 => ofBool (q.disable && !q.enableDue) * 2
    | 0x04 => if p ≥ 32 then q.link.stat else q.link.stat + q.link.bridges % 16 * 2 ^ 7 + q.link.passed % 16 * 2 ^ 11 + q.link.peer * 2 ^ 16
    | 0x08 => if p ≥ 32 then 0 else q.link.hm % 2 ^ 16 + q.link.lambda.getD 0 % 2 ^ 16 * 2 ^ 16
    | _ => s.reg off
  else if 0x104000 ≤ off ∧ off < 0x104200 then
    let l := s.path ((off - 0x104000) / 0x80) (off % 0x80 / 4)
    l.stat + l.hm % 2 ^ 16 * 2 ^ 16
  else if 0x105000 ≤ off ∧ off < 0x105080 then
    let b := s.bride ((off - 0x105000) / 0x10)
    match off % 0x10 with
    | 0 => ofBool b.openEn
    | 4 => b.atCount % 2 ^ 32
    | 8 => b.atCount / 2 ^ 32
    | _ => (if b.st = .isOpen then 0 else 1) + ofBool (b.openEn && b.st != .isOpen) * 2 ^ 2
  else if off = 0x106000 ∨ off = 0x106004 then s.reg off
  else 0

/-- Registers of the anchor block (Table 14-22); ANC_FLAG_POP has a read of its own. -/
def State.readAnchors (s : State) (off : Nat) : Nat :=
  match off with
  | 0x200000 => s.anc.sel
  | 0x200008 => s.anc.op + s.anc.reason * 2 ^ 3 + s.anc.index * 2 ^ 16
  | _ =>
    if 0x200010 ≤ off ∧ off < 0x200030 then (s.anchor s.anc.sel).word ((off - 0x200010) / 4)
    else if off = 0x200030 ∨ off = 0x200034 then s.reg off
    else 0

/-- Registers of the update stations (Table 14-23). -/
def State.readStations (s : State) (off : Nat) : Nat :=
  let k := (off - 0x300000) / 0x100
  let x := s.station k
  if off ≥ 0x304000 then (if off ≤ 0x304008 then s.reg off else 0)
  else if k ≥ 24 then 0
  else if off % 0x100 = 0 then ofBool (x.disable && !x.enableDue)
  else if off % 0x100 = 4 then
    ofBool (s.resBusy [.station k]) + ofBool x.disable * 2 + (x.slots.filter (fun e => !e.2.missing)).length * 2 ^ 4
      + (x.slots.filter (fun e => e.2.missing)).length * 2 ^ 14
  else 0

/-- The ring or capture slot of an offset in CRN_CAP or CRN_REC, with the word read (R496). -/
def cairnSlot (off : Nat) : Option (Nat × Nat) :=
  if 0x400100 ≤ off ∧ off < 0x400100 + 23 * 32 then some (4096 + (off - 0x400100) / 32, off % 32 / 4)
  else if 0x410000 ≤ off ∧ off < 0x430000 then some ((off - 0x410000) / 32, off % 32 / 4)
  else none

/-- Registers of the cairn log and the counter block (R496, R497). -/
def State.readCairns (s : State) (off : Nat) : Nat :=
  match cairnSlot off with
  | some (slot, w) => nth (recordWords (s.cairn.at_ slot)) w 0
  | none =>
    match off with
    | 0x400000 => s.cairn.wr
    | 0x400004 => s.cairn.rd
    | 0x40000C => s.cairn.qdrop
    | 0x400010 => s.cairn.rdrop
    | 0x400014 => sumNat (((List.range 23).filter (fun i => (s.cairn.capture.find i).isSome)).map (2 ^ ·))
    | 0x400018 => s.reg off
    | 0x40001C => s.reg off
    | _ => if 0x440000 ≤ off ∧ off < 0x454000 then s.counters.get 0 (off - 0x440000) else 0

/-- log2 of the store's size, less 20 (Table 14-26). -/
def storeCap : Nat := Nat.log2 Config.storeSize - 20

/-- Registers of the management-only block that are plain reads (Table 14-26). -/
def State.readMgmt (s : State) (off : Nat) : Nat :=
  match off with
  | 0x50000C => s.mgmt.coordReg
  | 0x500060 =>
    s.power.storeMode + storeCap % 32 * 2 ^ 2 + ofBool s.power.key.isSome * 2 ^ 7
      + ofBool ((s.power.key.map (·.ownerOnly)).getD false) * 2 ^ 8 + ((s.power.key.map (·.kseq)).getD 0) % 2 ^ 16 * 2 ^ 16
  | 0x500070 => match s.mgmt.da with | some a => 2 ^ 7 + a % 2 ^ 7 | none => 0
  | 0x500080 => ((s.power.birth.map (·.serial)).getD 0) % 2 ^ 32
  | 0x500084 => ((s.power.birth.map (·.serial)).getD 0) / 2 ^ 32 % 2 ^ 32
  | _ => 0

/-- What a register holds, without the effects of reading it: 0 at an offset that no table assigns (R481). -/
def State.peek (s : State) (off : Nat) : Nat :=
  if coreOffset off ∧ !s.coreUp then 0
  else if off < 0x10000 then (if off ≤ 0xF0 then s.readGlobal off else 0)
  else if off < 0x20000 then (if off ≤ 0x10024 then s.readBelayImage off else 0)
  else if off < 0x30000 then (if off ≤ 0x20024 then s.readBelayImage off else 0)
  else if off < 0x31000 then s.readGroup ((off - 0x30000) / 0x10) (off % 0x10)
  else if off < 0x40000 then 0
  else if off < 0x50000 then s.readGround ((off - 0x40000) / 0x40) (off % 0x40)
  else if off ≤ 0x50008 then s.reg off
  else if off < 0x80000 then 0
  else if off < 0x100000 then s.readSlice ((off - 0x80000) / 0x10000) (off % 0x10000)
  else if off < 0x200000 then s.readPort off
  else if off < 0x300000 then s.readAnchors off
  else if off < 0x400000 then s.readStations off
  else if off < 0x500000 then s.readCairns off
  else if off < 0x600000 then s.readMgmt off
  else 0

/-- _LO registers whose value the engine updates: a read captures _HI (R483). -/
def capturing : List Nat := [0x20, 0x28, 0x80, 0x10004, 0x20020, 0x500080]

/-- The key of a captured half: offset of _HI and master. -/
def hiKey (m : Master) (hi : Nat) : Nat := hi * 2 + (match m with | .host => 0 | .mgmt => 1)

/-- A read of a supply register: NOW, MIN and WARN; MIN starts again from the current reading (Table 14-26). -/
def State.readSupply (s : State) (d : Nat) : State × Nat :=
  let v := nth s.power.now d 0 % 2 ^ 12 + nth s.power.low d 0 % 2 ^ 12 * 2 ^ 12 + ofBool (nth s.power.warn d false) * 2 ^ 24
  ({ s with power := { s.power with low := s.power.low.set d (nth s.power.now d 0) } }, v)

/-- A measured value that the manual does not fix, taken afresh (log 4). -/
def State.measured (s : State) (f : Nat → Nat) (bits : Nat) : State × Nat := ({ s with free := s.free + 1 }, f s.free % 2 ^ bits)

/-- A read of the management-only block by management. -/
def State.readMgmtReg (s : State) (off : Nat) : State × Nat :=
  if 0x500010 ≤ off ∧ off < 0x500030 then s.readSupply ((off - 0x500010) / 4)
  else if 0x500030 ≤ off ∧ off < 0x500050 then s.measured (Config.dieTemp ((off - 0x500030) / 4)) 16
  else if off = 0x500050 then s.measured Config.power 32
  else (s, s.peek off)

/-- A read of PARITY set is counted (R469). -/
def State.countParity (s : State) (off : Nat) : State :=
  match cairnSlot off with
  | some (slot, 4) => if flag (s.cairn.at_ slot) 148 then s.bump 0x3A4 noUnit 1 else s
  | _ => s

/-- A 32-bit register read by a master (R8, R11, R481 to R483): its value, and what reading changes. -/
def State.readReg (s : State) (m : Master) (off : Nat) : State × Nat :=
  if !s.power.standby ∨ off % 4 ≠ 0 then (s, 0)
  else if 0x500000 ≤ off ∧ off < 0x600000 ∧ m = .host then (s, 0)
  else if off = 0x200040 then (if s.coreUp then s.popFlag else (s, 0))
  else if off = 0x50010 then (if s.coreUp then s.popIrq else (s, 0))
  else if capturing.contains off then
    ({ s with hiCap := s.hiCap.put (hiKey m (off + 4)) (s.peek (off + 4)) }, s.peek off)
  else if (s.hiCap.find (hiKey m off)).isSome then
    ({ s with hiCap := s.hiCap.del (hiKey m off) }, s.hiCap.get 0 (hiKey m off))
  else if 0x500000 ≤ off ∧ off < 0x600000 then s.readMgmtReg off
  else (s.countParity off, s.peek off)

/-- The row REGISTER_READ: an access that is not an aligned 32-bit one returns 0 (R8). -/
def execRegisterRead (m : Master) (offset size : Nat) (s : State) : Host.Outcome State Fault Refusal :=
  answer s (if !s.power.standby then s
    else if size ≠ 4 then s.answerWith [0]
    else (s.readReg m offset).1.answerWith [(s.readReg m offset).2])

/-! ### Writes (R9 to R15, R482 to R486) -/

/-- Action bits of one write (R485): none, one that is performed, or several, which are counted. -/
def State.actions (s : State) (bits : List Nat) (v : Nat) (run : Nat → State) : State :=
  match bits.filter (flag v) with
  | [] => s
  | [b] => run b
  | _ => s.bump 0x384 noUnit 1

/-- GLB_CTL (Table 14-5): management that does not own the control plane reaches its open fields only (R485). -/
def State.writeGlbCtl (s : State) (m : Master) (v : Nat) : State :=
  let bits := if s.owns m then List.range 8 else if m = .mgmt then [4, 5, 6] else []
  if bits.filter (flag v) = [0, 1] then s.requestLaunch true
  else s.actions bits v (fun b =>
    match b with
    | 0 => s.requestLaunch false
    | 2 => s.cancelLaunch
    | 3 => s.requestStop
    | 4 => (s.requestBivouac (s.reg48 0x38) (s.reg64 0x88)).1
    | 5 => (s.setWake (s.reg64 0x88)).1
    | 6 => s.coreReset
    | 7 => if s.mgmtMissing then s.restartMgmt else s
    | _ => s)

/-- GLB_OWN: CLAIM and RELEASE, by the host only (Table 12-10). -/
def State.writeGlbOwn (s : State) (m : Master) (v : Nat) : State :=
  if m ≠ .host then s else s.actions [2, 3] v (fun b => if b = 2 then s.releaseOwner else s.claimOwner)

/-- IMG_CTL (Table 14-15). -/
def State.writeImgCtl (s : State) (v : Nat) : State :=
  s.actions (List.range 7) v (fun b =>
    match b with
    | 0 => s.ctlLoad (field v 9 8)
    | 1 => s.recover
    | 2 => s.hostStage
    | 3 => if !s.stages then s.imgRefuse 1 else if s.img.staging.byMgmt then s.imgRefuse 8 else s.abortStaging
    | 4 => s.prepare
    | 5 => s.rethread
    | _ => s.cancelRethread)

/-- GRQ_CTL (Table 14-18). -/
def State.writeGrqCtl (s : State) (q v : Nat) : State :=
  s.actions (List.range 7) v (fun b => s.queueEvent q (match b with
    | 0 => .arm | 1 => .disable | 2 => .suspend | 3 => .resume | 4 => .retry | 5 => .skip | _ => .reset))

/-- A field that keeps its value where an encoding is reserved (R13). -/
def keepUnless (ok : Bool) (new old : Nat) : Nat := if ok then new else old

/-- GLB_DPQ_CTL: RLOG2 of 8 to 15 is reserved. -/
def State.writeDpqCtl (s : State) (v : Nat) : State :=
  let n := keepUnless (decide (field v 3 0 < 8)) (field v 3 0) (field (s.reg 0xA4) 3 0)
  (s.setReg 0xA4 (ofBool (flag (s.reg 0xA4) 31) * 2 ^ 31 + n)).dpqDisable (flag v 31)

/-- The allowed range of a timer register, both ends included (Table 10-8). -/
def State.timerRange (s : State) (off : Nat) : Nat × Nat :=
  match off with
  | 0x50000 => (4096, 2 ^ 24)
  | 0x50004 => (1024, s.rto)
  | 0x50008 => (s.rto, 2 ^ 27)
  | 0x200030 => (4096, 2 ^ 24)
  | _ => (s.reg 0x200030, 2 ^ 26)

/-- A timer register: a value outside its range is a reserved encoding (R13). -/
def State.writeTimer (s : State) (off v : Nat) : State :=
  let r := s.timerRange off
  if r.1 ≤ v ∧ v ≤ r.2 then s.setReg off v else s

/-- PRT_ARB: a weight of 0 is a reserved encoding (R330). -/
def State.writeArb (s : State) (off v : Nat) : State :=
  let old := s.reg off
  s.setReg off (keepUnless (field v 7 0 != 0) (field v 7 0) (field old 7 0) + keepUnless (field v 15 8 != 0) (field v 15 8) (field old 15 8) * 2 ^ 8)

/-- PRT_CARR_CFG1: a VID of 0x000 or 0xFFF with TAG set is a reserved encoding (R494). -/
def State.writeCarr1 (s : State) (v : Nat) : State :=
  let old := s.reg 0x106004
  let vid := field v 12 1
  let bad := flag v 0 && (vid == 0 || vid == 0xFFF)
  s.setReg 0x106004 (field v 24 13 * 2 ^ 13 + field (if bad then old else v) 12 0)

/-- A register of access RW-L may be written: until image load completes (Table 0-5). -/
def State.mayLocked (s : State) (m : Master) : Bool := s.mayCore m false && !s.img.loaded

/-- The seeds, read at launch: writes in RUNNING have no effect. -/
def isSeed (off : Nat) : Bool := decide (0x60 ≤ off) && decide (off < 0x80)

/-- Mask of a register that only holds what its owner writes, and whether management may always write it; none for the others. -/
def plainMask (off : Nat) : Option (Nat × Bool) :=
  if isSeed off ∨ [0x30, 0xA8, 0xAC, 0xD8, 0xDC, 0xE8, 0xF0, 0x10010, 0x10014, 0x10018, 0x20010, 0x20014, 0x20018].contains off then
    some (2 ^ 32 - 1, false)
  else if [0x34, 0xD0, 0xEC, 0x1001C, 0x2001C].contains off then some (2 ^ 16 - 1, false)
  else if [0x38, 0x88, 0x8C].contains off then some (2 ^ 32 - 1, true)
  else if off = 0x3C then some (2 ^ 16 - 1, true)
  else if off = 0x400018 then some (0x7FFFFE, false)
  else if 0x100000 ≤ off ∧ off < 0x102400 ∧ off % 0x100 = 0xC then some (2 ^ 32 - 1, false)
  else none

/-- A plain register written. -/
def State.writePlain (s : State) (m : Master) (off mask : Nat) (isOpen : Bool) (v : Nat) : State :=
  if (if coreOffset off then s.mayCore m isOpen else s.may m isOpen) && !(isSeed off && s.isRunning) then s.setReg off (v &&& mask) else s

/-- Writes of the global block that are not plain. -/
def State.writeGlobal (s : State) (m : Master) (off v : Nat) : State :=
  let core := s.mayCore m false
  match off with
  | 0x08 => s.writeGlbCtl m v
  | 0x0C => if s.mayLocked m then s.setReg 0x0C (v % 2) else s
  | 0x10 => s.writeGlbOwn m v
  | 0x14 => if m = .host then s.hostBeat else s
  | 0x18 => if s.may m true then s.fenceMask (v % 256) (originator m) else s
  | 0x90 => if core then s.stepDoorbell else s
  | 0xA0 => if core then s.dpqDoorbell v else s
  | 0xA4 => if core then s.writeDpqCtl v else s
  | 0xC0 => if s.mayLocked m then s.setReg 0xC0 v else s
  | 0xC4 => if s.mayLocked m then s.setReg 0xC4 v else s
  | 0xCC => if core ∧ v < s.reg 0xC4 * 64 then s.setReg 0xCC v else s
  | 0xE0 => if s.may m false then s.clearIrq v else s
  | 0xE4 => if s.may m false then s.enableIrq v else s
  | _ => s

/-- Writes of the belay, image, group, ground and slice blocks that are not plain. -/
def State.writeQueues (s : State) (m : Master) (off v : Nat) : State :=
  let core := s.mayCore m false
  if off = 0x10020 ∨ off = 0x10024 then (if m = .mgmt then s.setReg off v else s)
  else if off = 0x2000C then (if s.may m false then s.writeImgCtl v else s)
  else if off < 0x30000 then s
  else if off < 0x31000 then
    (if core ∧ off % 0x10 = 0 then
      let g := (off - 0x30000) / 0x10
      s.actions [0, 1] v (fun b => if b = 0 then s.armGroup g else s.disarmGroup g)
     else s)
  else if off < 0x40000 then s
  else if off < 0x50000 then
    let q := (off - 0x40000) / 0x40
    let i := off % 0x40
    if !core then s
    else if i = 0 then s.writeGrqCtl q v
    else if i = 8 then s.queueDoorbell q (v % 2 ^ 16)
    else if i = 0xC then s.writeDesc q 8 v
    else if 0x20 ≤ i then s.writeDesc q ((i - 0x20) / 4) v
    else s
  else if off ≤ 0x50008 then (if core then s.writeTimer off v else s)
  else if 0x80000 ≤ off ∧ off < 0x100000 ∧ off % 0x10000 = 4 then
    (if core then s.writeCodeCtl ((off - 0x80000) / 0x10000) (field v 6 0) (flag v 31) else s)
  else s

/-- PRT_CTL: DISABLE by the owner, RETRAIN open to management as a reset (R485). -/
def State.writePrtCtl (s : State) (m : Master) (p v : Nat) : State :=
  let s := if s.mayCore m false then s.disablePort p (flag v 1) else s
  if s.mayCore m true ∧ flag v 0 then s.retrain p else s

/-- Writes of the port and bride block that are not plain. -/
def State.writePorts (s : State) (m : Master) (off v : Nat) : State :=
  if off < 0x102400 then
    let p := (off - 0x100000) / 0x100
    if off % 0x100 = 0 then s.writePrtCtl m p v
    else if off % 0x100 = 0x10 then (if s.mayCore m false then s.writeArb off v else s)
    else s
  else if 0x105000 ≤ off ∧ off < 0x105080 then (if s.may m true then s.writeBride ((off - 0x105000) / 0x10) (off % 0x10 / 4) v else s)
  else if off = 0x106000 then (if s.mayLocked m then s.setReg off v else s)
  else if off = 0x106004 then (if s.mayLocked m then s.writeCarr1 v else s)
  else s

/-- Writes of the anchor block. -/
def State.writeAnchors (s : State) (m : Master) (off v : Nat) : State :=
  if !s.mayCore m false then s
  else if off = 0x200000 then { s with anc := { s.anc with sel := v % 2 ^ 16 } }
  else if off = 0x200004 then s.actions [0, 1, 2] v (fun b => s.startAnchorOp (b + 1))
  else if 0x200010 ≤ off ∧ off < 0x200030 then s.writeAnchor ((off - 0x200010) / 4) v
  else if off = 0x200030 ∨ off = 0x200034 then s.writeTimer off v
  else s

/-- Writes of the cairn block that are not plain. -/
def State.writeCairns (s : State) (m : Master) (off v : Nat) : State :=
  match off with
  | 0x400004 => if s.may m true then s.setCrnRd (v % 8192) else s
  | 0x400008 =>
    if s.may m true then s.actions [0, 1, 2] v (fun b => if b = 0 then s.clearOverflow else if b = 1 then s.clearLog else s.clearCounters) else s
  | 0x400014 => if s.may m true then s.clearCaptures v else s
  | 0x40001C => if m = .mgmt then s.setReg off (v &&& 0x7FFFFE) else s
  | _ => s

/-- Writes of the management-only block, by management (R11, R499). -/
def State.writeMgmt (s : State) (off v : Nat) : State :=
  match off with
  | 0x500000 => s.actions [0, 1] v (fun b => if b = 0 then s.seizeOwner.1 else s.returnOwner.1)
  | 0x500004 => s.unfenceMask (v % 256)
  | 0x500008 => s.mgmtBeat
  | 0x50000C => { s with mgmt := { s.mgmt with coordReg := v % 2 ^ 17 } }
  | _ => s

/-- A 32-bit register written by a master (R8 to R13). -/
def State.writeReg (s : State) (m : Master) (off v : Nat) : State :=
  if !s.power.standby ∨ off % 4 ≠ 0 then s
  else
    match plainMask off with
    | some (mask, isOpen) => s.writePlain m off mask isOpen v
    | none =>
      if off < 0x10000 then s.writeGlobal m off v
      else if off < 0x100000 then s.writeQueues m off v
      else if off < 0x200000 then s.writePorts m off v
      else if off < 0x300000 then s.writeAnchors m off v
      else if off < 0x400000 then
        (if s.mayCore m false ∧ off < 0x301800 ∧ off % 0x100 = 0 then s.disableStation ((off - 0x300000) / 0x100) (flag v 0) else s)
      else if off < 0x500000 then s.writeCairns m off v
      else if off < 0x600000 ∧ m = .mgmt then s.writeMgmt off v
      else s

/-- The row REGISTER_WRITE: an access that is not an aligned 32-bit one has no effect (R8). -/
def execRegisterWrite (m : Master) (offset size : Nat) (value : Word) (s : State) : Host.Outcome State Fault Refusal :=
  answer s (if size ≠ 4 then s else s.writeReg m offset value.toNat)

end Sys2Proof.Machine
end

