-- ==== Sys2Proof/Machine/Igvaelo.lean ====
section
/-! DEFINITION. The rest of Igvaelo: the vendor commands that read, write and transfer the registers (R448, Table 12-11), the MCTP control
commands (R446), PLDM (R447) and the I3C common command codes (R445). Replies are a completion code and data in `out.reply`. -/

namespace Sys2Proof.Machine

/-- A row of Igvaelo acts while the standby supply is there (R35). -/
def State.onBus (s : State) (f : State → State) : Host.Outcome State Fault Refusal := answer s (if s.power.standby then f s else s)

/-- A reply that changes nothing else. -/
def State.replied (s : State) (ws : List Nat) : Host.Outcome State Fault Refusal := s.onBus (·.answerWith ws)

/-! ### Vendor commands (Table 12-11) -/

/-- REG-READ: 1 to 16 registers from an offset, read as management. -/
def State.regRead (s : State) (off n : Nat) : State :=
  if n = 0 ∨ n > 16 then s.answerWith [3]
  else
    let r := (List.range n).foldl (fun (a : State × List Nat) i =>
      let x := a.1.readReg .mgmt (off + 4 * i)
      (x.1, a.2 ++ [x.2])) (s, [])
    r.1.answerWith (0 :: r.2)

/-- The row REG_READ. -/
def execRegRead (offset count : Nat) (s : State) : Host.Outcome State Fault Refusal := s.onBus (fun s => s.regRead offset count)

/-- The row REG_WRITE: a write without effect also completes (R9). -/
def execRegWrite (offset : Nat) (value : Word) (s : State) : Host.Outcome State Fault Refusal :=
  s.onBus (fun s => (s.writeReg .mgmt offset value.toNat).answerWith [0])

/-- The row SEIZE: REFUSED where its condition does not hold (R441). -/
def execSeize (s : State) : Host.Outcome State Fault Refusal :=
  s.onBus (fun s => s.seizeOwner.1.answerWith [if s.seizeOwner.2 then 0 else 1])

/-- The row IGVAELO_RETURN: REFUSED where the owner is not MGMT. -/
def execIgvaeloReturn (s : State) : Host.Outcome State Fault Refusal :=
  s.onBus (fun s => s.returnOwner.1.answerWith [if s.returnOwner.2 then 0 else 1])

/-! ### MCTP control (R446) -/

/-- Set Endpoint ID: the null and the broadcast ID are invalid data, code 2. -/
def State.setEid (s : State) (eid : Nat) : State :=
  if eid = 0 ∨ eid ≥ 255 then s.answerWith [2] else State.answerWith { s with mgmt := { s.mgmt with eid := eid } } [0, eid]

/-- The row SET_ENDPOINT_ID. -/
def execSetEndpointId (eid : Nat) (s : State) : Host.Outcome State Fault Refusal := s.onBus (fun s => s.setEid eid)

/-- The row GET_ENDPOINT_ID. -/
def execGetEndpointId (s : State) : Host.Outcome State Fault Refusal := s.replied [0, s.mgmt.eid]

/-- The row GET_ENDPOINT_UUID. -/
def execGetEndpointUuid (s : State) : Host.Outcome State Fault Refusal := s.replied (0 :: Config.endpointUuid.map BitVec.toNat)

/-- The row GET_MCTP_VERSION_SUPPORT. -/
def execGetMctpVersionSupport (s : State) : Host.Outcome State Fault Refusal := s.replied (0 :: Config.mctpVersions.map BitVec.toNat)

/-- The row GET_MESSAGE_TYPE_SUPPORT: three types, control (0), PLDM (1) and vendor-defined by IANA number (0x7F). -/
def execGetMessageTypeSupport (s : State) : Host.Outcome State Fault Refusal := s.replied [0, 3, 0, 1, 0x7F]

/-- The row GET_VENDOR_DEFINED_MESSAGE_SUPPORT: Koldetor's IANA enterprise number. -/
def execGetVendorDefinedMessageSupport (s : State) : Host.Outcome State Fault Refusal := s.replied [0, Config.ianaNumber]

/-! ### PLDM base (R447) -/

/-- The row GET_TID. -/
def execGetTid (s : State) : Host.Outcome State Fault Refusal := s.replied [0, s.mgmt.tid]

/-- SetTID: 0 and 255 are invalid data, code 2. -/
def State.setTid (s : State) (tid : Nat) : State :=
  if tid = 0 ∨ tid ≥ 255 then s.answerWith [2] else State.answerWith { s with mgmt := { s.mgmt with tid := tid } } [0]

/-- The row SET_TID. -/
def execSetTid (tid : Nat) (s : State) : Host.Outcome State Fault Refusal := s.onBus (fun s => s.setTid tid)

/-- The row GET_PLDM_VERSION: of types 0 and 2; another is an invalid type, code 0x83. -/
def execGetPldmVersion (type : Nat) (s : State) : Host.Outcome State Fault Refusal :=
  s.replied (if type = 0 ∨ type = 2 then [0, Config.pldmVersion type] else [0x83])

/-- The row GET_PLDM_TYPES: types 0 and 2. -/
def execGetPldmTypes (s : State) : Host.Outcome State Fault Refusal := s.replied [0, 5]

/-- Command codes of a PLDM type that the engine supports. -/
def pldmCommands (type : Nat) : List Nat :=
  if type = 0 then [0x01, 0x02, 0x03, 0x04, 0x05] else if type = 2 then [0x04, 0x0A, 0x11, 0x21, 0x39, 0x50, 0x51] else []

/-- The row GET_PLDM_COMMANDS: one bit for each command code. -/
def execGetPldmCommands (type : Nat) (s : State) : Host.Outcome State Fault Refusal :=
  s.replied (if pldmCommands type = [] then [0x83] else [0, sumNat ((pldmCommands type).map (2 ^ ·))])

/-! ### PLDM monitoring and control (R447) -/

/-- The row GET_PDR_REPOSITORY_INFO. -/
def execGetPdrRepositoryInfo (s : State) : Host.Outcome State Fault Refusal := s.replied [0, Config.pdrCount]

/-- The row GET_PDR: a record that there is none of is an invalid handle, code 0x82. -/
def execGetPdr (record : Nat) (s : State) : Host.Outcome State Fault Refusal :=
  s.replied (if record < Config.pdrCount then 0 :: (Config.pdr record).map BitVec.toNat else [0x82])

/-- A numeric sensor: the core rail of a die as the monitor last read it; temperature and power are measured afresh (log 4). -/
def State.numeric (s : State) (x : NumSensor) : State :=
  match x with
  | .coreRail d => if d < 8 then s.answerWith [0, nth s.power.now d 0] else s.answerWith [0x80]
  | .dieTemp d =>
    if d < 8 then
      let r := s.measured (Config.dieTemp d) 16
      r.1.answerWith [0, r.2]
    else s.answerWith [0x80]
  | .power =>
    let r := s.measured Config.power 32
    r.1.answerWith [0, r.2]

/-- The row GET_SENSOR_READING. -/
def execGetSensorReading (sensor : NumSensor) (s : State) : Host.Outcome State Fault Refusal := s.onBus (fun s => s.numeric sensor)

/-- A state sensor's present state. -/
def State.sensed (s : State) (x : StateSensor) : Nat :=
  match x with
  | .globalState => s.power.st.code
  | .belayState => s.belay.st.code
  | .owner => s.mgmt.owner.code

/-- The row GET_STATE_SENSOR_READINGS. -/
def execGetStateSensorReadings (sensor : StateSensor) (s : State) : Host.Outcome State Fault Refusal := s.replied [0, s.sensed sensor]

/-- An effecter set: a bride's opening enabled or not; a slice fenced, or its fence cleared as R25 allows. -/
def State.effect (s : State) (e : Effecter) (on : Bool) : State :=
  match e with
  | .bride r => if r < 8 then (s.onBride r (fun b => { b with openEn := on })).answerWith [0] else s.answerWith [0x80]
  | .fence i =>
    if i ≥ 8 then s.answerWith [0x80]
    else if on then (s.fence i 2 0).answerWith [0]
    else (s.unfenceMask (2 ^ i)).answerWith [if s.mayUnfence then 0 else 1]

/-- The row SET_STATE_EFFECTER_STATES. -/
def execSetStateEffecterStates (effecter : Effecter) (on : Bool) (s : State) : Host.Outcome State Fault Refusal :=
  s.onBus (fun s => s.effect effecter on)

/-- The row SET_EVENT_RECEIVER. -/
def execSetEventReceiver (receiver : Nat) (s : State) : Host.Outcome State Fault Refusal :=
  s.onBus (fun s => State.answerWith { s with mgmt := { s.mgmt with receiver := receiver } } [0])

/-! ### I3C common command codes (R445) -/

/-- The management state changed by a common command code. -/
def State.onMgmt (s : State) (f : Mgmt → Mgmt) : State := { s with mgmt := f s.mgmt }

/-- The row ENEC: `events` holds the events that are disabled. -/
def execEnec (mask : Byte) (s : State) : Host.Outcome State Fault Refusal :=
  s.onBus (·.onMgmt (fun m => { m with events := clearMask m.events mask.toNat }))

/-- The row DISEC. -/
def execDisec (mask : Byte) (s : State) : Host.Outcome State Fault Refusal :=
  s.onBus (·.onMgmt (fun m => { m with events := m.events ||| mask.toNat }))

/-- The row RSTDAA. -/
def execRstdaa (s : State) : Host.Outcome State Fault Refusal := s.onBus (·.onMgmt (fun m => { m with da := none }))

/-- The row ENTDAA: a target without a dynamic address takes the one assigned. -/
def execEntdaa (address : Nat) (s : State) : Host.Outcome State Fault Refusal :=
  s.onBus (·.onMgmt (fun m => if m.da.isNone then { m with da := some (address % 128) } else m))

/-- SETDASA addressed to SADDR assigns the address (R445, Table 12-5). -/
def State.setdasa (s : State) (static address : Nat) : State :=
  if s.power.birth.any (fun b => b.saddr == static) ∧ s.mgmt.da.isNone then s.onMgmt (fun m => { m with da := some (address % 128) }) else s

/-- The row SETDASA. -/
def execSetdasa (static address : Nat) (s : State) : Host.Outcome State Fault Refusal := s.onBus (fun s => s.setdasa static address)

/-- The row SETMWL: at most 69 bytes. -/
def execSetmwl (length : Nat) (s : State) : Host.Outcome State Fault Refusal := s.onBus (·.onMgmt (fun m => { m with mwl := Nat.min 69 length }))

/-- The row SETMRL: at most 69 bytes. -/
def execSetmrl (length : Nat) (s : State) : Host.Outcome State Fault Refusal := s.onBus (·.onMgmt (fun m => { m with mrl := Nat.min 69 length }))

/-- The row GETMWL. -/
def execGetmwl (s : State) : Host.Outcome State Fault Refusal := s.replied [s.mgmt.mwl]

/-- The row GETMRL. -/
def execGetmrl (s : State) : Host.Outcome State Fault Refusal := s.replied [s.mgmt.mrl]

/-- GETPID: PID of the birth record; before it has been read the value is free (log 4). -/
def State.pid (s : State) : State :=
  match s.power.birth with
  | some b => s.answerWith [b.pid]
  | none => s.fresh.2.answerWith [s.fresh.1 % 2 ^ 48]

/-- The row GETPID. -/
def execGetpid (s : State) : Host.Outcome State Fault Refusal := s.onBus State.pid

/-- The row GETBCR. -/
def execGetbcr (s : State) : Host.Outcome State Fault Refusal := s.replied [Config.bcr % 2 ^ 8]

/-- The row GETDCR. -/
def execGetdcr (s : State) : Host.Outcome State Fault Refusal := s.replied [Config.dcr % 2 ^ 8]

/-- The row GETSTATUS: the manual does not say what the status word holds; it is free (log 4). -/
def execGetstatus (s : State) : Host.Outcome State Fault Refusal := s.onBus (fun s => s.fresh.2.answerWith [s.fresh.1 % 2 ^ 16])

/-- The row RSTACT. -/
def execRstact (action : Byte) (s : State) : Host.Outcome State Fault Refusal :=
  s.onBus (·.onMgmt (fun m => { m with rstAction := action.toNat }))

end Sys2Proof.Machine
end

