-- ==== Sys2Proof/Machine/Tiles.lean ====
section
/-! DEFINITION. Tiles at the ingress ports: GRADIENT_TILE (R78 to R81) and TOKEN_TILE (R240, R243). The header's KIND says which a tile is,
whichever row brings it. -/

namespace Sys2Proof.Machine

/-- The recorded INTAKE items of a block that its tiles of the step have not met yet (Table 11-12). -/
def State.intakeLeft (s : State) (t b : Nat) : List Nat :=
  let key := t + b * 2 ^ 20
  let mine := fun (xs : List (List Byte)) => (xs.map leNat).filter (fun v => v % 2 ^ 46 = key)
  (mine s.req.replayIntake).drop (mine s.srec.intake).length

/-- An INTAKE item is of this tile: its micro-batch, and whether its tag is earlier. -/
def intakeMatches (h : TileHead) (earlier : Bool) (item : Nat) : Bool := field item 53 46 == h.mb && flag item 55 == earlier

/-- A gradient tile; in replay mode, tiles of a block whose order is recorded are taken in that order (Table 11-12). The flag
says whether the tile was taken; one that was not waits. -/
def State.orderedTile (s : State) (x : Nat × BitVec 128 × List Byte) : State × Bool :=
  let h := TileHead.parse x.2.1
  let earlier := tagOrder h.tag s.seq.step == .earlier
  let left := s.intakeLeft h.tensor h.block
  if s.req.replay && s.srec.step == s.seq.step && left.any (intakeMatches h earlier) && !(left.headD 0 |> intakeMatches h earlier) then (s, false)
  else (s.gradientTile x.1 h x.2.2, true)

/-- Waiting tiles are taken while one of them can be. -/
def State.waitingTiles (s : State) : Nat → State
  | 0 => s
  | fuel + 1 =>
    match s.req.replayWait.find? (fun x => (s.orderedTile x).2) with
    | none => s
    | some x =>
      State.waitingTiles (State.orderedTile { s with req := { s.req with replayWait := s.req.replayWait.erase x } } x).1 fuel

/-- A gradient tile, then the tiles that waited for it. -/
def State.tileInOrder (s : State) (x : Nat × BitVec 128 × List Byte) : State :=
  let r := s.orderedTile x
  if r.2 then r.1.waitingTiles r.1.req.replayWait.length
  else { s with req := { s.req with replayWait := s.req.replayWait ++ [x] } }

/-- A tile at the ingress port of slice `sl`: nothing happens without core power, and a tile that comes outside RUNNING or to a fenced
slice is discarded and counted (Table 14-25). -/
def State.tile (s : State) (sl : Nat) (header : BitVec 128) (payload : List Byte) : State :=
  if !s.coreUp ∨ sl ≥ 8 then s
  else if !s.isRunning ∨ (s.slice sl).fenced then s.bump 0x3A0 noUnit 1
  else
    let h := TileHead.parse header
    if h.kind = 1 then s.tokenTile sl (TokHead.parse header) payload else s.tileInOrder (sl, header, payload)

/-- The row GRADIENT_TILE. -/
def execGradientTile (port : Nat) (header : BitVec 128) (payload : List Byte) (s : State) : Host.Outcome State Fault Refusal :=
  answer s (s.tile port header payload)

/-- The row TOKEN_TILE. -/
def execTokenTile (port : Nat) (header : BitVec 128) (payload : List Byte) (s : State) : Host.Outcome State Fault Refusal :=
  answer s (s.tile port header payload)

end Sys2Proof.Machine
end

