-- ==== Sys2Proof/Machine/Dispatch.lean ====
section
/-! DEFINITION. `exec`: the meaning of each command, one arm per constructor. -/

namespace Sys2Proof.Machine

/-- What a command does, to everything but the queue. -/
def exec (i : Instr) (s : State) : Host.Outcome State Fault Refusal :=
  match i with
  | .standbyPowerOn => Sys2Proof.Machine.execStandbyPowerOn s
  | .standbySupplyLoss => Sys2Proof.Machine.execStandbySupplyLoss s
  | .coreRailUp => Sys2Proof.Machine.execCoreRailUp s
  | .hbmReady => Sys2Proof.Machine.execHbmReady s
  | .loadPhaseTimeout phase => Sys2Proof.Machine.execLoadPhaseTimeout phase s
  | .coreRailWarningDip die mv => Sys2Proof.Machine.execCoreRailWarningDip die mv s
  | .supplyWarningClear die => Sys2Proof.Machine.execSupplyWarningClear die s
  | .coreRailResetLevel die mv => Sys2Proof.Machine.execCoreRailResetLevel die mv s
  | .coreReset => Sys2Proof.Machine.execCoreReset s
  | .managementRestart => Sys2Proof.Machine.execManagementRestart s
  | .firmwareWatchdog => Sys2Proof.Machine.execFirmwareWatchdog s
  | .belayTick => Sys2Proof.Machine.execBelayTick s
  | .stepOrigin => Sys2Proof.Machine.execStepOrigin s
  | .bivouacQueuesQuiet => Sys2Proof.Machine.execBivouacQueuesQuiet s
  | .launchCountReached => Sys2Proof.Machine.execLaunchCountReached s
  | .wakeBegin => Sys2Proof.Machine.execWakeBegin s
  | .wakeFailed => Sys2Proof.Machine.execWakeFailed s
  | .wakeComplete => Sys2Proof.Machine.execWakeComplete s
  | .nop stream => Sys2Proof.Machine.execNop stream s
  | .sendData stream => Sys2Proof.Machine.execSendData stream s
  | .sendForwardWindow stream => Sys2Proof.Machine.execSendForwardWindow stream s
  | .sendPrusikAnswerWindow stream => Sys2Proof.Machine.execSendPrusikAnswerWindow stream s
  | .sendArmGroundQueue stream => Sys2Proof.Machine.execSendArmGroundQueue stream s
  | .memorySourcedSend stream => Sys2Proof.Machine.execMemorySourcedSend stream s
  | .expect stream => Sys2Proof.Machine.execExpect stream s
  | .reduce stream => Sys2Proof.Machine.execReduce stream s
  | .requant stream => Sys2Proof.Machine.execRequant stream s
  | .deliverToStation stream => Sys2Proof.Machine.execDeliverToStation stream s
  | .deliverToHbm stream => Sys2Proof.Machine.execDeliverToHbm stream s
  | .deliverToComputeScratch stream => Sys2Proof.Machine.execDeliverToComputeScratch stream s
  | .deliverToHeatTable stream => Sys2Proof.Machine.execDeliverToHeatTable stream s
  | .deliverCopy stream => Sys2Proof.Machine.execDeliverCopy stream s
  | .select stream => Sys2Proof.Machine.execSelect stream s
  | .selectWide stream => Sys2Proof.Machine.execSelectWide stream s
  | .heat stream => Sys2Proof.Machine.execHeat stream s
  | .heatSettle stream => Sys2Proof.Machine.execHeatSettle stream s
  | .survey stream => Sys2Proof.Machine.execSurvey stream s
  | .surveyCarried stream => Sys2Proof.Machine.execSurveyCarried stream s
  | .encode stream => Sys2Proof.Machine.execEncode stream s
  | .decode stream => Sys2Proof.Machine.execDecode stream s
  | .picotL0Round stream => Sys2Proof.Machine.execPicotL0Round stream s
  | .picotPackageRound stream => Sys2Proof.Machine.execPicotPackageRound stream s
  | .routePass stream => Sys2Proof.Machine.execRoutePass stream s
  | .forwardSend stream => Sys2Proof.Machine.execForwardSend stream s
  | .backwardSend stream => Sys2Proof.Machine.execBackwardSend stream s
  | .returnPin stream => Sys2Proof.Machine.execReturnPin stream s
  | .update stream => Sys2Proof.Machine.execUpdate stream s
  | .openPin stream => Sys2Proof.Machine.execOpenPin stream s
  | .gate stream => Sys2Proof.Machine.execGate stream s
  | .seal stream => Sys2Proof.Machine.execSeal stream s
  | .pinCompletion err => Sys2Proof.Machine.execPinCompletion err s
  | .sealCompletion => Sys2Proof.Machine.execSealCompletion s
  | .decisionTick slice unit => Sys2Proof.Machine.execDecisionTick slice unit s
  | .pitchCutoff pitch => Sys2Proof.Machine.execPitchCutoff pitch s
  | .prusikCutoff pitch => Sys2Proof.Machine.execPrusikCutoff pitch s
  | .tokenWindowCutoff pitch => Sys2Proof.Machine.execTokenWindowCutoff pitch s
  | .returnCutoff pitch => Sys2Proof.Machine.execReturnCutoff pitch s
  | .gateWaitTimeout stream => Sys2Proof.Machine.execGateWaitTimeout stream s
  | .gatedPinReady stream => Sys2Proof.Machine.execGatedPinReady stream s
  | .gradientTile port header payload => Sys2Proof.Machine.execGradientTile port header payload s
  | .tokenTile port header payload => Sys2Proof.Machine.execTokenTile port header payload s
  | .flit port bytes corrected uncorrectable => Sys2Proof.Machine.execFlit port bytes corrected uncorrectable s
  | .nakResendTimer port => Sys2Proof.Machine.execNakResendTimer port s
  | .replayOnSilence port => Sys2Proof.Machine.execReplayOnSilence port s
  | .linkCorrWindow port => Sys2Proof.Machine.execLinkCorrWindow port s
  | .belayMarkerSend port => Sys2Proof.Machine.execBelayMarkerSend port s
  | .belayMarker port instant => Sys2Proof.Machine.execBelayMarker port instant s
  | .chunk port packet => Sys2Proof.Machine.execChunk port packet s
  | .prusikReq port packet => Sys2Proof.Machine.execPrusikReq port packet s
  | .prusikRequestSend port => Sys2Proof.Machine.execPrusikRequestSend port s
  | .tokens port packet => Sys2Proof.Machine.execTokens port packet s
  | .ident port packet => Sys2Proof.Machine.execIdent port packet s
  | .measure port packet held => Sys2Proof.Machine.execMeasure port packet held s
  | .measureReply port packet cycle => Sys2Proof.Machine.execMeasureReply port packet cycle s
  | .belay port packet => Sys2Proof.Machine.execBelay port packet s
  | .belayPacketSend port => Sys2Proof.Machine.execBelayPacketSend port s
  | .credit port packet => Sys2Proof.Machine.execCredit port packet s
  | .creditSend port => Sys2Proof.Machine.execCreditSend port s
  | .groundPacketSend port => Sys2Proof.Machine.execGroundPacketSend port s
  | .carriageFrame port bytes => Sys2Proof.Machine.execCarriageFrame port bytes s
  | .ackonlySend port peerW => Sys2Proof.Machine.execAckonlySend port peerW s
  | .syncSend port => Sys2Proof.Machine.execSyncSend port s
  | .delayReqSend port => Sys2Proof.Machine.execDelayReqSend port s
  | .sync msg => Sys2Proof.Machine.execSync msg s
  | .followUp msg => Sys2Proof.Machine.execFollowUp msg s
  | .delayReq msg => Sys2Proof.Machine.execDelayReq msg s
  | .delayResp msg => Sys2Proof.Machine.execDelayResp msg s
  | .pmdTrainingDone port outcome => Sys2Proof.Machine.execPmdTrainingDone port outcome s
  | .flitLock port locked => Sys2Proof.Machine.execFlitLock port locked s
  | .lossOfLock port => Sys2Proof.Machine.execLossOfLock port s
  | .lossOfSignal port => Sys2Proof.Machine.execLossOfSignal port s
  | .portFailedRetry port peerW => Sys2Proof.Machine.execPortFailedRetry port peerW s
  | .brideClose pair => Sys2Proof.Machine.execBrideClose pair s
  | .brideOpen pair => Sys2Proof.Machine.execBrideOpen pair s
  | .bridePassFlit pair fromOdd bytes => Sys2Proof.Machine.execBridePassFlit pair fromOdd bytes s
  | .belayHoldover => Sys2Proof.Machine.execBelayHoldover s
  | .belayStall => Sys2Proof.Machine.execBelayStall s
  | .belayAcquireLock upstream => Sys2Proof.Machine.execBelayAcquireLock upstream s
  | .belayRelock candidate upstream => Sys2Proof.Machine.execBelayRelock candidate upstream s
  | .belayStallResume upstream => Sys2Proof.Machine.execBelayStallResume upstream s
  | .belayCandidateChange upstream => Sys2Proof.Machine.execBelayCandidateChange upstream s
  | .referenceInputLost => Sys2Proof.Machine.execReferenceInputLost s
  | .referenceInputPresent => Sys2Proof.Machine.execReferenceInputPresent s
  | .formationExchangeDone group maxima => Sys2Proof.Machine.execFormationExchangeDone group maxima s
  | .formationTimeout group => Sys2Proof.Machine.execFormationTimeout group s
  | .write port packet => Sys2Proof.Machine.execWrite port packet s
  | .readReq port packet => Sys2Proof.Machine.execReadReq port packet s
  | .readResponderServe slice => Sys2Proof.Machine.execReadResponderServe slice s
  | .readResp port packet => Sys2Proof.Machine.execReadResp port packet s
  | .ack port packet => Sys2Proof.Machine.execAck port packet s
  | .messageSend queue => Sys2Proof.Machine.execMessageSend queue s
  | .rtoExpiry queue seq => Sys2Proof.Machine.execRtoExpiry queue seq s
  | .backoffExpiry queue seq => Sys2Proof.Machine.execBackoffExpiry queue seq s
  | .lifeExpiry queue seq => Sys2Proof.Machine.execLifeExpiry queue seq s
  | .trackerHoldExpiry key => Sys2Proof.Machine.execTrackerHoldExpiry key s
  | .trackerAgeExpiry key => Sys2Proof.Machine.execTrackerAgeExpiry key s
  | .anchorOperationDone => Sys2Proof.Machine.execAnchorOperationDone s
  | .fenceClearReinitDone slice clean => Sys2Proof.Machine.execFenceClearReinitDone slice clean s
  | .coalescingWindowClose cls source => Sys2Proof.Machine.execCoalescingWindowClose cls source s
  | .cairnEntry => Sys2Proof.Machine.execCairnEntry s
  | .stagingComplete => Sys2Proof.Machine.execStagingComplete s
  | .preparationComplete => Sys2Proof.Machine.execPreparationComplete s
  | .registerWrite m offset size value => Sys2Proof.Machine.execRegisterWrite m offset size value s
  | .glbCtlLaunch m replay => Sys2Proof.Machine.execGlbCtlLaunch m replay s
  | .glbCtlCancel m => Sys2Proof.Machine.execGlbCtlCancel m s
  | .glbCtlStop m => Sys2Proof.Machine.execGlbCtlStop m s
  | .glbCtlBivouac m => Sys2Proof.Machine.execGlbCtlBivouac m s
  | .glbCtlWake m => Sys2Proof.Machine.execGlbCtlWake m s
  | .glbCtlResetCore m => Sys2Proof.Machine.execGlbCtlResetCore m s
  | .glbCtlMgtRestart m => Sys2Proof.Machine.execGlbCtlMgtRestart m s
  | .glbOwnClaim m => Sys2Proof.Machine.execGlbOwnClaim m s
  | .glbOwnRelease m => Sys2Proof.Machine.execGlbOwnRelease m s
  | .glbHb m => Sys2Proof.Machine.execGlbHb m s
  | .glbFenceWrite m mask => Sys2Proof.Machine.execGlbFenceWrite m mask s
  | .glbStepDb m => Sys2Proof.Machine.execGlbStepDb m s
  | .glbDpqDb m tail => Sys2Proof.Machine.execGlbDpqDb m tail s
  | .glbDpqCtlDisable m disable => Sys2Proof.Machine.execGlbDpqCtlDisable m disable s
  | .glbIrqStatClear m mask => Sys2Proof.Machine.execGlbIrqStatClear m mask s
  | .glbIrqEnWrite m mask => Sys2Proof.Machine.execGlbIrqEnWrite m mask s
  | .ancFlagPop m => Sys2Proof.Machine.execAncFlagPop m s
  | .grqIrqPop m => Sys2Proof.Machine.execGrqIrqPop m s
  | .gqCtlArm m group => Sys2Proof.Machine.execGqCtlArm m group s
  | .gqCtlDisarm m group => Sys2Proof.Machine.execGqCtlDisarm m group s
  | .grqCtlArm m queue => Sys2Proof.Machine.execGrqCtlArm m queue s
  | .grqCtlDisable m queue => Sys2Proof.Machine.execGrqCtlDisable m queue s
  | .grqCtlSuspend m queue => Sys2Proof.Machine.execGrqCtlSuspend m queue s
  | .grqCtlResume m queue => Sys2Proof.Machine.execGrqCtlResume m queue s
  | .grqCtlRetry m queue => Sys2Proof.Machine.execGrqCtlRetry m queue s
  | .grqCtlSkip m queue => Sys2Proof.Machine.execGrqCtlSkip m queue s
  | .grqCtlReset m queue => Sys2Proof.Machine.execGrqCtlReset m queue s
  | .grqDb m queue tail => Sys2Proof.Machine.execGrqDb m queue tail s
  | .grqDescWrite m queue word value => Sys2Proof.Machine.execGrqDescWrite m queue word value s
  | .slcCodeCtlDisable m slice ctx disable => Sys2Proof.Machine.execSlcCodeCtlDisable m slice ctx disable s
  | .prtCtlRetrain m port => Sys2Proof.Machine.execPrtCtlRetrain m port s
  | .prtCtlDisable m port disable => Sys2Proof.Machine.execPrtCtlDisable m port disable s
  | .prtBrideCtlWrite m pair reg value => Sys2Proof.Machine.execPrtBrideCtlWrite m pair reg value s
  | .ancCtlArm m => Sys2Proof.Machine.execAncCtlArm m s
  | .ancCtlRevoke m => Sys2Proof.Machine.execAncCtlRevoke m s
  | .ancCtlDisarm m => Sys2Proof.Machine.execAncCtlDisarm m s
  | .ancEWrite m word value => Sys2Proof.Machine.execAncEWrite m word value s
  | .upsCtlDisable m station disable => Sys2Proof.Machine.execUpsCtlDisable m station disable s
  | .crnRdWrite m value => Sys2Proof.Machine.execCrnRdWrite m value s
  | .crnCtlOvfClr m => Sys2Proof.Machine.execCrnCtlOvfClr m s
  | .crnCtlClear m => Sys2Proof.Machine.execCrnCtlClear m s
  | .crnCtlCntClr m => Sys2Proof.Machine.execCrnCtlCntClr m s
  | .crnFecClr m mask => Sys2Proof.Machine.execCrnFecClr m mask s
  | .mgtOwnCtlSeize m => Sys2Proof.Machine.execMgtOwnCtlSeize m s
  | .mgtOwnCtlReturn m => Sys2Proof.Machine.execMgtOwnCtlReturn m s
  | .mgtUnfence m mask => Sys2Proof.Machine.execMgtUnfence m mask s
  | .mgtHb m => Sys2Proof.Machine.execMgtHb m s
  | .imgCtlLoad m copy => Sys2Proof.Machine.execImgCtlLoad m copy s
  | .imgCtlRecover m => Sys2Proof.Machine.execImgCtlRecover m s
  | .imgCtlStage m => Sys2Proof.Machine.execImgCtlStage m s
  | .imgCtlAbort m => Sys2Proof.Machine.execImgCtlAbort m s
  | .imgCtlPrepare m => Sys2Proof.Machine.execImgCtlPrepare m s
  | .imgCtlRethread m => Sys2Proof.Machine.execImgCtlRethread m s
  | .imgCtlCancel m => Sys2Proof.Machine.execImgCtlCancel m s
  | .regRead offset count => Sys2Proof.Machine.execRegRead offset count s
  | .regWrite offset value => Sys2Proof.Machine.execRegWrite offset value s
  | .seize => Sys2Proof.Machine.execSeize s
  | .igvaeloReturn => Sys2Proof.Machine.execIgvaeloReturn s
  | .fence mask => Sys2Proof.Machine.execFence mask s
  | .unfence mask => Sys2Proof.Machine.execUnfence mask s
  | .bride pair open_ count => Sys2Proof.Machine.execBride pair open_ count s
  | .bivouac step wake => Sys2Proof.Machine.execBivouac step wake s
  | .wake wake => Sys2Proof.Machine.execWake wake s
  | .reset kind => Sys2Proof.Machine.execReset kind s
  | .logRead first count => Sys2Proof.Machine.execLogRead first count s
  | .stageBegin length => Sys2Proof.Machine.execStageBegin length s
  | .stageData offset bytes => Sys2Proof.Machine.execStageData offset bytes s
  | .stageEnd => Sys2Proof.Machine.execStageEnd s
  | .stageAbort => Sys2Proof.Machine.execStageAbort s
  | .load copy => Sys2Proof.Machine.execLoad copy s
  | .enrollKey record => Sys2Proof.Machine.execEnrollKey record s
  | .status => Sys2Proof.Machine.execStatus s
  | .setEndpointId eid => Sys2Proof.Machine.execSetEndpointId eid s
  | .getEndpointId => Sys2Proof.Machine.execGetEndpointId s
  | .getEndpointUuid => Sys2Proof.Machine.execGetEndpointUuid s
  | .getMctpVersionSupport => Sys2Proof.Machine.execGetMctpVersionSupport s
  | .getMessageTypeSupport => Sys2Proof.Machine.execGetMessageTypeSupport s
  | .getVendorDefinedMessageSupport => Sys2Proof.Machine.execGetVendorDefinedMessageSupport s
  | .getTid => Sys2Proof.Machine.execGetTid s
  | .setTid tid => Sys2Proof.Machine.execSetTid tid s
  | .getPldmVersion type => Sys2Proof.Machine.execGetPldmVersion type s
  | .getPldmTypes => Sys2Proof.Machine.execGetPldmTypes s
  | .getPldmCommands type => Sys2Proof.Machine.execGetPldmCommands type s
  | .getPdrRepositoryInfo => Sys2Proof.Machine.execGetPdrRepositoryInfo s
  | .getPdr record => Sys2Proof.Machine.execGetPdr record s
  | .getSensorReading sensor => Sys2Proof.Machine.execGetSensorReading sensor s
  | .getStateSensorReadings sensor => Sys2Proof.Machine.execGetStateSensorReadings sensor s
  | .setStateEffecterStates effecter on => Sys2Proof.Machine.execSetStateEffecterStates effecter on s
  | .setEventReceiver receiver => Sys2Proof.Machine.execSetEventReceiver receiver s
  | .enec mask => Sys2Proof.Machine.execEnec mask s
  | .disec mask => Sys2Proof.Machine.execDisec mask s
  | .rstdaa => Sys2Proof.Machine.execRstdaa s
  | .entdaa address => Sys2Proof.Machine.execEntdaa address s
  | .setdasa static address => Sys2Proof.Machine.execSetdasa static address s
  | .setmwl length => Sys2Proof.Machine.execSetmwl length s
  | .setmrl length => Sys2Proof.Machine.execSetmrl length s
  | .getmwl => Sys2Proof.Machine.execGetmwl s
  | .getmrl => Sys2Proof.Machine.execGetmrl s
  | .getpid => Sys2Proof.Machine.execGetpid s
  | .getbcr => Sys2Proof.Machine.execGetbcr s
  | .getdcr => Sys2Proof.Machine.execGetdcr s
  | .getstatus => Sys2Proof.Machine.execGetstatus s
  | .rstact action => Sys2Proof.Machine.execRstact action s
  | .registerRead m offset size => Sys2Proof.Machine.execRegisterRead m offset size s
  | .dieToDieLinkDown slice cause => Sys2Proof.Machine.execDieToDieLinkDown slice cause s

end Sys2Proof.Machine
end

