-- ==== Sys2Proof/Machine/Step.lean ====
section
/-! DEFINITION. One step: the command at the front of the queue, or, on an empty queue, one cycle of the standby reference. -/

namespace Sys2Proof.Machine

/-- A step takes the front command with the queue's rest; on an empty queue one standby cycle passes (log 2). -/
def step (s : State) : Host.Outcome State Fault Refusal :=
  match s.pending with
  | [] => .next (standbyCycle s)
  | c :: rest => exec c { s with pending := rest }

/-- The command that a word spells, put at the front of the queue: no word spells one. -/
def State.withFetchWord (s : State) (nbits w : Nat) : State :=
  match decodeTableWord nbits w with
  | none => s
  | some c => { s with pending := c :: s.pending }

end Sys2Proof.Machine
end

