-- ==== Sys2Proof/Safety.lean ====
section
/-! DEFINITION. What every step keeps: the conditions of the manual that hold of the engine whatever commands reach it. -/

namespace Sys2Proof.Machine

/-- A port that is OFF keeps nothing for its link: its retry buffer is empty, and nothing waits at it (R309, R324, Table 9-9). -/
def Port.idle (q : Port) : Prop := q.link.turnOff = q.link ∧ q.ground = [] ∧ q.control = [] ∧ q.rx = []

/-- A port is OFF exactly while a condition of OFF of Table 9-9 holds (R336), and then it keeps nothing. -/
def PortsConform (s : State) : Prop :=
  ∀ p, p < s.ports.length → ((s.port p).link.st = .off ↔ s.mayTrain p = false) ∧ ((s.port p).link.st = .off → (s.port p).idle)

/-- The path of an index may leave OFF: its port's PHY is UP, and it leads to another pod of the machine (R336, R337). -/
def State.pathMay (s : State) (i : Nat) : Bool :=
  decide ((s.port (32 + i / 32)).link.st = .up) && s.pathCabled (i % 32)

/-- A carriage path is OFF exactly while its port's PHY is not UP or its pod is not another one of the machine (R336). -/
def PathsConform (s : State) : Prop :=
  ∀ i, i < s.paths.length → ((s.paths.getD i Link.reset).st = .off ↔ s.pathMay i = false) ∧
    ((s.paths.getD i Link.reset).st = .off → (s.paths.getD i Link.reset).turnOff = s.paths.getD i Link.reset)

/-- Outside RUNNING no pin is latched for issue (R432), and none ever on a fenced slice (R475). -/
def PinsConform (s : State) : Prop :=
  ∀ st, st < s.seq.issue.length → s.seq.issue.getD st [] ≠ [] →
    s.isRunning = true ∧ (st < 8 → (s.slice st).fenced = false)

/-- A fenced slice holds no staging buffer: its staging contents are lost (R475). -/
def StagingConform (s : State) : Prop := ∀ sl ∈ s.slices, sl.fenced = true → sl.bufs = []

/-- The state sensors as last reported are the states the engine is in (R447). -/
def SensorsConform (s : State) : Prop := s.mgmt.sensors = s.sensorCodes

/-- No interrupt waits to be sent while the core has power (R489). -/
def InterruptsSent (s : State) : Prop := s.coreUp = true → s.out.owed = 0

/-- The conditions that every step keeps. -/
structure Inv (s : State) : Prop where
  ports : PortsConform s
  paths : PathsConform s
  pins : PinsConform s
  staging : StagingConform s
  sensors : SensorsConform s
  interrupts : InterruptsSent s

end Sys2Proof.Machine
end

