-- ==== Sys2Proof/Certificates/Slice0/Obligations.lean ====
section
/-! DEFINITION. The statements for the provers. -/

open Sys2Proof Sys2Proof.Machine

/-! ### The queue of commands and the conditions of every step -/

/-- A step with a command at the front of the queue is `exec` of that command on the state with the queue's rest. -/
def Obligations.StepRunsTheFrontCommand : Prop :=
  ∀ (s : State) (c : Instr) (rest : List Instr), s.pending = c :: rest → step s = exec c { s with pending := rest }

/-- The model's own (log 2): on an empty queue one cycle of the standby reference passes, and nothing else changes. -/
def Obligations.EmptyQueueIsAStandbyCycle : Prop :=
  ∀ s : State, Inv s → s.pending = [] →
    step s = .next (if s.power.standby then { s with power := { s.power with cycles := s.power.cycles + 1 } } else s)

/-- Every command answers a next state, and leaves the queue of waiting commands as it found it. -/
def Obligations.EveryCommandAnswers : Prop :=
  ∀ (c : Instr) (s : State), ∃ t, exec c s = .next t ∧ t.pending = s.pending

/-- The state after reset meets `Inv`. -/
def Obligations.ResetMeetsInv : Prop :=
  Inv State.reset

/-- Every step keeps `Inv`: a port is OFF exactly while a condition of Table 9-9 holds, no pin is latched outside RUNNING or on a fenced
slice, a fenced slice stages nothing, the state sensors are reported, and no interrupt waits while the core has power.
Where the rules leave a point to the reader, it states the model's reading: log 63. -/
def Obligations.StepKeepsInv : Prop :=
  ∀ s t : State, Inv s → step s = .next t → Inv t

/-- After standby power-on, before any supply event, the engine is OFF with no image: nothing is latched, every port and path is OFF, no
slice is fenced, the owner is HOST, the receiver in ACQUIRE, and registers have the values of their tables. Both memories list nothing and
the queue is empty, which is the model's choice.
Where the rules leave a point to the reader, it states the model's reading: log 3, 5. -/
def Obligations.ResetState : Prop :=
  State.reset.power.st = .off ∧ State.reset.power.rail = false ∧ State.reset.img.run = none ∧ State.reset.mgmt.owner = .host ∧
  State.reset.belay.st = .acquire ∧ State.reset.pending = [] ∧ State.reset.hbm = [] ∧ State.reset.store = [] ∧
  (∀ p, (State.reset.port p).link.st = .off) ∧ (∀ i, (State.reset.slice i).fenced = false) ∧
  (∀ st, State.reset.seq.issue.getD st [] = []) ∧ State.reset.reg 0xD0 = 4096 ∧ State.reset.reg 0xE4 = 0x3F ∧
  State.reset.reg 0x50000 = 250000 ∧ State.reset.reg 0x50008 = 25000000

/-! ### Ownership and heartbeats -/

/-- What a change of the owner leaves: the owner, the report of the state sensor to an event receiver (R447), and, for an Igvaelo command,
the reply. -/
def OwnerIs (s t : State) (o : Owner) : Prop :=
  t.mgmt = { s.mgmt with owner := o, sensors := [s.power.st.code, s.belay.st.code, o.code] } ∧
  t.out.events = (if s.mgmt.receiver = 0 ∨ s.mgmt.owner = o then s.out.events else s.out.events ++ [(2, o.code)]) ∧
  t.power = s.power ∧ t.regs = s.regs ∧ t.seq = s.seq ∧ t.slices = s.slices ∧ t.ports = s.ports ∧ t.hbm = s.hbm ∧ t.store = s.store

/-- R442: a heartbeat of the host or of management sets the time from which its absence counts, and changes nothing else; neither can give
the other's.
Table 12-10 (R441): CLAIM takes the control plane for the host from RELEASED, or from MGMT once the management heartbeat has been
missing for 100 ms; RELEASE gives it up from HOST; SEIZE takes it for management from RELEASED, or from HOST once the host heartbeat has
been missing for 100 ms; RETURN gives it back from MGMT.
Table 12-10 (R441): while the other side's heartbeat is present, neither side takes the control plane from it.
Where the rules leave a point to the reader, it states the model's reading: log 64. -/
def Obligations.Ownership : Prop :=
  (∀ s : State, Inv s → s.power.standby = true →
    exec (.glbHb .host) s = .next { s with mgmt := { s.mgmt with hostHb := s.power.cycles } } ∧
    exec (.mgtHb .mgmt) s = .next { s with mgmt := { s.mgmt with mgtHb := s.power.cycles } } ∧
    exec (.glbHb .mgmt) s = .next s ∧ exec (.mgtHb .host) s = .next s) ∧
  (∀ s : State, Inv s → s.power.standby = true →
    ((s.mgmt.owner = .released ∨ (s.mgmt.owner = .mgmt ∧ s.mgmt.mgtHb + 2500000 ≤ s.power.cycles)) →
      ∃ t, exec (.glbOwnClaim .host) s = .next t ∧ OwnerIs s t .host ∧ t.out.reply = s.out.reply) ∧
    (s.mgmt.owner = .host → ∃ t, exec (.glbOwnRelease .host) s = .next t ∧ OwnerIs s t .released ∧ t.out.reply = s.out.reply) ∧
    ((s.mgmt.owner = .released ∨ (s.mgmt.owner = .host ∧ s.mgmt.hostHb + 2500000 ≤ s.power.cycles)) →
      (∃ t, exec (.mgtOwnCtlSeize .mgmt) s = .next t ∧ OwnerIs s t .mgmt ∧ t.out.reply = s.out.reply) ∧
      (∃ t, exec .seize s = .next t ∧ OwnerIs s t .mgmt ∧ t.out.reply = [0])) ∧
    (s.mgmt.owner = .mgmt →
      (∃ t, exec (.mgtOwnCtlReturn .mgmt) s = .next t ∧ OwnerIs s t .host ∧ t.out.reply = s.out.reply) ∧
      (∃ t, exec .igvaeloReturn s = .next t ∧ OwnerIs s t .host ∧ t.out.reply = [0]))) ∧
  (∀ s : State, Inv s →
    (s.mgmt.owner = .mgmt → s.power.cycles < s.mgmt.mgtHb + 2500000 → exec (.glbOwnClaim .host) s = .next s) ∧
    (s.mgmt.owner = .host → s.power.cycles < s.mgmt.hostHb + 2500000 → exec (.mgtOwnCtlSeize .mgmt) s = .next s) ∧
    (s.mgmt.owner = .host → s.power.cycles < s.mgmt.hostHb + 2500000 → s.power.standby = true →
      exec .seize s = .next (s.answerWith [1])))

/-! ### Igvaelo: I3C, MCTP control, PLDM (R444 to R447) -/

/-- R445: the common command codes that set something of the I3C target. ENTDAA gives an address to a target that has none, SETDASA to one
addressed by the static address of its birth record; SETMWL and SETMRL keep at most 69 bytes. Nothing else changes.
R445: the common command codes that read answer what they name, and change nothing but the reply; before the birth record has been read
GETPID, and GETSTATUS always, answer a free value (log 4).
Where the rules leave a point to the reader, it states the model's reading: log 4, 5, 16. -/
def Obligations.I3cCommands : Prop :=
  (∀ (s : State) (mask : Byte) (static address len : Nat), Inv s → s.power.standby = true →
    exec (.disec mask) s = .next { s with mgmt := { s.mgmt with events := s.mgmt.events ||| mask.toNat } } ∧
    exec (.enec mask) s = .next { s with mgmt := { s.mgmt with events := s.mgmt.events ^^^ (s.mgmt.events &&& mask.toNat) } } ∧
    exec .rstdaa s = .next { s with mgmt := { s.mgmt with da := none } } ∧
    (s.mgmt.da = none → exec (.entdaa address) s = .next { s with mgmt := { s.mgmt with da := some (address % 128) } }) ∧
    (∀ b, s.mgmt.da = none → s.power.birth = some b → b.saddr = static →
      exec (.setdasa static address) s = .next { s with mgmt := { s.mgmt with da := some (address % 128) } }) ∧
    exec (.setmwl len) s = .next { s with mgmt := { s.mgmt with mwl := min 69 len } } ∧
    exec (.setmrl len) s = .next { s with mgmt := { s.mgmt with mrl := min 69 len } } ∧
    exec (.rstact mask) s = .next { s with mgmt := { s.mgmt with rstAction := mask.toNat } }) ∧
  (∀ s : State, Inv s → s.power.standby = true →
    exec .getmwl s = .next (s.answerWith [s.mgmt.mwl]) ∧ exec .getmrl s = .next (s.answerWith [s.mgmt.mrl]) ∧
    (∀ b, s.power.birth = some b → exec .getpid s = .next (s.answerWith [b.pid])) ∧
    exec .getbcr s = .next (s.answerWith [Config.bcr % 256]) ∧ exec .getdcr s = .next (s.answerWith [Config.dcr % 256]) ∧
    exec .getstatus s = .next (State.answerWith { s with free := s.free + 1 } [Config.freeValue s.free % 65536]))

/-- R446, R447, R448: what the requests of MCTP control and PLDM base answer; each changes nothing but the reply.
R446, R447: the requests that set the endpoint ID, the terminus ID and the event receiver set it, answer SUCCESS, and change nothing
else.
Where the rules leave a point to the reader, it states the model's reading: log 16. -/
def Obligations.Messages : Prop :=
  (∀ (s : State) (type record : Nat), Inv s → s.power.standby = true →
    exec .getEndpointId s = .next (s.answerWith [0, s.mgmt.eid]) ∧
    exec .getEndpointUuid s = .next (s.answerWith (0 :: Config.endpointUuid.map BitVec.toNat)) ∧
    exec .getMctpVersionSupport s = .next (s.answerWith (0 :: Config.mctpVersions.map BitVec.toNat)) ∧
    exec .getMessageTypeSupport s = .next (s.answerWith [0, 3, 0, 1, 0x7F]) ∧
    exec .getVendorDefinedMessageSupport s = .next (s.answerWith [0, Config.ianaNumber]) ∧
    exec .getTid s = .next (s.answerWith [0, s.mgmt.tid]) ∧
    (type = 0 ∨ type = 2 → exec (.getPldmVersion type) s = .next (s.answerWith [0, Config.pldmVersion type])) ∧
    exec .getPldmTypes s = .next (s.answerWith [0, 5]) ∧
    exec (.getPldmCommands 0) s = .next (s.answerWith [0, 0x3E]) ∧
    exec (.getPldmCommands 2) s = .next (s.answerWith [0, 2 ^ 0x04 + 2 ^ 0x0A + 2 ^ 0x11 + 2 ^ 0x21 + 2 ^ 0x39 + 2 ^ 0x50 + 2 ^ 0x51]) ∧
    exec .getPdrRepositoryInfo s = .next (s.answerWith [0, Config.pdrCount]) ∧
    (record < Config.pdrCount → exec (.getPdr record) s = .next (s.answerWith (0 :: (Config.pdr record).map BitVec.toNat)))) ∧
  (∀ (s : State) (n : Nat), Inv s → s.power.standby = true →
    (0 < n → n < 255 → exec (.setEndpointId n) s = .next (State.answerWith { s with mgmt := { s.mgmt with eid := n } } [0, n])) ∧
    (0 < n → n < 255 → exec (.setTid n) s = .next (State.answerWith { s with mgmt := { s.mgmt with tid := n } } [0])) ∧
    exec (.setEventReceiver n) s = .next (State.answerWith { s with mgmt := { s.mgmt with receiver := n } } [0]))

/-- R447, Table 12-11: a state sensor answers the state that the engine is in, the rail sensor of a die the reading of its supply monitor;
temperature and power are measured afresh (log 4); STATUS answers the global state, the owner, the heartbeat ages in milliseconds up to
1,023, IMG_STAT and the staging progress. -/
def Obligations.SensorsAndStatus : Prop :=
  ∀ (s : State) (die : Nat), Inv s → s.power.standby = true →
    exec (.getStateSensorReadings .globalState) s = .next (s.answerWith [0, s.power.st.code]) ∧
    exec (.getStateSensorReadings .belayState) s = .next (s.answerWith [0, s.belay.st.code]) ∧
    exec (.getStateSensorReadings .owner) s = .next (s.answerWith [0, s.mgmt.owner.code]) ∧
    (die < 8 → exec (.getSensorReading (.coreRail die)) s = .next (s.answerWith [0, s.power.now.getD die 0])) ∧
    (die < 8 → exec (.getSensorReading (.dieTemp die)) s =
      .next (State.answerWith { s with free := s.free + 1 } [0, Config.dieTemp die s.free % 2 ^ 16])) ∧
    exec (.getSensorReading .power) s = .next (State.answerWith { s with free := s.free + 1 } [0, Config.power s.free % 2 ^ 32]) ∧
    exec .status s = .next (s.answerWith [0, s.power.st.code, s.mgmt.owner.code,
      min 1023 ((s.power.cycles - s.mgmt.hostHb) / 25000), min 1023 ((s.power.cycles - s.mgmt.mgtHb) / 25000), s.imgStat,
      s.img.staging.progress])

/-! ### Registers (R8 to R11, R481 to R499) -/

/-- R8, R9: a register that only holds what is written takes the bits that its table gives it from the master that may write it, and
nothing else changes; Igvaelo's REG-WRITE writes as management and answers SUCCESS.
R8: a write of a register that is not an aligned 32-bit one has no effect, and such a read returns 0.
R481, R483, Tables 14-4 and 14-6: reads of GLB_STATE, GLB_OWN and GLB_FENCE, and of a belay count, whose low half captures the high
half for the next read of it by the same master. A read answers the value and changes nothing but that capture; Igvaelo's REG-READ answers
SUCCESS and the value.
Where the rules leave a point to the reader, it states the model's reading: log 15. -/
def Obligations.RegisterAccesses : Prop :=
  (∀ (s : State) (m : Master) (off mask : Nat) (isOpen : Bool) (v : Word), Inv s → plainMask off = some (mask, isOpen) → off % 4 = 0 →
    (coreOffset off = false → isSeed off = false →
      (s.may m isOpen = true → exec (.registerWrite m off 4 v) s = .next (s.setReg off (v.toNat &&& mask))) ∧
      (s.may .mgmt isOpen = true → exec (.regWrite off v) s = .next ((s.setReg off (v.toNat &&& mask)).answerWith [0]))) ∧
    (coreOffset off = true → isSeed off = false → s.mayCore m isOpen = true →
      exec (.registerWrite m off 4 v) s = .next (s.setReg off (v.toNat &&& mask)))) ∧
  (∀ (s : State) (m : Master) (off size : Nat) (v : Word), Inv s → size ≠ 4 ∨ off % 4 ≠ 0 →
    exec (.registerWrite m off size v) s = .next s ∧ (s.power.standby = true → exec (.registerRead m off size) s = .next (s.answerWith [0]))) ∧
  (∀ (s : State) (m : Master), Inv s → s.power.standby = true → s.hiCap = [] →
    exec (.registerRead m 0x04 4) s = .next (s.answerWith [s.power.st.code +
      (if s.power.st = .bivouac then s.power.prior.code * 2 ^ 4 else 0) + s.seq.variant % 16 * 2 ^ 8]) ∧
    exec (.registerRead m 0x10 4) s = .next (s.answerWith [s.mgmt.owner.code +
      min 1023 ((s.power.cycles - s.mgmt.hostHb) / 25000) * 2 ^ 12 + min 1023 ((s.power.cycles - s.mgmt.mgtHb) / 25000) * 2 ^ 22]) ∧
    exec (.registerRead m 0x18 4) s = .next (s.answerWith [s.fenceStat]) ∧
    (s.coreUp = true → exec (.registerRead m 0x10004 4) s = .next (State.answerWith
      { s with hiCap := [(0x10008 * 2 + (match m with | .host => 0 | .mgmt => 1), s.belay.count / 2 ^ 32 % 2 ^ 32)] }
      [s.belay.count % 2 ^ 32])) ∧
    exec (.regRead 0x04 1) s = .next (s.answerWith [0, s.globalStat]) ∧
    exec (.registerRead .host 0x500060 4) s = .next (s.answerWith [0]))

/-- R9: a master that does not own the control plane changes nothing by its writes, but for the fields open to management.
R10: what is open to management stays closed to a host that does not own the control plane.
R482: in OFF and BIVOUAC the registers of the core domain ignore writes.
R11: the host's writes of the management-only block have no effect, and its reads return 0. -/
def Obligations.WhoMayWrite : Prop :=
  (∀ (s : State) (m : Master) (b : Bool) (n k : Nat) (v : Word), Inv s → s.owns m = false →
    ∀ c ∈ ([.glbCtlLaunch m b, .glbCtlCancel m, .glbCtlStop m, .glbStepDb m, .glbDpqDb m v, .glbDpqCtlDisable m b, .glbIrqStatClear m v,
        .glbIrqEnWrite m v, .gqCtlArm m n, .gqCtlDisarm m n, .grqCtlArm m n, .grqCtlDisable m n, .grqCtlSuspend m n, .grqCtlResume m n,
        .grqCtlRetry m n, .grqCtlSkip m n, .grqCtlReset m n, .grqDb m n k, .grqDescWrite m n k v, .slcCodeCtlDisable m n k b,
        .prtCtlDisable m n b, .ancCtlArm m, .ancCtlRevoke m, .ancCtlDisarm m, .ancEWrite m n v, .upsCtlDisable m n b, .imgCtlLoad m n,
        .imgCtlRecover m, .imgCtlStage m, .imgCtlAbort m, .imgCtlPrepare m, .imgCtlRethread m, .imgCtlCancel m] : List Instr),
      exec c s = .next s) ∧
  (∀ (s : State) (n k : Nat) (v : Word), Inv s → s.mgmt.owner ≠ .host →
    ∀ c ∈ ([.glbCtlBivouac .host, .glbCtlWake .host, .glbCtlResetCore .host, .glbFenceWrite .host n, .prtCtlRetrain .host n,
        .prtBrideCtlWrite .host n k v, .crnRdWrite .host v, .crnCtlOvfClr .host, .crnCtlClear .host, .crnCtlCntClr .host,
        .crnFecClr .host v] : List Instr),
      exec c s = .next s) ∧
  (∀ (s : State) (m : Master) (b : Bool) (n k : Nat) (v : Word), Inv s → s.power.st = .off ∨ s.power.st = .bivouac →
    ∀ c ∈ ([.glbStepDb m, .glbDpqDb m v, .glbDpqCtlDisable m b, .gqCtlArm m n, .gqCtlDisarm m n, .grqCtlArm m n, .grqCtlDisable m n,
        .grqCtlSuspend m n, .grqCtlResume m n, .grqCtlRetry m n, .grqCtlSkip m n, .grqCtlReset m n, .grqDb m n k, .grqDescWrite m n k v,
        .slcCodeCtlDisable m n k b, .prtCtlRetrain m n, .prtCtlDisable m n b, .ancCtlArm m, .ancCtlRevoke m, .ancCtlDisarm m,
        .ancEWrite m n v, .upsCtlDisable m n b] : List Instr),
      exec c s = .next s) ∧
  (∀ (s : State) (off size : Nat) (v : Word), Inv s → 0x500000 ≤ off → off < 0x600000 →
    exec (.registerWrite .host off size v) s = .next s ∧
    (s.power.standby = true → exec (.registerRead .host off size) s = .next (s.answerWith [0])))

/-- R489, R490: a 1 clears a bit of GLB_IRQ_STAT; a bit of GLB_IRQ_EN set while its status bit is 1 sends its interrupt at once, as the
write of GLB_MSI_DATA + n to GLB_MSI_ADDR; a read of a pop queue takes its oldest entry, with the overflow bit, or 0. -/
def Obligations.InterruptRegisters : Prop :=
  ∀ (s : State) (m : Master) (v : Word), Inv s → s.power.standby = true → s.coreUp = true →
    (s.owns m = true →
      exec (.glbIrqStatClear m v) s = .next (s.setReg 0xE0 (s.reg 0xE0 ^^^ (s.reg 0xE0 &&& v.toNat))) ∧
      exec (.glbIrqEnWrite m v) s = .next { (s.setReg 0xE4 (v.toNat % 64)) with
        out := { s.out with
          msi := s.out.msi ++ ((List.range 6).filter (fun n => flag v.toNat n && !flag (s.reg 0xE4) n && flag (s.reg 0xE0) n)).map
            (fun n => (s.reg 0xE8 + s.reg 0xEC % 2 ^ 16 * 2 ^ 32, s.reg 0xF0 + n)) } }) ∧
    (s.out.flagPop = [] → exec (.ancFlagPop m) s = .next (s.answerWith [0])) ∧
    (∀ i rest, s.out.flagPop = i :: rest → exec (.ancFlagPop m) s = .next { s with out := { s.out with
      flagPop := rest, flagOvf := false, reply := [2 ^ 31 + (if s.out.flagOvf then 2 ^ 30 else 0) + i % 2 ^ 16] } }) ∧
    (s.out.irqPop = [] → exec (.grqIrqPop m) s = .next (s.answerWith [0])) ∧
    (∀ i rest, s.out.irqPop = i :: rest → exec (.grqIrqPop m) s = .next { s with out := { s.out with
      irqPop := rest, irqOvf := false, reply := [2 ^ 31 + (if s.out.irqOvf then 2 ^ 30 else 0) + i % 2 ^ 16] } })

/-! ### Power, loading and resets (R429 to R433, R444, R452 to R456) -/

/-- What `State.settle` does after every command: it touches the registers only at GLB_IRQ_STAT, the outputs only at interrupts and
events, the latched pins, the staging buffers of fenced slices, the ports and paths that Table 9-9 turns off or on, and the counts of
their departures from UP.
Where the rules leave a point to the reader, it states the model's reading: log 63. -/
def Obligations.SettleFrame : Prop :=
  ∀ s : State, s.settle.pending = s.pending ∧ s.settle.power = s.power ∧
    s.settle.mgmt = { s.mgmt with sensors := [s.power.st.code, s.belay.st.code, s.mgmt.owner.code] } ∧
    (∀ off, off ≠ 0xE0 → s.settle.reg off = s.reg off) ∧ s.settle.img = s.img ∧ s.settle.belay = s.belay ∧ s.settle.req = s.req ∧
    s.settle.seq = { s.seq with issue := s.settle.seq.issue } ∧
    (s.isRunning = true → ∀ st, (st < 8 → (s.slice st).fenced = false) → s.settle.seq.issue.getD st [] = s.seq.issue.getD st []) ∧
    (∀ i, (s.slice i).fenced = false → s.settle.slice i = s.slice i) ∧ s.settle.stations = s.stations ∧ s.settle.tok = s.tok ∧
    s.settle.groups = s.groups ∧ s.settle.brides = s.brides ∧ s.settle.anc = s.anc ∧ s.settle.gq = s.gq ∧ s.settle.cairn = s.cairn ∧
    s.settle.hbm = s.hbm ∧ s.settle.hbmBad = s.hbmBad ∧ s.settle.store = s.store ∧ s.settle.scaleHist = s.scaleHist ∧
    s.settle.levelHist = s.levelHist ∧ s.settle.heatHist = s.heatHist ∧ s.settle.levelRes = s.levelRes ∧ s.settle.spikes = s.spikes ∧
    s.settle.out.reply = s.out.reply ∧ s.settle.out.flagPop = s.out.flagPop ∧ s.settle.out.irqPop = s.out.irqPop ∧
    s.settle.saved = s.saved ∧ s.settle.free = s.free

/-- R456: standby power-on resets everything but what the pattern store holds, and phase 1 reads the birth and key records; the loss of
the standby supply leaves nothing but the store, and every bride CLOSED-PASSIVE (R340).
R433: from OFF the core rail takes the engine to LOADING with no image, no armed group, every anchor FREE and every ground queue IDLE,
and every die then reads at or above 0.575 V. In a wake it only reports the rail.
Where the rules leave a point to the reader, it states the model's reading: log 3, 5, 13. -/
def Obligations.SupplyCommands : Prop :=
  (∀ s : State,
    exec .standbyPowerOn s = .next { State.reset with
      pending := s.pending, store := s.store, free := s.free
      power := { State.reset.power with
        phase1 := true, storeMode := storeModeNow, birth := if storeGood then s.readBirth else none
        key := if storeGood then s.readKey else none } } ∧
    exec .standbySupplyLoss s = .next { State.reset with
      pending := s.pending, store := s.store, free := s.free
      power := { State.reset.power with standby := false }
      brides := State.reset.brides.map (fun b => { b with st := .closedPassive }) }) ∧
  (∀ s : State, s.power.standby = true → s.power.rail = false →
    (s.power.st = .off → s.power.phase1 = true → s.power.birth.isSome = true → s.power.storeMode ≠ 3 → s.power.hbmReady = false →
      ∃ t, exec .coreRailUp s = .next t ∧ t.power.st = .loading ∧ t.power.rail = true ∧ t.power.phase = 2 ∧ t.power.loadCopy = 0 ∧
        t.img.run = none ∧ t.img.loaded = false ∧ t.groups = [] ∧ t.gq = [] ∧ t.anc = Anchors.reset ∧ t.seq.variant = 0 ∧
        t.hbm = s.hbm ∧ t.store = s.store ∧ t.mgmt.owner = s.mgmt.owner ∧ t.cairn = s.cairn ∧
        (∀ off, off ≠ 0xE0 → t.reg off = s.reg off)) ∧
    (s.power.st = .bivouac → s.req.waking = true →
      ∃ t, exec .coreRailUp s = .next t ∧ t.power.rail = true ∧ t.power.st = .bivouac ∧ t.img = s.img ∧ t.req = s.req))

/-- R429, R430: with HBM ready in LOADING, the copy that the choice names and that passes the checks becomes the running image and the
engine is READY; one that fails a check leaves it HELD for CHECK with no image.
Table 12-7: phase 2 out of time is HELD for BIRTH, phase 3 for MEMORY, with no image and an IMAGE cairn.
Where the rules leave a point to the reader, it states the model's reading: log 13. -/
def Obligations.Loading : Prop :=
  (∀ (s u : State) (b : Bool), s.power.standby = true → s.power.st = .loading →
    u = { s with power := { s.power with key := s.readKey, phase := 4, hbmReady := true } } → u.chooseCopy s.power.loadCopy = .copy b [] →
    (∀ im, u.checkedImage b = .ok im →
      ∃ t, exec .hbmReady s = .next t ∧ t.power.st = .ready ∧ t.power.cause = 0 ∧ t.power.hbmReady = true ∧ t.img.run = some im ∧
        t.img.loaded = true ∧ t.img.loadedB = im.copyB ∧ t.img.seq = im.seq ∧ t.img.launched = false ∧
        t.mgmt.coord = s.mgmt.coordReg % 2 ^ 16 ∧ t.seq.variant = 0 ∧ t.groups = [] ∧ t.anc = Anchors.reset ∧
        t.gq = im.config.queues.map (fun e => (e.1, { GroundQ.reset with desc := e.2 })) ∧ t.store = s.store) ∧
    (∀ n, u.checkedImage b = .error n →
      ∃ t, exec .hbmReady s = .next t ∧ t.power.st = .held ∧ t.power.cause = 6 ∧ t.power.check = n ∧ t.img.run = none ∧
        t.img.loaded = false ∧ t.groups = [] ∧ t.gq = [] ∧ t.hbm = s.hbm ∧ t.store = s.store)) ∧
  (∀ (s : State) (phase : Nat), s.power.standby = true → s.power.st = .loading → phase = 2 ∨ phase = 3 →
    ∃ t, exec (.loadPhaseTimeout phase) s = .next t ∧ t.power.st = .held ∧ t.power.cause = (if phase = 2 then 3 else 5) ∧
      t.img.run = none ∧ t.seq.running = false ∧ t.hbm = s.hbm ∧ t.store = s.store ∧ t.mgmt.owner = s.mgmt.owner ∧
      t.cairn = s.cairn.submit s.power.cycles ⟨0x14, source 0 3, 0, if phase = 2 then 3 else 5, 0⟩ s.stamp)

/-- R452 to R454: below 0.565 V a suspect window opens on the die, or takes the lower reading; once the rail is at or above 0.575 V it
closes with a SUPPLY-WARN cairn of its lowest reading and its length; below 0.54 V the core is reset.
Where the rules leave a point to the reader, it states the model's reading: log 4, 13. -/
def Obligations.SupplyMonitor : Prop :=
  ∀ (s : State) (die mv : Nat), s.power.standby = true → die < 8 →
    (s.power.rail = true → 540 ≤ mv → mv < 565 →
      (s.power.suspects.any (fun w => w.die == die) = false → s.isRunning = false → s.power.st ≠ .bivouac → s.req.entering = none →
        exec (.coreRailWarningDip die mv) s = .next (State.settle { s with power := { s.power.reading die mv true with
          suspects := s.power.suspects ++ [⟨die, s.belay.count, mv, true, 0⟩] } })) ∧
      (s.power.suspects.any (fun w => w.die == die) = true →
        exec (.coreRailWarningDip die mv) s = .next (State.settle { s with power := { s.power.reading die mv true with
          suspects := s.power.suspects.map (fun w => if w.die = die then { w with low := Nat.min w.low mv } else w) } }))) ∧
    (∀ w, nth s.power.warn die false = true → s.power.suspects.find? (fun x => x.die = die) = some w →
      exec (.supplyWarningClear die) s = .next (State.settle
        { (State.raise { s with free := s.free + 1 } 0x11 (source 1 die) 0 w.low (s.belay.count - w.start)) with
          power := { s.power with suspects := s.power.suspects.erase w }.reading die (575 + Config.freeValue s.free % 3521) false })) ∧
    (s.power.rail = true → mv < 540 → s.power.st ≠ .off → s.power.suspects = [] → s.img.staging.st ≠ 1 →
      ∃ t, exec (.coreRailResetLevel die mv) s = .next t ∧ t.power.st = .off ∧ t.power.rail = false ∧ t.power.warn = s.power.warn.set die true ∧
        t.cairn = s.cairn.submit s.power.cycles ⟨0x11, source 1 die, 0xC, mv, 0⟩ s.stamp ∧ t.store = s.store ∧ t.hbm = s.hbm)

/-- Table 12-13: what a core reset clears (slices, stations, queues, anchors, core registers, counters) and what it keeps (owner, fences,
cairn log, belay receiver, image, pattern store, the registers of the other domains), whichever command makes it.
R444, R456: the management controller and Igvaelo restart: dynamic address, event mask, endpoint and terminus identifiers and event
receiver are lost, and nothing outside management changes.
Where the rules leave a point to the reader, it states the model's reading: log 13, 16, 28. -/
def Obligations.Resets : Prop :=
  (∀ (s : State) (m : Master), s.power.standby = true → s.power.st ≠ .off → s.img.staging.st ≠ 1 → s.may m true = true →
    ∀ c ∈ ([.coreReset, .glbCtlResetCore m, .reset .core] : List Instr),
      ∃ t, exec c s = .next t ∧ t.power.st = .off ∧ t.power.rail = false ∧ t.seq.running = false ∧ t.seq.flights = [] ∧
        (∀ st, t.seq.issue.getD st [] = []) ∧ (∀ i, (t.slice i).fenced = (s.slice i).fenced) ∧ (∀ i, (t.slice i).bufs = []) ∧
        t.stations = [] ∧ t.groups = [] ∧ t.anc = Anchors.reset ∧ t.gq = [] ∧
        (∀ off, coreRegister off = true → t.reg off = regReset off) ∧ t.counters = [] ∧
        (∀ b ∈ t.brides, b.st = .closedActive) ∧ (∀ p < t.ports.length, (t.port p).link.st = .off) ∧
        t.belay = s.belay ∧ t.cairn = s.cairn ∧ t.img.run = s.img.run ∧ t.img.launched = false ∧ t.mgmt.owner = s.mgmt.owner ∧
        t.hbm = s.hbm ∧ t.store = s.store) ∧
  (∀ (s : State) (m : Master), Inv s → s.power.standby = true →
    (∀ c ∈ ([.managementRestart, .firmwareWatchdog] : List Instr), exec c s = .next { s with mgmt := { s.mgmt with
      da := none, mwl := 69, mrl := 69, events := 0, rstAction := 0, eid := 0, tid := 0, receiver := 0 } }) ∧
    (s.may m false = true → s.mgmt.mgtHb + 2500000 ≤ s.power.cycles → exec (.glbCtlMgtRestart m) s = .next { s with mgmt := { s.mgmt with
      da := none, mwl := 69, mrl := 69, events := 0, rstAction := 0, eid := 0, tid := 0, receiver := 0 } }) ∧
    (s.power.cycles < s.mgmt.mgtHb + 2500000 → exec (.glbCtlMgtRestart m) s = .next s))

/-! ### Runs, pauses and belay time (R20, R164, R196, R399, R400, R434, R449 to R451) -/

/-- R400, R434: a launch, its cancel and a STOP are accepted where their conditions hold, and otherwise refused with their reason. A
launch is accepted in READY with every named group ARMED, the receiver LOCKED, and a count from 62,500 ticks to 2^38 ticks ahead; a
cancel before c − 64; a STOP in RUNNING at least 64 ticks before the origin of its step.
Where the rules leave a point to the reader, it states the model's reading: log 29, 56. -/
def Obligations.LaunchAndStop : Prop :=
  ∀ (s : State) (m : Master), Inv s → s.may m false = true →
    (s.power.st = .ready → s.req.entering = none → (∀ g ∈ s.image.namedGroups, (s.groupQ g).st = 2) → s.belay.st = .locked →
      s.belay.count + 62500 ≤ s.reg64 0x10010 → s.reg64 0x10010 ≤ s.belay.count + 2 ^ 38 →
      exec (.glbCtlLaunch m false) s = .next { s with req := { s.req with
        launchOn := true, launch := 1, launchReason := 0, launchAt := s.reg64 0x10010, launchStep := s.reg48 0x10018, replay := false } }) ∧
    (∀ replay, s.power.st ≠ .ready → exec (.glbCtlLaunch m replay) s = .next { s with req := { s.req with launch := 3, launchReason := 1 } }) ∧
    (s.req.launchOn = true → s.belay.count + 64 < s.req.launchAt →
      exec (.glbCtlCancel m) s = .next { s with req := { s.req with launchOn := false, launch := 4, replay := false } }) ∧
    (s.req.launchAt ≤ s.belay.count + 64 → exec (.glbCtlCancel m) s = .next s) ∧
    (s.power.st = .running → s.belay.count + 64 ≤ s.originOf (s.reg48 0x30) →
      exec (.glbCtlStop m) s = .next { s with req := { s.req with stopOn := true, stop := 1, stopReason := 0, stopStep := s.reg48 0x30 } }) ∧
    (s.power.st = .running → s.originOf (s.reg48 0x30) < s.belay.count + 64 →
      exec (.glbCtlStop m) s = .next { s with req := { s.req with stop := 3, stopReason := 2 } }) ∧
    (s.power.st ≠ .running → exec (.glbCtlStop m) s = .next { s with req := { s.req with stop := 3, stopReason := 1 } })

/-- R449: bivouac and wake requests, by register or by Igvaelo, which also writes the registers and answers.
R450, R451: entry to bivouac, once quiet, saves the queues, anchors, core registers and counters, turns every port OFF and closes
every bride, and the core rail goes; a wake begins at its count; one without a rail by w + 20,000 fails to OFF; at w + 60,000 what was
saved is back, and the next step's origin is there.
Where the rules leave a point to the reader, it states the model's reading: log 14, 28. -/
def Obligations.BivouacCommands : Prop :=
  (∀ (s : State) (m : Master) (step wake : Nat), Inv s →
    (s.may m true = true → s.power.st = .running → s.req.entering = none → s.reg64 0x88 = 0 → s.seq.step < s.reg48 0x38 →
      s.belay.count + 64 < s.originOf (s.reg48 0x38) →
      exec (.glbCtlBivouac m) s = .next { s with req := { s.req with
        bivOn := true, biv := 1, bivReason := 0, bivStep := s.reg48 0x38, entryAt := s.originOf (s.reg48 0x38) } }) ∧
    (s.may m true = true → s.power.st ≠ .running → s.power.st ≠ .ready →
      exec (.glbCtlBivouac m) s = .next { s with req := { s.req with biv := 3, bivReason := 1 } }) ∧
    (s.power.standby = true → s.power.st = .running → s.req.entering = none → s.seq.step < step → step < 2 ^ 48 →
      s.belay.count + 64 < s.originOf step →
      exec (.bivouac step 0) s = .next (let u := (s.setReg64 0x38 step).setReg64 0x88 0; { u with
        req := { s.req with bivOn := true, biv := 1, bivReason := 0, bivStep := step, entryAt := s.originOf step }
        out := { s.out with reply := [0] } })) ∧
    (s.power.st = .bivouac → s.req.waking = false → s.req.wakeOn = false →
      (s.may m true = true → s.req.entryAt + 500000 ≤ s.reg64 0x88 → s.belay.count + 62500 ≤ s.reg64 0x88 →
        exec (.glbCtlWake m) s = .next { s with req := { s.req with
          wakeOn := true, wake := 1, wakeAt := s.reg64 0x88, bivReason := if s.req.biv = 3 then s.req.bivReason else 0 } }) ∧
      (s.power.standby = true → wake < 2 ^ 64 → s.req.entryAt + 500000 ≤ wake → s.belay.count + 62500 ≤ wake →
        exec (.wake wake) s = .next { (s.setReg64 0x88 wake) with
          req := { s.req with wakeOn := true, wake := 1, wakeAt := wake, bivReason := if s.req.biv = 3 then s.req.bivReason else 0 }
          out := { s.out with reply := [0] } }) ∧
      (s.power.standby = true → wake < s.req.entryAt + 500000 → wake < 2 ^ 64 →
        exec (.wake wake) s = .next { (s.setReg64 0x88 wake) with
          req := { s.req with wake := 2, bivReason := 3 }
          out := { s.out with reply := [1] } }))) ∧
  (∀ s : State,
    (s.entryQuiet = true →
      ∃ t, exec .bivouacQueuesQuiet s = .next t ∧ t.power.st = .bivouac ∧ t.power.prior = s.power.st ∧ t.power.rail = false ∧
        t.req.entering = none ∧ t.groups = [] ∧ t.anc = Anchors.reset ∧ t.gq = [] ∧ (∀ b ∈ t.brides, b.st = .closedActive) ∧
        (∀ p < t.ports.length, (t.port p).link.st = .off) ∧ t.belay = s.belay ∧ t.img = s.img ∧ t.hbm = s.hbm ∧
        t.saved.map (·.groups) = some s.groups ∧ t.saved.map (·.gq) = some s.gq ∧ t.saved.map (fun a => a.anc.tab) = some s.anc.tab ∧
        t.saved.map (·.counters) = some s.counters) ∧
    (s.power.st = .bivouac → s.req.wakeOn = true →
      (s.req.waking = false → s.req.wakeAt ≤ s.belay.count →
        ∃ t, exec .wakeBegin s = .next t ∧ t.power = s.power ∧ t.req = { s.req with waking := true } ∧ t.saved = s.saved ∧ t.img = s.img) ∧
      (s.req.waking = true → s.power.rail = false → s.img.staging.st ≠ 1 → s.req.wakeAt + 20000 ≤ s.belay.count →
        ∃ t, exec .wakeFailed s = .next t ∧ t.power.st = .off ∧ t.req.waking = false ∧ t.cairn = s.cairn.submit s.power.cycles
          ⟨0x11, source 1 s.power.lowestDie, 0xB, nth s.power.now s.power.lowestDie 0, 0⟩ s.stamp) ∧
      (∀ a, s.req.waking = true → s.power.rail = true → s.saved = some a → s.fencedSlices = [] → (∀ e ∈ a.gq, e.2.bivSusp = false) →
        s.req.wakeAt + 60000 ≤ s.belay.count →
        ∃ t, exec .wakeComplete s = .next t ∧ t.power.st = s.power.prior ∧ t.req.waking = false ∧ t.req.wakeOn = false ∧
          t.groups = a.groups ∧ t.anc = a.anc ∧ t.gq = a.gq ∧ t.saved = none ∧ t.img = s.img ∧
          t.seq.nextOrigin = Nat.max (s.req.wakeAt + 60000) s.belay.count)))

/-- R20, R394: a tick advances the belay count by 1 where the receiver is not STALLED and everything due at the count has been done;
else nothing happens.
R164, R196, R400: at the launch count the engine is RUNNING, its first step has its origin there and starts at it with the pricking
of the variant that the fences name; a second fence at an origin holds the engine.
Where the rules leave a point to the reader, it states the model's reading: log 1, 51. -/
def Obligations.TicksAndOrigins : Prop :=
  (∀ s : State, Inv s →
    (s.countRuns = true → s.workDue = false → s.seq.running = false → s.gq = [] → s.relaxed = true ∨ s.isRunning = false →
      ∃ t, exec .belayTick s = .next t ∧ t.belay = { s.belay with count := s.belay.count + 1 } ∧ t.power = s.power ∧ t.req = s.req ∧
        t.hbm = s.hbm ∧ t.cairn = s.cairn ∧ t.regs = s.regs ∧ t.img = s.img ∧ t.groups = s.groups ∧ t.anc = s.anc ∧ t.store = s.store) ∧
    (s.countRuns = false ∨ s.workDue = true → exec .belayTick s = .next s) ∧
    (s.belay.st = .stalled → s.countRuns = false) ∧
    (s.power.standby = true → s.belay.st ≠ .stalled → s.countRuns = true)) ∧
  (∀ s : State,
    (s.launchDue = true → (∀ g ∈ s.image.namedGroups, (s.groupQ g).st = 2) → s.img.launched = true →
      ∃ t, exec .launchCountReached s = .next t ∧ t.power.st = .running ∧ t.req.launchOn = false ∧ t.req.launch = 2 ∧
        t.seq.running = false ∧ t.seq.next = s.req.launchStep ∧ t.seq.nextOrigin = s.req.launchAt ∧ t.srec.step = s.req.launchStep ∧
        t.sealing = [] ∧ t.img.run = s.img.run ∧ t.belay = s.belay) ∧
    (s.launchDue = true → (∃ g ∈ s.image.namedGroups, (s.groupQ g).st ≠ 2) →
      exec .launchCountReached s = .next (State.settle { s with req := { s.req with
        launchOn := false, launch := 3, launchReason := 2 } })) ∧
    (s.originDue = true → s.belay.st = .locked → s.seq.next ≤ s.seq.step → s.fencedSlices = [] → s.req.replay = false →
      s.img.rethread ≠ 1 → s.req.stopOn = false → s.req.bivOn = false →
      ∃ t, exec .stepOrigin s = .next t ∧ t.power.st = .running ∧ t.seq.running = true ∧ t.seq.step = s.seq.next ∧
        t.seq.next = s.seq.next + 1 ∧ t.seq.sec = 0 ∧ t.seq.variant = 0 ∧ t.seq.origin = Nat.max s.seq.nextOrigin s.belay.count ∧
        t.seq.secOrigin = Nat.max s.seq.nextOrigin s.belay.count ∧ t.srec.step = s.seq.next ∧ t.belay = s.belay ∧
        t.seq.nextOrigin = (s.image.pricking 0).head.originAfter s.seq.next (Nat.max s.seq.nextOrigin s.belay.count) (s.seq.next + 1)) ∧
    (s.originDue = true → s.belay.st = .locked → s.seq.next ≤ s.seq.step → s.fencedSlices.length ≥ 2 → s.req.replay = false →
      ∃ t, exec .stepOrigin s = .next t ∧ t.power.st = .held ∧ t.power.cause = 8 ∧ t.seq.running = false ∧
        t.cairn = s.cairn.submit s.power.cycles ⟨0x16, source 3 0, 0, 3, 0⟩ s.stamp))

/-! ### Pins (chapters Exact Reduction to Update Stations): a pin that meets its conditions takes its units, and its result is in flight -/

/-- Stream `st` executes the pin of `x` next: the engine is RUNNING and no other pin is due to complete. -/
def PinDue (s : State) (st : Nat) (x : Issue) (rest : List Issue) : Prop :=
  s.power.st = .running ∧ (∀ f ∈ s.seq.flights, s.belay.count < f.done) ∧ s.seq.issue.getD st [] = x :: rest ∧ x.gone = false ∧
    s.req.replay = false

/-- The state once the pin has left the latch. -/
def Taken (s : State) (st : Nat) (x : Issue) : State := (s.unlatch st).noteLast st x

/-- The buffer is READY with a chunk, and no picot that has not ended stands on it. -/
def Holds (s : State) (sl unit : Nat) (c : Chunk) : Prop :=
  (∃ b, s.buf sl unit = some b ∧ b.st = .ready ∧ b.chunk = c) ∧ ∀ q ∈ s.seq.picots, q.done = true ∨ q.slice ≠ sl ∨ q.buf ≠ unit

/-- What a pin leaves that takes `latency` ticks: its units held, and one flight that ends then (R172).
R432: outside RUNNING no pin executes, whatever is commanded. -/
def Obligations.PinsAtTheirTicks : Prop :=
  (∀ (s : State) (st : Nat) (x : Issue) (void : Bool) (upds : List Upd),
    (s.flyHeld st x void upds).seq.flights = s.seq.flights ++
      [⟨s.belay.count + s.latency st x.pin, st, x.sec, x.index, x.pin, void, s.belay.count, upds⟩] ∧
    { (s.flyHeld st x void upds).seq with flights := s.seq.flights, holds := s.seq.holds } = s.seq ∧
    { s.flyHeld st x void upds with seq := s.seq } = s ∧
    (∀ r ∈ pinRes st x.pin, 0 < s.latency st x.pin → (s.flyHeld st x false upds).resBusy [r] = true)) ∧
  (∀ (s : State) (st : Nat), Inv s → s.power.st ≠ .running →
    ∀ c ∈ ([.nop st, .openPin st, .gate st, .seal st, .sendData st, .sendForwardWindow st, .sendPrusikAnswerWindow st,
        .sendArmGroundQueue st, .memorySourcedSend st, .expect st, .reduce st, .requant st, .deliverToStation st, .deliverToHbm st,
        .deliverToComputeScratch st, .deliverToHeatTable st, .deliverCopy st, .select st, .selectWide st, .heat st, .heatSettle st,
        .survey st, .surveyCarried st, .encode st, .decode st, .picotL0Round st, .picotPackageRound st, .routePass st, .forwardSend st,
        .backwardSend st, .returnPin st, .update st] : List Instr),
      exec c s = .next s)

/-- R165, R187, R192: NOP only leaves the latch; OPEN opens the window of its record; GATE is a NOP in locked mode, and in step gate
mode takes a doorbell, from which the step's working origin is 64 ticks away, or waits for one.
R37, R405, R407: a SEAL whose unit is free, in a step that is decided and had nothing late, closes the step's record with the SHA-256
of the seal message, so that later events enter the next step's, and completes 2,048 ticks later; its completion shows the seal, the
step number and the status, and takes the record off.
Where the rules leave a point to the reader, it states the model's reading: log 24, 53. -/
def Obligations.EnginePinsAndSeals : Prop :=
  (∀ (s : State) (st : Nat) (x : Issue) (rest : List Issue), PinDue s st x rest →
    (x.pin.op = 0 → exec (.nop st) s = .next (Taken s st x).settle) ∧
    (x.pin.op = 15 → exec (.openPin st) s = .next (State.settle { Taken s st x with
      seq := { (Taken s st x).seq with windows := s.seq.windows ++ [(x.sec, x.pin.pitch, x.pin.tick, false)] } })) ∧
    (x.pin.op = 16 → s.relaxed = false → exec (.gate st) s = .next (Taken s st x).settle) ∧
    (x.pin.op = 16 → s.relaxed = true → s.seq.doorbells = 0 → exec (.gate st) s = .next (State.settle { Taken s st x with
      seq := { (Taken s st x).seq with gateWait := true } })) ∧
    (x.pin.op = 16 → s.relaxed = true → 0 < s.seq.doorbells → ∃ t, exec (.gate st) s = .next t ∧ t.seq.doorbells = s.seq.doorbells - 1 ∧
      t.seq.gateWait = false ∧ t.seq.origin = s.belay.count + 64 ∧ t.seq.secOrigin = s.belay.count + 64 ∧
      t.seq.nextOrigin = s.pricking.head.originAfter s.seq.step (s.belay.count + 64) (s.seq.step + 1) ∧
      t.srec.host = s.srec.host ++ [leBytes 16 (1 + (s.belay.count - s.seq.origin) % 2 ^ 32 * 2 ^ 32 + s.belay.count * 2 ^ 64)])) ∧
  (∀ (s : State) (st : Nat) (x : Issue) (rest : List Issue),
    (PinDue s st x rest → x.pin.op = 17 → s.srec.decision.isSome = true → (Taken s st x).lateCairns = Taken s st x →
      (∀ h ∈ s.seq.holds, h.res ≠ .seal) →
      ∃ t, exec (.seal st) s = .next t ∧ t.sealing = s.sealing ++ [{ s.srec with digest := sha256 ((Taken s st x).sealMessage s.srec) }] ∧
        t.srec.step = s.srec.step + 1 ∧ t.srec.entries = 0 ∧ t.srec.status = 0 ∧ t.srec.decision = none ∧
        t.seq.flights = s.seq.flights ++ [⟨s.belay.count + 2048, st, x.sec, x.index, x.pin, false, s.belay.count, []⟩]) ∧
    (∀ f r more, s.dueSeal = some f → s.sealing = r :: more →
      ∃ t, exec .sealCompletion s = .next t ∧ t.sealing = more ∧ t.seq.flights = s.seq.flights.erase f ∧
        t.reg 0x28 = r.step % 2 ^ 32 ∧ t.reg 0x2C = r.step / 2 ^ 32 % 2 ^ 16 ∧
        (∀ i < 8, t.reg (0x40 + 4 * i) = bytesAt r.digest (4 * i) 4 % 2 ^ 32) ∧ t.srec.step = s.srec.step))

/-- R131, R150, R169, R186, R295: what each kind of SEND puts in flight on a port that is free.
Where the rules leave a point to the reader, it states the model's reading: log 41, 46. -/
def Obligations.Sends : Prop :=
  ∀ (s u v : State) (st : Nat) (x : Issue) (rest : List Issue), PinDue s st x rest → u = Taken s st x → v = u.takePort st x →
    u.portBusy st x = false →
    (∀ c, x.pin.isSend 0 = true → x.pin.portq ≠ 36 → u.resBusy (pinRes st x.pin) = false → Holds u st x.pin.buf c →
      exec (.sendData st) s = .next (State.settle (v.flyHeld st x false
        ((if v.upTowards x.pin.portq (v.sendDest (v.pitchOf x.pin) x.pin.portq x.pin.chunk) then
            [.send x.pin.portq (chunkPackets 0 (v.pitchOf x.pin).group v.coord (v.sendDest (v.pitchOf x.pin) x.pin.portq x.pin.chunk)
              x.pin.pitch x.pin.chunk v.seq.step (c.data ++ trailerBytes c x.pin.pitch x.pin.chunk))]
          else []) ++ releaseUpd st x.pin)))) ∧
    (x.pin.isSend 1 = true → exec (.sendForwardWindow st) s = .next (State.settle (v.flyHeld st x false []))) ∧
    (x.pin.isSend 2 = true → (v.slice st).prusik = [] → exec (.sendPrusikAnswerWindow st) s = .next (State.settle
      ((v.onSlice st (fun sl => { sl with bufs := sl.bufs.map (fun e => if e.1 = x.pin.buf then
        (e.1, { e.2 with holdUntil := Nat.max e.2.holdUntil (v.belay.count + (20 + crossing st x.pin.portq + pinWire v.image v.pricking x.pin)) })
        else e) })).flyHeld st x false []))) ∧
    (x.pin.isSend 3 = true → exec (.sendArmGroundQueue st) s = .next (State.settle (u.flyHeld st x false [.arm x.pin.portq]))) ∧
    (∀ c, x.pin.isMemSend = true → x.pin.portq ≠ 36 → u.resBusy [.movers st] = false → v.memChunk x.pin = some c →
      exec (.memorySourcedSend st) s = .next (State.settle (State.sendChunk
        (v.occupy [.movers st] v.belay.count (v.belay.count + v.latency st x.pin)) st x c [])))

/-- R176, R178, Table 5-8: the first EXPECT of a chunk whose units are free claims its buffer and opens the chunk, with the chunk of the
buffer ARG as its own contribution where it names one; a further EXPECT of a chunk that is open adds its port.
Where the rules leave a point to the reader, it states the model's reading: log 21. -/
def Obligations.Expects : Prop :=
  ∀ (s u : State) (st : Nat) (x : Issue) (rest : List Issue) (r : Pitch) (o : Opening), PinDue s st x rest → u = Taken s st x →
    x.pin.op = 2 → r = u.pitchOf x.pin →
    o = { pitch := x.pin.pitch, chunk := x.pin.chunk, buf := x.pin.buf, step := u.seq.step, ports := [x.pin.portq], coded := x.pin.coded,
          scatter := r.kind = 0, own := none, ownMissing := false, loaded := false, inputs := [], fails := [], slots := [], void := false,
          reduced := false, final := false } →
    (∀ q, u.openOf st x.pin.pitch x.pin.chunk = some q → exec (.expect st) s = .next (State.settle
      ((u.onOpen st x.pin.pitch x.pin.chunk (fun q => { q with ports := q.ports ++ [x.pin.portq] })).fly st x 1 false (releaseUpd st x.pin)))) ∧
    (u.openOf st x.pin.pitch x.pin.chunk = none → (u.slice st).unitsFree x.pin.buf r.expectUnits = true → (u.slice st).carry = [] →
      (x.pin.arg = noBuffer → u.arrayBehind st 0 = false → r.kind ≠ 0 → exec (.expect st) s = .next (State.settle
        (((u.claim st x.pin.buf r.expectUnits default).putOpen st o).flyHeld st x false (releaseUpd st x.pin)))) ∧
      (∀ c, x.pin.arg ≠ noBuffer → u.arrayBehind st (elemAdds r.owidth r.elems) = false → r.kind = 0 → Holds u st x.pin.arg c → c.null = false →
        exec (.expect st) s = .next (State.settle
          ((((u.addWork st (elemAdds r.owidth c.elems)).claim st x.pin.buf r.expectUnits c).putOpen st { o with own := some c, loaded := true }).flyHeld
            st x false (.buf st x.pin.buf .ready c :: releaseUpd st x.pin)))))

/-- In `t` a pin issued in `s` has just gone into flight, with what its completion will make visible, and HBM, the stations, the queues
and the tables outside the slices are as before: a pin changes them at its completion at the earliest (R172). -/
def InFlight (s : State) (st : Nat) (x : Issue) (upds : List Upd) (t : State) : Prop :=
  t.seq.flights = s.seq.flights ++
    [⟨s.belay.count + s.latency st x.pin, st, x.sec, x.index, x.pin, false, s.belay.count, upds⟩] ∧
  t.hbm = s.hbm ∧ t.stations = s.stations ∧ t.belay = s.belay ∧ t.power = s.power ∧ t.groups = s.groups ∧ t.gq = s.gq ∧ t.anc = s.anc ∧
  t.spikes = s.spikes

/-- R148, R133, R202: the REDUCE of an open scatter chunk whose every source has been accepted adds the inputs to its own contribution
under the pitch exponent, and its output becomes READY with its completion; one whose EXPECT ran void leaves its buffer MISSING.
Where the rules leave a point to the reader, it states the model's reading: log 36, 39. -/
def Obligations.Reductions : Prop :=
  ∀ (s u : State) (st : Nat) (x : Issue) (rest : List Issue) (r : Pitch) (o : Opening), PinDue s st x rest → u = Taken s st x →
    x.pin.op = 3 → r = u.pitchOf x.pin → o.pitch = x.pin.pitch → u.openOf st x.pin.pitch x.pin.chunk = some o →
    u.arrayBehind st (elemAdds r.owidth r.elems) = false →
    (∀ ins e c, o.void = false → (∃ b, u.buf st o.buf = some b ∧ b.st ≠ .filling) →
      (u.slotSources r o.chunk o.loaded).map (fun k => o.inputs.find? (fun i => i.rank = k ∧ !i.carried)) = ins.map some →
      (∀ i ∈ o.inputs, i.carried = false) → u.pitchExp o.pitch o.chunk = some e →
      (formOutput r u.seq.step e (match u.pricking.payload o.pitch o.chunk with | some y => y.set == 1 | none => (o.own.map (·.wide)).getD false)
        (u.image.lastScatter r) o.ownMissing o.own ins).chunk = some c →
      ∃ t, exec (.reduce st) s = .next t ∧ InFlight s st x (.buf st o.buf .ready c :: releaseUpd st x.pin) t) ∧
    (o.void = true → ∃ t, exec (.reduce st) s = .next t ∧ InFlight s st x (.buf st o.buf .missing default :: releaseUpd st x.pin) t)

/-- R55, R56, R133: each element of a reduction's output is the sum of that element over its non-null inputs, bounded by the lane and
then by the wire width, and DEV is set where either bound cut a value.
The output of a reduction does not depend on the order in which its inputs were accepted. -/
def Obligations.ExactSummation : Prop :=
  (∀ (r : Pitch) (step : Nat) (e : Int) (wide last dev : Bool) (own : Option Chunk) (ins : List Input) (live : List Chunk) (n : Nat),
    r.routed = false → r.owidth = 8 ∨ r.owidth = 9 ∨ r.owidth = 10 ∨ r.owidth = 11 →
    live = (own.toList ++ ins.map (·.chunk)).filter (fun c => !c.null) → live ≠ [] → (∀ c ∈ live, c.ints.length = n) →
    ∃ c, (formOutput r step e wide last dev own ins).chunk = some c ∧ c.null = false ∧ c.exp = e ∧ c.elems = n ∧ c.fmt = r.owidth ∧
      c.ints = (List.range n).map (fun i =>
        (satTo (formatBits r.owidth) (satTo (if r.owidth = 8 then 24 else 48) (live.map (fun c => nth c.ints i 0)).sum).1).1) ∧
      ((∃ i < n, (satTo (if r.owidth = 8 then 24 else 48) (live.map (fun c => nth c.ints i 0)).sum).2 = true ∨
        (satTo (formatBits r.owidth) (satTo (if r.owidth = 8 then 24 else 48) (live.map (fun c => nth c.ints i 0)).sum).1).2 = true) → c.dev = true)) ∧
  (∀ (r : Pitch) (step : Nat) (e : Int) (wide last dev : Bool) (own : Option Chunk) (a b : List Input), a.Perm b →
    (formOutput r step e wide last dev own a).chunk = (formOutput r step e wide last dev own b).chunk ∧
      (formOutput r step e wide last dev own a).narrowed = (formOutput r step e wide last dev own b).narrowed ∧
      (formOutput r step e wide last dev own a).laneSat = (formOutput r step e wide last dev own b).laneSat ∧
      (formOutput r step e wide last dev own a).cordErr = (formOutput r step e wide last dev own b).cordErr)

/-- R58, R59: REQUANT of the pod sum in its buffer adds the level residuals, saturating at 48 bits, and puts out the quotients by 2^s
toward zero, saturated to ±127, under the exponent plus s; the residuals keep what is left, so that nothing is lost.
Where the rules leave a point to the reader, it states the model's reading: log 44. -/
def Obligations.Requants : Prop :=
  (∀ (s u : State) (st : Nat) (x : Issue) (rest : List Issue) (c : Chunk) (e : PMapEnt) (sh : Nat) (z : List Int), PinDue s st x rest →
    u = Taken s st x → x.pin.op = 4 → u.resBusy [.movers st] = false →
    u.arrayBehind st (elemAdds (u.pitchOf x.pin).owidth (u.pitchOf x.pin).elems) = false → Holds u st x.pin.buf c →
    u.pricking.payload x.pin.pitch x.pin.chunk = some e → u.levelShift e.tensor e.unit = some sh →
    z = (List.range c.elems).map (fun i => (satTo 48 (nth c.ints i 0 + nth (u.levelRes.get [] (levelKey x.pin.pitch x.pin.chunk)) i 0)).1) →
    c.null = false →
    ∃ t, exec (.requant st) s = .next t ∧ InFlight s st x
        [.level x.pin.pitch x.pin.chunk (z.map (fun v => (requantise v sh).2.1)) e.tensor e.unit (maxNat (z.map Int.natAbs)),
         .buf st x.pin.buf .ready { c with
          fmt := 2, null := false, result := false, coded := false, prusik := false, step := u.seq.step, elems := z.length, exp := c.exp + sh
          data := packElems 2 (z.map (fun v => (requantise v sh).1)), cord := cordOf 0 c.routed false (z.map (fun v => (requantise v sh).1)) }] t) ∧
  (∀ (z : Int) (sh : Nat), (requantise z sh).1 = max (-127) (min 127 (z.tdiv (2 ^ sh))) ∧
    (requantise z sh).2.1 = z - (requantise z sh).1 * 2 ^ sh ∧ ((requantise z sh).2.2 = true ↔ 127 < (z.tdiv (2 ^ sh)).natAbs))

/-- R158, R159, R160, R171, R186, R277, R280: what a DELIVER of a READY buffer makes visible: to a station, the slots of the blocks that
the chunk carries and their squares; to HBM, the bytes of the descriptor, converted where it says so; to compute scratch, the chunk; to
the heat table, the heat codes; a copy, the bytes of the first descriptor at the second.
Where the rules leave a point to the reader, it states the model's reading: log 45, 46. -/
def Obligations.Deliveries : Prop :=
  ∀ (s u : State) (st : Nat) (x : Issue) (rest : List Issue) (md : MDesc), PinDue s st x rest → u = Taken s st x →
    md = u.pricking.mdescAt x.pin.arg →
    (∀ c, Holds u st x.pin.buf c →
      (x.pin.isToStation = true → (∀ e ∈ (u.stationWrites st x.pin none).1, u.slotInUse x.pin.portq e.1 = false) →
        ∃ t upds, exec (.deliverToStation st) s = .next t ∧ InFlight s st x upds t ∧
          ∀ e ∈ (u.stationWrites st x.pin (some c)).1, Upd.slot x.pin.portq e.1 e.2 ∈ upds ∧ (e.2.missing = false →
            Upd.norm x.pin.portq (u.image.optim.entries.get default e.2.tensor).nset 0 e.2.tensor (sumNat (e.2.data.map squareUnits)) ∈ upds)) ∧
      (x.pin.isDeliver 32 = true → u.resBusy [.movers st] = false → c.null = false →
        (∀ i, u.installTarget st md = some i → ∃ t, exec (.deliverToHbm st) s = .next t ∧
          InFlight s st x (.install st i (some (c.data.take md.length)) :: releaseUpd st x.pin) t) ∧
        (u.installTarget st md = none → (u.pitchOf x.pin).kind ≠ 2 → (u.pitchOf x.pin).kind ≠ 3 → ∃ t, exec (.deliverToHbm st) s = .next t ∧
          InFlight s st x (.mem md.base (if c.kind = 0 ∧ md.kind = 0 then
              ((u.gradients st x.pin.pitch x.pin.chunk c).1.flatMap (leBytes 4)).take (md.length / 4 * 4)
            else c.data.take md.length) :: releaseUpd st x.pin) t)) ∧
      (x.pin.isDeliver 33 = true → ∃ t, exec (.deliverToComputeScratch st) s = .next t ∧
        InFlight s st x ((if c.null then [] else [.scratch st x.pin.pitch x.pin.chunk c.data]) ++ releaseUpd st x.pin) t) ∧
      (x.pin.isDeliver 34 = true → c.null = false → ∃ t, exec (.deliverToHeatTable st) s = .next t ∧
        InFlight s st x ((indexed (c.ints.map Int.toNat)).map (fun e =>
            Upd.heat st ((u.image.policyOf (md.base % 2 ^ 20)).heatBase + md.length + e.1) (heatCode e.2)) ++
          .heard st (md.base % 2 ^ 20) (maxNat (c.ints.map Int.toNat)) c.ints.length :: releaseUpd st x.pin) t)) ∧
    (x.pin.isCopy = true → u.resBusy [.movers st] = false →
      u.hbmFaulty md.base (Nat.min md.length (u.pricking.mdescAt (x.pin.arg + 1)).length) = false →
      ∃ t, exec (.deliverCopy st) s = .next t ∧ InFlight s st x [.mem (u.pricking.mdescAt (x.pin.arg + 1)).base
        (s.hbmRead md.base (Nat.min md.length (u.pricking.mdescAt (x.pin.arg + 1)).length))] t)

/-- R97: heat codes never decrease as the heat grows, and `heatValue` is the inverse on codes: the largest heat not above the one coded
that has a code of its own.
R98: a tensor in TOPB mode selects exactly BUDGET blocks, those of its main and wide sets together: the hottest ones, and of equal codes the lowest. -/
def Obligations.Heat : Prop :=
  ((∀ a b, a ≤ b → heatCode a ≤ heatCode b) ∧ (∀ g, heatValue (heatCode g) ≤ g ∧ g < heatValue (heatCode g + 1)) ∧
    (∀ g, g < 2 ^ 31 → heatCode g ≤ 43007 ∧ (g < 2 ^ 12 → heatCode g = g ∧ heatValue g = g))) ∧
  (∀ (pol : Policy) (hc sel : List Nat), pol.runMode = 3 → hc.length = pol.n → (∀ c ∈ hc, c < 2 ^ 16) → pol.budget ≤ pol.n →
    sel = (settleOf pol hc).1 ++ (settleOf pol hc).2 →
    sel.length = pol.budget ∧ sel.Nodup ∧
      ∀ a ∈ sel, a < pol.n ∧ ∀ b < pol.n, b ∉ sel → nth hc b 0 < nth hc a 0 ∨ (nth hc b 0 = nth hc a 0 ∧ a < b))

/-- R93, R98, R103, R107, R168, R502: the pins of selection whose units and areas are free. HEAT of complete blocks puts out their local
heats in runs of a chunk; the settle fixes the tensor's sets by the codes; SELECT with WIDE set gives the tensor its side area; SELECT
keeps a residual for every block of the pin, for one block that of R103.
Where the rules leave a point to the reader, it states the model's reading: log 50. -/
def Obligations.Selections : Prop :=
  ∀ (s u : State) (st : Nat) (x : Issue) (rest : List Issue) (pol : Policy), PinDue s st x rest → u = Taken s st x →
    pol = u.image.policyOf x.pin.pitch →
    (∀ n eh, x.pin.op = 7 → x.pin.aux = false → n = ceilDiv (2 * x.pin.arg) (csizeBytes x.pin.portq) → u.resBusy (pinRes st x.pin) = false →
      u.areaFree st x.pin.buf x.pin.portq n = true → u.heatExp x.pin.pitch = some eh →
      (∀ b ∈ pol.pinBlocks st x.pin.chunk x.pin.arg, (u.block st (pol.entry b)).complete = true ∧ (u.residual x.pin.pitch b).2 = false) →
      ∃ t, exec (.heat st) s = .next t ∧ InFlight s st x
        ((((List.range n).map (fun j => (areaUnit x.pin.buf x.pin.portq j).1)).zip (pieces (csizeBytes x.pin.portq / 2)
          ((pol.pinBlocks st x.pin.chunk x.pin.arg).map (fun b =>
            (localHeat (sumNat ((u.blockX st x.pin.pitch b).1.map squareUnits)) (u.heatExpRaw x.pin.pitch)).1)))).map (fun e =>
              Upd.buf st e.1 .ready (heatChunk pol u.seq.step (some eh) (u.heatExpRaw x.pin.pitch) e.2 (csizeBytes x.pin.portq / 2)))) t) ∧
    (x.pin.op = 7 → x.pin.aux = true → u.resBusy (pinRes st x.pin) = false → ∃ t, exec (.heatSettle st) s = .next t ∧
      InFlight s st x [.settle st x.pin.pitch (settledOn pol st (settleOf pol (u.heatCodes x.pin.pitch)))] t) ∧
    (x.pin.op = 6 → x.pin.wide = true → u.areaFree st x.pin.buf x.pin.portq x.pin.arg = true → st < s.slices.length →
      (s.slice st).fenced = false →
      ∃ t, exec (.selectWide st) s = .next t ∧ (t.tensor st x.pin.pitch).side = some (x.pin.buf, x.pin.portq, x.pin.arg) ∧
        t.seq.flights = s.seq.flights ++ [⟨s.belay.count, st, x.sec, x.index, x.pin, false, s.belay.count, []⟩]) ∧
    (x.pin.op = 6 → x.pin.wide = false → u.resBusy (pinRes st x.pin) = false →
      (u.tensor st x.pin.pitch).main.isSome = true ∨
        u.areaFree st x.pin.buf x.pin.portq (pol.mainChunks st (csizeBytes x.pin.portq)) = true →
      u.needsSettle st x.pin.pitch = false ∨ ((u.tensor st x.pin.pitch).settled.isSome = true ∧ (u.tensor st x.pin.pitch).voidSettle = false) →
      (∃ t upds, exec (.select st) s = .next t ∧ InFlight s st x upds t ∧
        ∀ b ∈ pol.pinBlocks st x.pin.chunk x.pin.arg, ∃ r, Upd.resid st x.pin.pitch b r ∈ upds) ∧
      (∀ b, pol.pinBlocks st x.pin.chunk x.pin.arg = [b] → (u.tensor st x.pin.pitch).main.isSome = true →
        (u.block st (pol.entry b)).complete = true → (u.residual x.pin.pitch b).2 = false →
        ∃ t upds, exec (.select st) s = .next t ∧ InFlight s st x (Upd.resid st x.pin.pitch b (u.selectBlock st x.pin.pitch b
          (u.blockX st x.pin.pitch b).1 (u.noVisit st x.pin.pitch || u.sendsNull x.pin.pitch (pol.unitOf b)) false false).2.resid :: upds) t))

/-- R51, R101, R103: what a block of a SELECT keeps and sends: a block in neither set, a null or a void contribution keeps its sum
r + g as the residual; a block of the sets sends 1,024 elements, and in the Q8 and Q16 modes each element k keeps r' = x - k 2^e.
Where the rules leave a point to the reader, it states the model's reading: log 50. -/
def Obligations.BlockSelection : Prop :=
  ∀ (s : State) (sl t b : Nat) (xs : List Nat) (nul void unread : Bool) (pol : Policy), pol = s.image.policyOf t →
    ((s.wideSet sl t).contains b = false → (s.mainSet sl t).contains b = false →
      (s.selectBlock sl t b xs nul void unread).1 = none ∧ (s.selectBlock sl t b xs nul void unread).2.resid = xs) ∧
    ((s.wideSet sl t).contains b = true ∨ (s.mainSet sl t).contains b = true → xs.length ≤ 1024 →
      (∃ ks, (s.selectBlock sl t b xs nul void unread).1 = some ks ∧ ks.length = 1024) ∧
      (nul = true ∨ void = true → (s.selectBlock sl t b xs nul void unread).2.resid = xs) ∧
      (nul = false → void = false → unread = false → (s.block sl (pol.entry b)).late = false → pol.runMode ≠ 4 →
        ∀ q e, q = (if (s.wideSet sl t).contains b ∨ pol.runMode = 1 then 16 else 8) → e = (s.unitExp t (pol.unitOf b) q).getD 0 →
          (s.selectBlock sl t b xs nul void unread).2.resid = xs.map (fun v => plusZero (residualOf v (quantise v e q).1 e).1) ∧
          ∀ i < xs.length, nth ((s.selectBlock sl t b xs nul void unread).1.getD []) i 0 = (quantise (nth xs i 0) e q).1))

/-- R222, R224, R228, R230: ENCODE of a chunk of a pitch with a coding context puts out its blocks coded in order, and one that is null
goes through; DECODE of a chunk that stands puts out the decoded one; SURVEY of a surveyed object takes its sweep one pin further; SURVEY
with AUX set at the root of a carried context puts the next table into TBUF and its pending slot.
Where the rules leave a point to the reader, it states the model's reading: log 61. -/
def Obligations.Coding : Prop :=
  ∀ (s u : State) (st : Nat) (x : Issue) (rest : List Issue), PinDue s st x rest → u = Taken s st x →
    (∀ c, Holds u st x.pin.buf c → u.resBusy (pinRes st x.pin) = false →
      (u.slice st).unitsFree x.pin.arg (unitsFor (u.pitchOf x.pin).bytes) = true → x.pin.arg ≠ x.pin.buf →
      (x.pin.op = 9 → c.null = true → ∃ t, exec (.encode st) s = .next t ∧ InFlight s st x (.buf st x.pin.arg .ready c :: releaseUpd st x.pin) t) ∧
      (∀ i, x.pin.op = 9 → c.null = false → u.image.pitchCtx st x.pin.pitch = some i → ∃ t counts, exec (.encode st) s = .next t ∧
        InFlight s st x (.buf st x.pin.arg .ready { c with
          coded := true
          data := (encodeBlocks (u.image.ctxEnt st i).split (u.ctx st i).coding (6 * (s.latency st x.pin - 6)) (pieces 4096 c.data)).flatMap (·.1) }
          :: counts ++ releaseUpd st x.pin) t) ∧
      (∀ d, x.pin.op = 10 → u.decodeHeld st x.pin.pitch c = .ok d →
        ∃ t, exec (.decode st) s = .next t ∧ InFlight s st x (.buf st x.pin.arg .ready d :: releaseUpd st x.pin) t)) ∧
    (∀ v, x.pin.op = 8 → v = u.surveyPin st x.pin → u.resBusy (pinRes st x.pin) = false →
      (u.surveyed st x.pin = true → v.outOfOrder (u.ctx st v.ctx).survey x.pin.chunk = false → st < s.slices.length → (s.slice st).fenced = false →
        ∃ t, exec (.survey st) s = .next t ∧ InFlight s st x (u.sweepPin v (u.ctx st v.ctx).survey x.pin false).2 t ∧
          (t.ctx st v.ctx).survey = (u.sweepPin v (u.ctx st v.ctx).survey x.pin false).1) ∧
      (∀ ent rec_, u.surveyed st x.pin = false → ent = u.image.ctxEnt st v.ctx → x.pin.aux = true → u.isRoot ent = true →
        (u.ctx st v.ctx).disable = false → (u.slice st).unitsFree ent.tbuf 1 = true → rec_ = ((u.ctx st v.ctx).nextTable ent.split).bytes →
        ∃ t, exec (.surveyCarried st) s = .next t ∧
          InFlight s st x [.buf st ent.tbuf .ready (recordChunk u.seq.step rec_), .install st v.ctx (some rec_)] t))

/-- R49, R132, R145, R178: the L0 round of a picot claims its buffer and takes the slices' values into the picot's vector; a package round
sends the vector as it stood when the round began, and expects those of the round's partners.
Where the rules leave a point to the reader, it states the model's reading: log 42. -/
def Obligations.PicotRounds : Prop :=
  ∀ (s u : State) (st : Nat) (x : Issue) (rest : List Issue), PinDue s st x rest → u = Taken s st x → x.pin.op = 11 →
    (x.pin.portq = 36 → (u.slice st).unitsFree x.pin.buf 1 = true → u.picot x.pin.pitch = none →
      ∃ t, exec (.picotL0Round st) s = .next t ∧ InFlight s st x [.picot x.pin.pitch 0] t ∧
        t.picot x.pin.pitch = some ⟨x.pin.pitch, st, x.pin.buf, 0, 0, u.picotLoad x.pin.pitch, u.picotLoad x.pin.pitch, false, [], [], false, false⟩) ∧
    (∀ q b more, x.pin.portq ≠ 36 → u.portBusy st x = false → u.picot x.pin.pitch = some q → q.landed + 1 = x.pin.chunk →
      q.round + 1 = x.pin.chunk → q.void = false → q.dev = false → u.readable st x.pin.buf = true → q.expect = [] →
      (u.onPicot x.pin.pitch (fun q => { q with
        round := x.pin.chunk, base := q.vals, expect := (u.picotSources x.pin.pitch x.pin.chunk).map (fun r => (x.pin.chunk, r)) })).picotPackets x.pin =
          b :: more →
      ∃ t, exec (.picotPackageRound st) s = .next t ∧
        t.picot x.pin.pitch = some { q with
          round := x.pin.chunk, base := q.vals, expect := (u.picotSources x.pin.pitch x.pin.chunk).map (fun r => (x.pin.chunk, r)) } ∧
        t.seq.flights = s.seq.flights ++
          (if u.upTowards x.pin.portq (bytesAt b 10 2) then
            [⟨s.belay.count + 25, st, x.sec, x.index, x.side.pin, false, s.belay.count, [.send x.pin.portq (b :: more)]⟩] else []) ++
          [⟨s.belay.count + s.latency st x.pin, st, x.sec, x.index, x.pin, false, s.belay.count, [.picot x.pin.pitch x.pin.chunk]⟩])

/-- R284, R285, R288, R298, Table 13-5: an UPDATE after the step decision is in flight with its results; where the decision is not APPLY, it
writes no byte of HBM and no norm register; one on a disabled station does nothing and leaves a VOID-UPDATE entry for each block.
Where the rules leave a point to the reader, it states the model's reading: log 52. -/
def Obligations.Updates : Prop :=
  ∀ (s u : State) (st : Nat) (x : Issue) (rest : List Issue) (d : Nat), PinDue s st x rest → u = Taken s st x → x.pin.op = 14 →
    s.srec.decision = some d → u.resBusy (pinRes st x.pin) = false →
    ((s.station x.pin.portq).disable = false →
      ∃ t, exec (.update st) s = .next t ∧ InFlight s st x (u.updateUpds x.pin (d == 0) s.srec.c) t) ∧
    (d ≠ 0 → ∀ y ∈ u.updateUpds x.pin (d == 0) s.srec.c, (∀ a bs, y ≠ .mem a bs) ∧ ∀ k n w t v, y ≠ .norm k n w t v) ∧
    ((s.station x.pin.portq).disable = true → ∃ t, exec (.update st) s = .next t ∧ InFlight s st x [] t ∧
      t.srec.entries = s.srec.entries + x.pin.arg)

/-- What a token pin that is not void puts in flight: its packets towards its destination, or through PORTQ 36 its chunks landing here. -/
def TokensOut (s u : State) (st : Nat) (x : Issue) (chunks : List (List Byte)) (count : Option (List Byte)) (upds : List Upd) (t : State) : Prop :=
  ∃ pk, pk = tokenPackets (u.image.layerOf x.pin.layer).group u.coord
      ((u.image.group (u.image.layerOf x.pin.layer).group).member u.coord x.pin.rank) x.pin.pitch u.seq.step chunks count ∧
    (x.pin.portq ≠ 36 → InFlight s st x ((if u.upTowards x.pin.portq
      ((u.image.group (u.image.layerOf x.pin.layer).group).member u.coord x.pin.rank) ∧ pk ≠ [] then [.send x.pin.portq pk] else []) ++ upds) t) ∧
    (x.pin.portq = 36 → t.seq.flights = s.seq.flights ++
      [⟨s.belay.count + s.latency st x.pin, st, x.sec, x.index, x.pin, false, s.belay.count, upds⟩,
       ⟨s.belay.count + s.latency st x.pin + 14, st, x.sec, x.index, x.side.pin, false, s.belay.count, [.land x.pin.pitch (chunks ++ count.toList)]⟩])

/-- R245, R255, R256, R261, R262: a route pass writes the micro-batch's route record; a send carries a chunk for each choice of its
rank that a tile has come for, then its count chunk, and marks it SENT, or DROPPED where no tile has come; a RETURN carries the output of
every valid slot of its source.
Where the rules leave a point to the reader, it states the model's reading: log 62. -/
def Obligations.TokenPins : Prop :=
  ∀ (s u : State) (st : Nat) (x : Issue) (rest : List Issue) (l : Nat) (d : Routed), PinDue s st x rest → u = Taken s st x →
    l = x.pin.layer → d = u.image.layerOf l → u.resBusy (pinRes st x.pin) = false →
    (x.pin.isDispatch 0 = true → ∃ t upds, exec (.routePass st) s = .next t ∧ InFlight s st x upds t ∧
      .mem (d.recordAt x.pin.mb) (leBytes 6 u.seq.step ++ zeros 58) ∈ upds ∧
      t.tok.done = s.tok.done ++ [⟨l, x.pin.mb, x.pin.batch, 0, x.pin.rank, s.belay.count + s.latency st x.pin, false⟩]) ∧
    (∀ c fwd pass, (c = .forwardSend st ∧ fwd = true ∧ pass = 0 ∧ x.pin.isDispatch 1 = true) ∨
        (c = .backwardSend st ∧ fwd = false ∧ pass = 1 ∧ x.pin.isDispatch 2 = true) →
      u.portBusy st x = false → u.routed x.pin = true → (u.slice (d.homeSlice x.pin.mb)).fenced = false →
      ∃ t chunks count upds, exec c s = .next t ∧ TokensOut s u st x chunks (some count) upds t ∧
        (∀ y ∈ u.batchChoices d x.pin.mb x.pin.batch, u.image.expertRank d (field y.2.2 9 0) = x.pin.rank →
          fstatus y.2.2 = (if fwd then 6 else 2) →
          .choice l x.pin.mb y.1 y.2.1 fwd (if (u.tokTile l x.pin.mb x.pin.batch 0 pass (y.1 - x.pin.batch * d.tmax)
            (if fwd then 0 else y.2.1)).isSome then 1 else 3) ∈ upds)) ∧
    (x.pin.op = 13 → u.portBusy st x = false → u.landed x.pin = true →
      ∃ t chunks upds, exec (.returnPin st) s = .next t ∧ TokensOut s u st x chunks none upds t ∧
        chunks.length = (((List.range (u.image.routedP d)).flatMap (fun j => (List.range d.cap).map (fun i => (j, i)))).filter (fun e =>
          u.tagValid (u.image.queueAt d (d.qIn (x.pin.arg % 4)) x.pin.mb e.1) d x.pin.rank e.2)).length)

/-- R172, R176: the earliest due pin completes and what it makes visible takes effect in order: bytes of HBM are those written and no
others change; a buffer still held takes its state and chunk; a heat table entry its code. Where no pin is due, PIN_COMPLETION changes
nothing; an uncorrectable error of a slice's memory fences the slice (R473).
R176, Table 5-9: at the decision tick of a gather chunk that has not come, its buffer becomes MISSING; a buffer that stands is left
as it is.
Where the rules leave a point to the reader, it states the model's reading: log 54. -/
def Obligations.CompletionsAndDecisions : Prop :=
  ((∀ (s : State) (f : Flight), s.dueFlight = some f → f ∈ s.seq.flights ∧ f.done ≤ s.belay.count ∧
      (∀ g ∈ s.seq.flights, g.pin.op ≠ 17 → g.done ≤ s.belay.count → f.done ≤ g.done) ∧
      (f.pin.groupOf = none → exec (.pinCompletion none) s = .next (State.settle (f.upds.foldl State.applyUpd { s with
        seq := { s.seq with flights := s.seq.flights.erase f } })))) ∧
  (∀ (s : State), Inv s → (∀ f ∈ s.seq.flights, s.belay.count < f.done) → exec (.pinCompletion none) s = .next s) ∧
  (∀ (s : State) (a : Nat) (bs : List Byte), s.hbm.wf hbmBlank → (s.applyUpd (.mem a bs)).hbm.wf hbmBlank ∧
    ∀ b, (s.applyUpd (.mem a bs)).hbm.read hbmBlank b = if a ≤ b ∧ b < a + bs.length then nth bs (b - a) 0 else s.hbm.read hbmBlank b) ∧
  (∀ (s : State) (sl u : Nat) (b : Buf) (st : BufSt) (c : Chunk), sl < s.slices.length → s.buf sl u = some b →
    (s.applyUpd (.buf sl u st c)).buf sl u = some { b with st := st, chunk := c } ∧
    ∀ v, v ≠ u → (s.applyUpd (.buf sl u st c)).buf sl v = s.buf sl v) ∧
  (∀ (s : State) (sl e code x : Nat), sl < s.slices.length → ((s.applyUpd (.heat sl e code)).slice sl).heat.get 0 x =
    if x = e then code else (s.slice sl).heat.get 0 x) ∧
  (∀ (s : State) (e : MemErr), s.coreUp = true → 1 ≤ e.memory → e.memory ≤ 8 → e.memory ≠ 4 → e.unit < 8 → s.slices.length = 8 →
    (∀ f ∈ s.seq.flights, s.belay.count < f.done) →
    ∃ t, exec (.pinCompletion (some e)) s = .next t ∧ (t.slice e.unit).fenced = true)) ∧
  (∀ (s : State) (sl u : Nat) (b : Buf), s.power.st = .running → sl < 8 → s.slices.length = 8 → (s.slice sl).fenced = false → s.buf sl u = some b →
    (∃ x ∈ s.seq.issue.getD sl [], x.pin.reads u = true) → (∀ q ∈ s.seq.picots, q.done = true ∨ q.slice ≠ sl ∨ q.buf ≠ u) →
    (b.st = .filling → (∃ o ∈ (s.slice sl).opens, o.buf = u ∧ o.scatter = false ∧ o.reduced = false ∧ o.step = s.seq.step) →
      ∃ t, exec (.decisionTick sl u) s = .next t ∧ t.buf sl u = some { b with st := .missing } ∧
        ∀ o ∈ (t.slice sl).opens, o.buf = u → o.scatter = false → o.step = s.seq.step → o.reduced = true) ∧
    (b.st ≠ .filling → Inv s → exec (.decisionTick sl u) s = .next s))

/-- R149, R154, R183, R259, R261: at a pitch's CUTOFF it closes, and each of its gather and broadcast chunks with no input and no prusik
source is a gap; at its prusik cutoff the copies it waits for are late; the cutoff of a token window, and of a return, closes it.
R193: in step gate mode a pin whose operands are ready is latched, and one that has waited 2^24 ticks is latched all the same; the
pins behind it on its stream are delayed as much.
Where the rules leave a point to the reader, it states the model's reading: log 25, 40. -/
def Obligations.CutoffsAndGatedPins : Prop :=
  (∀ (s : State) (p : Nat),
    (s.cutoffDue p = true → ∃ t, exec (.pitchCutoff p) s = .next t ∧ t.seq.closed = s.seq.closed ++ [p] ∧
      ((s.pricking.pitchAt p).kind = 1 ∨ (s.pricking.pitchAt p).kind = 4 → ∀ sl < 8, ∀ o ∈ (s.slice sl).opens, o.pitch = p →
        o.step = s.seq.step → o.void = false → o.inputs = [] → o.final = false →
        s.pricking.prusikAt (s.pricking.pitchAt p) o.chunk ((s.sources (s.pricking.pitchAt p) o.chunk).headD 0) = none →
        (p, o.chunk) ∈ t.seq.gaps)) ∧
    (s.prusikDue p = true → ∃ t, exec (.prusikCutoff p) s = .next t ∧ t.seq.pclosed = s.seq.pclosed ++ [p]) ∧
    (s.tokenDue p false = true → ∃ t, exec (.tokenWindowCutoff p) s = .next t ∧ t.tok.closed = s.tok.closed ++ [p]) ∧
    (s.tokenDue p true = true → ∃ t, exec (.returnCutoff p) s = .next t ∧ t.tok.closed = s.tok.closed ++ [p])) ∧
  (∀ (s : State) (st : Nat) (x : Issue), s.dueIssue st = some x → s.req.replay = false → st < s.seq.issue.length → st < s.seq.delay.length →
    ∀ c, (c = .gatedPinReady st ∧ s.pinReady st x = true) ∨
      (c = .gateWaitTimeout st ∧ x.at_ + 2 ^ 24 ≤ s.belay.count ∧ x.pin.op ≠ 16) →
    ∃ t, exec c s = .next t ∧ t.seq.issue.getD st [] = [x] ∧ t.seq.delay.getD st 0 = s.seq.delay.getD st 0 + (s.belay.count - x.at_) ∧
      t.seq.flights = s.seq.flights ∧
      (x.pin.op ≠ 13 → t.hbm = s.hbm))

/-- R247: each choice of an expert takes the expert's next slot while fewer than C are taken, and is DROPPED after that, its counter
kept; an invalid one takes none.
R90: the next expected micro-batch advances when its tile is added, and only then; an out-of-order tile opens a window that a
tile with FINAL closes, and the block is not complete in that step; a tile is rejected only where MB exceeds MBS, or is behind with no
window open. -/
def Obligations.ExpertSlotsAndMicroBatches : Prop :=
  (∀ (key cap : Nat) (t : Tab Nat) (cs : List (Option Nat)),
    (takeSlots key cap false t cs).2.length = cs.length ∧
    (∀ e, t.get 0 (key + e) ≤ cap → (takeSlots key cap false t cs).1.get 0 (key + e) = min cap (t.get 0 (key + e) + cs.count (some e))) ∧
    (∀ i < cs.length, ∀ w, w = nth (takeSlots key cap false t cs).2 i 0 → match nth cs i none with
      | none => w = choiceBits 4 0 0
      | some e => t.get 0 (key + e) ≤ cap → w = if t.get 0 (key + e) + (cs.take i).count (some e) < cap
          then choiceBits 6 (t.get 0 (key + e) + (cs.take i).count (some e)) e else choiceBits 3 0 e)) ∧
  (∀ (b : BlockSt) (mbs mb : Nat) (final : Bool),
    (b.accept mbs mb final = none ↔ mbs < mb ∨ (b.window = false ∧ mb < b.j)) ∧
    ∀ n, b.accept mbs mb final = some n →
      n.j = (if mb = b.j then b.j + 1 else b.j) ∧
      (n.window = true ↔ final = false ∧ (b.window = true ∨ b.j < mb ∨ mb = mbs)) ∧
      (n.outOfOrder = true ↔ b.outOfOrder = true ∨ (b.window = false ∧ b.j < mb) ∨ ¬(final = true ↔ mb = mbs)) ∧
      (b.complete = false → (n.complete = true ↔ b.window = false ∧ mb = b.j ∧ mb = mbs ∧ final = true ∧ b.outOfOrder = false)) ∧
      n.late = b.late ∧ n.selected = b.selected)

/-- R81, R88, R92, R243, Table 3-2: a tile that comes outside RUNNING or to a fenced slice is counted and discarded; one that fails a
condition is discarded with the reason of the first that it fails; one of a tensor with ACC set that comes in order before the block's
SELECT is added into the residual store, and one without ACC is staged; a vector tile of a token that meets Table 7-4 is staged.
Where the rules leave a point to the reader, it states the model's reading: log 49. -/
def Obligations.Tiles : Prop :=
  ∀ (s : State) (sl : Nat) (header : BitVec 128) (payload : List Byte) (h : TileHead) (pol : Policy), h = TileHead.parse header →
    pol = s.image.policyOf h.tensor → sl < 8 → s.slices.length = 8 →
    (∀ c, c = .gradientTile sl header payload ∨ c = .tokenTile sl header payload → s.coreUp = true →
      s.power.st ≠ .running ∨ (s.slice sl).fenced = true → exec c s = .next (State.settle (s.bump 0x3A0 noUnit 1))) ∧
    (s.power.st = .running → (s.slice sl).fenced = false → s.req.replay = false → s.req.replayWait = [] → h.kind ≠ 1 →
      (∀ reason, reason = (if h.kind = 2 ∨ h.kind = 3 then 1 else if h.tensor ≥ 65536 ∨ pol.mode = 0 then 2 else if h.block ≥ pol.n then 3
          else if (pol.home h.block).1 ≠ sl then 4 else if h.count ≠ pol.blockElems h.block then 5
          else if tagOrder h.tag s.seq.step = .later then 6 else 0) → reason ≠ 0 →
        exec (.gradientTile sl header payload) s = .next (State.settle ((s.bump (0x40 + 4 * reason) (unitWord 0 sl 0) 1).dev
          ⟨0x11, reason, sl, h.tensor, h.block, 0, 0⟩))) ∧
      (∀ blk, h.kind = 0 → h.tensor < 65536 → pol.mode ≠ 0 → h.block < pol.n → (pol.home h.block).1 = sl → h.count = pol.blockElems h.block →
        tagOrder h.tag s.seq.step = .same → blk = s.block sl (pol.entry h.block) → blk.selected = false →
        (∀ n, pol.acc = true → blk.accept pol.mbs h.mb h.final = some n →
          ∃ t, exec (.gradientTile sl header payload) s = .next t ∧ t.block sl (pol.entry h.block) = n ∧
            t.hbm = Memory.writeN hbmBlank s.hbm (pol.resBase + 4096 * h.block)
              ((addTile (s.residual h.tensor h.block).1 (tileElems h.fmt h.count payload).1).1.flatMap (leBytes 4))) ∧
        (pol.acc = false → h.mb = 0 → h.final = true → blk.complete = false → h.fmt ≤ 3 → s.intakeFull sl h.tensor h.block = false →
          ∃ t, exec (.gradientTile sl header payload) s = .next t ∧ t.block sl (pol.entry h.block) = { blk with complete := true } ∧
            (t.slice sl).tiles = (s.slice sl).tiles ++ [⟨h.tensor, h.block, (tileElems h.fmt h.count payload).1⟩] ∧ t.hbm = s.hbm))) ∧
    (∀ k l d, k = TokHead.parse header → l = (k.stream - 0x10000) / 2 → d = s.image.layerOf l → s.power.st = .running → (s.slice sl).fenced = false →
      s.req.replay = false → h.kind = 1 → 0x10000 ≤ k.stream → k.stream ≤ 0x10000 + 8191 → d.valid = true → k.sub = 0 → k.fmt = d.vfmt →
      k.final = false → k.resv = 0 → sl = d.homeSlice k.mb → k.count = d.h → tagOrder k.tag s.seq.step = .same → k.index < d.tmax →
      k.batch = 0 → (∀ y ∈ s.tok.last, y.layer = l → y.mb = k.mb → y.sub ≠ 0) → s.tokLate d l k (k.stream % 2) = false →
      ∃ t, exec (.tokenTile sl header payload) s = .next t ∧
        ⟨l, k.mb, k.batch, 0, k.stream % 2, k.index, k.choice, k.position, payload⟩ ∈ t.tok.tiles ∧ t.hbm = s.hbm ∧
        t.srec.entries = s.srec.entries)

/-! ### Links (chapter Link Ports): flits and their retry, markers, what the ports carry -/

/-- The answer of a command: the next state `x`, settled, with the queue that the command was given. -/
def nextOf (s x : State) : Host.Outcome State Fault Refusal := .next { x.settle with pending := s.pending }

/-- Link `l` is that of native port `p`, which carries flits. -/
def OnLink (s : State) (p : Nat) (l : Link) : Prop := p < 32 ∧ (s.port p).link = l ∧ l.live = true

/-- The idle flit that asks for a replay from E (R304, R306). -/
def nakFlit (l : Link) : List Byte := flitBytes ⟨true, true, l.txSeq, l.rxSeq, false⟩ []

/-- The NAK of a link put on its wire now. -/
def Naks (s : State) (p : Nat) (l : Link) : State :=
  s.onPort p (fun q => { q with
    wire := q.wire ++ [nakFlit l]
    link := { q.link with errOpen := true, nakDue := false, nakTick := s.belay.count, ackOwed := none } })

/-- R306, R309, R346: a flit counts its codewords. A data flit that is good and has SEQ = E is accepted: E advances, the error event
ends, and the packets that it completes wait at the port. A replay duplicate does nothing. A bad flit, or one out of sequence, is
discarded, and the first discard of an error event sends NAK with ACK = E; an idle flit that is bad does nothing, one that is good frees
what its ACK covers. More than 64 uncorrectable codewords in 250 ticks take an UP port to FRAME with a LINK-DOWN cairn of cause 3.
R306, R307, R309, R460: NAK is sent again where E has not come within 2 h_m + 8 ticks of it, and not sooner; flits that stay
unacknowledged for 2 h_m + 16 ticks go out again, oldest first, with the current ACK and a LINK-RETRY cairn, and not sooner; at the
16th replay without progress the port goes down. At the end of a window of 250,000 ticks the corrected codewords are counted anew, and
more than a threshold other than 0 raise LINK-CORR.
Where the rules leave a point to the reader, it states the model's reading: log 9. -/
def Obligations.LinkFlits : Prop :=
  (∀ (s u : State) (p : Nat) (l : Link) (bs : List Byte) (h : FlitHead) (c bad : Nat), OnLink s p l → p < s.ports.length →
    u = s.codewords p c bad → h = FlitHead.parse (bytesAt bs 0 4) →
    ((l.st = .up → (u.port p).link.uncorr.length ≤ 64) →
      (bad = 0 → bytesAt bs 252 4 = crc32c (bs.take 252) →
        (h.idle = false → h.seq = l.rxSeq → l.kept = [] → l.txq = [] → ∀ pks rest,
          readPackets 32 (l.partialPkt ++ (bs.drop 4).take 248) = (pks, rest) → (∀ b ∈ pks, packetGood b = true) →
          exec (.flit p bs c bad) s = (nextOf s (u.onPort p (fun q => { q with
            rx := q.rx ++ pks
            link := { q.link with rxSeq := (l.rxSeq + 1) % 4096, errOpen := false, partialPkt := rest } })))) ∧
        (h.idle = false → h.seq ≠ l.rxSeq → seqPast 4096 h.seq l.rxSeq = true → exec (.flit p bs c bad) s = nextOf s u) ∧
        (h.idle = false → h.seq ≠ l.rxSeq → seqPast 4096 h.seq l.rxSeq = false → l.errOpen = false →
          exec (.flit p bs c bad) s = nextOf s (Naks u p l)) ∧
        (h.idle = false → h.seq ≠ l.rxSeq → seqPast 4096 h.seq l.rxSeq = false → l.errOpen = true →
          exec (.flit p bs c bad) s = nextOf s u) ∧
        (h.idle = true → h.nak = false → l.txq = [] → ∀ k ks, l.kept = k :: ks → seqPast 4096 k.seq h.ack = true →
          exec (.flit p bs c bad) s = (nextOf s (u.onPort p (fun q => { q with
            link := { q.link with kept := l.kept.dropWhile (fun k => seqPast 4096 k.seq h.ack), replays := 0, ackTick := s.belay.count } }))))) ∧
      (0 < bad ∨ bytesAt bs 252 4 ≠ crc32c (bs.take 252) →
        (h.idle = false → l.errOpen = false →
          exec (.flit p bs c bad) s = nextOf s (Naks (u.bump (portCounter p 2) noUnit 1) p l)) ∧
        (h.idle = true ∨ l.errOpen = true → exec (.flit p bs c bad) s = (nextOf s (u.bump (portCounter p 2) noUnit 1))))) ∧
    (l.st = .up → 64 < (u.port p).link.uncorr.length → exec (.flit p bs c bad) s = (nextOf s
      (State.raise (State.bump (u.onPort p (fun q => { q with link := q.link.restart .frame })) (portCounter p 6) noUnit 1)
        0x03 (source 8 p) 0 3 0)))) ∧
  (∀ (s : State) (p : Nat) (l : Link), p < s.ports.length →
    (OnLink s p l →
      (l.errOpen = true → l.nakTick + 2 * l.hm + 8 ≤ s.belay.count → exec (.nakResendTimer p) s = nextOf s (Naks s p l)) ∧
      (l.errOpen = false ∨ s.belay.count < l.nakTick + 2 * l.hm + 8 → Inv s → exec (.nakResendTimer p) s = .next s) ∧
      (∀ k ks u, l.kept = k :: ks → l.ackTick + 2 * l.hm + 16 ≤ s.belay.count →
        u = State.raise (State.bump (State.bump (s.onPort p (fun q => { q with
            wire := q.wire ++ l.kept.map (fun k => flitBytes ⟨false, false, k.seq, l.rxSeq, false⟩ ((k.bytes.drop 4).take 248))
            link := { q.link with replays := l.replays + 1, ackTick := s.belay.count } }))
          (portCounter p 3) noUnit 1) (portCounter p 4) noUnit l.kept.length) 0x02 (source 8 p) 0 l.kept.length k.seq →
        (l.replays + 1 < 16 → exec (.replayOnSilence p) s = nextOf s u) ∧
        (16 ≤ l.replays + 1 → l.st = .up → exec (.replayOnSilence p) s = (nextOf s
          (State.raise (State.bump (u.onPort p (fun q => { q with link := q.link.restart .frame })) (portCounter p 6) noUnit 1)
            0x03 (source 8 p) 0 1 0)))) ∧
      (l.kept = [] ∨ s.belay.count < l.ackTick + 2 * l.hm + 16 → Inv s → exec (.replayOnSilence p) s = .next s)) ∧
    (∀ u, p < 36 → s.belay.count % 250000 = 0 → u = s.onPort p (fun q => { q with corrected := 0 }) →
      (s.reg (0x10000C + 0x100 * p) ≠ 0 → s.reg (0x10000C + 0x100 * p) < (s.port p).corrected → exec (.linkCorrWindow p) s = (nextOf s
        (u.raise 0x01 (source 8 p) 0 (s.port p).corrected (s.reg (0x10000C + 0x100 * p))))) ∧
      (s.reg (0x10000C + 0x100 * p) = 0 ∨ (s.port p).corrected ≤ s.reg (0x10000C + 0x100 * p) → exec (.linkCorrWindow p) s = nextOf s u)))

/-- Packet `pkt`, of a type of Table 9-4, is the oldest of its channel at port `p`. -/
def Waits (s : State) (p : Nat) (pkt : List Byte) (type : Nat) : Prop :=
  bytesAt pkt 0 1 % 32 = type ∧ (s.port p).rx.find? (fun b => bytesAt b 0 1 / 32 == bytesAt pkt 0 1 / 32) = some pkt

/-- The state once it has been taken from the receive buffer, its credit owed (R325). -/
def Received (s : State) (p : Nat) (pkt : List Byte) : State := (s.onPort p (fun q => { q with rx := q.rx.erase pkt })).owe p pkt

/-- The packet that waits, with its header: it comes by port `p`, and `u` is the state once it has been taken. -/
def Arrives (s u : State) (p : Nat) (pkt : List Byte) (type : Nat) (h : PktHead) : Prop :=
  Waits s p pkt type ∧ u = Received s p pkt ∧ h = PktHead.parse pkt

/-- R131, R136, R148, R176, R178, R328: a packet of a chunk for another package is forwarded, or discarded where it has passed it. One for
this package is kept only while something waits for its chunk; when its chunk is whole and passes its checks, a scatter chunk takes one more
input, and the buffer of a gather chunk is READY with it. A chunk with a bad CRC raises CHUNK-CHECK, and its input counts as failed.
Where the rules leave a point to the reader, it states the model's reading: log 21, 37. -/
def Obligations.ChunksReceived : Prop :=
  ∀ (s u : State) (p : Nat) (pkt : List Byte) (h : PktHead), Arrives s u p pkt 0x01 h →
    (h.dst ≠ u.coord → (∀ out, u.onward p h = some out → exec (.chunk p pkt) s = nextOf s (u.transmit out [pkt])) ∧
      (u.onward p h = none → exec (.chunk p pkt) s = (nextOf s (u.linkCount p (h.src % 32) 8 1)))) ∧
    (h.dst = u.coord → h.vc = 0 → h.first = true → u.seq.asm = [] →
      (u.chunkOpening p h = none → exec (.chunk p pkt) s = nextOf s u) ∧
      (∀ e, u.chunkOpening p h = some e → h.last = false → exec (.chunk p pkt) s = (nextOf s { u with
        seq := { u.seq with asm := [⟨p, 0, h.pitch, h.chunk, h.src, packetPayload pkt⟩] } })) ∧
      (∀ sl o whole, u.chunkOpening p h = some (sl, o) → h.last = true → whole = packetPayload pkt → o.void = false → o.step = u.seq.step →
        (∀ c i, u.checkChunk sl o.pitch o.chunk (o.scatter || o.coded) (if o.scatter then u.pitchExp o.pitch o.chunk else none) whole = .ok c →
          c.prusik = false → c.step = u.seq.step →
          i = ⟨u.image.rankOf (u.pricking.pitchAt o.pitch).group h.src, (Trailer.parse (whole.drop (whole.length - 32))).crc, c, false⟩ →
          (o.scatter = true → o.reduced = false → (∀ y ∈ o.inputs, y.rank = i.rank → y.carried = true) →
            exec (.chunk p pkt) s = (nextOf s ((u.onOpen sl o.pitch o.chunk (fun o => { o with inputs := o.inputs ++ [i] })).addWork sl
              (if c.null then 0 else elemAdds (u.pricking.pitchAt o.pitch).owidth c.elems)))) ∧
          (o.scatter = false → o.final = false → o.inputs = [] → o.slots ≠ [] ∨ (o.reduced = false ∧ o.pitch ∉ u.seq.closed) →
            exec (.chunk p pkt) s = (nextOf s ((u.setBuf sl o.buf .ready c).onOpen sl o.pitch o.chunk
              (fun o => { o with inputs := [i], reduced := true }))))) ∧
        (∀ r, r = u.image.rankOf (u.pricking.pitchAt o.pitch).group h.src → 32 ≤ whole.length →
          crc32c (whole.take (whole.length - 32) ++ (whole.drop (whole.length - 32)).take 8 ++ (whole.drop (whole.length - 32)).drop 12) ≠
            (Trailer.parse (whole.drop (whole.length - 32))).crc →
          o.scatter = true → o.reduced = false → tagOrder (Trailer.parse (whole.drop (whole.length - 32))).tag u.seq.step = .same →
          exec (.chunk p pkt) s = (nextOf s ((u.raise 0x04 (sliceSource 4 sl) 0 (o.pitch + r * 2 ^ 16) o.chunk).onOpen sl o.pitch o.chunk
            (fun o => { o with fails := o.fails ++ [(r, 0x0D, 0x04)] })))))) ∧
    (h.dst = u.coord → h.vc ≠ 0 → h.first = true → h.last = true → u.seq.asm = [] → (u.picot h.pitch).isSome = true →
      exec (.chunk p pkt) s = nextOf s (u.picotInput h.src h.pitch h.chunk (packetPayload pkt)))

/-- R149, R150, R323: a prusik request for another package goes on by displacement; at its source it is held once on each slice whose
stream has the answer window, and one of another step does nothing. A request leaves when its tick has come, at most one in any 64 ticks,
and one that displaces a flit of a window is counted.
R258, R259, R260, Table 7-11: a token chunk for an open landing that passes its checks is written to its slot of its expert's queue with
its tag, if the slot has none for this step; a count chunk is kept for its source; a chunk with a bad CRC is counted, and its source has a
loss; one that comes after the window, or of another step, is only counted.
Where the rules leave a point to the reader, it states the model's reading: log 41, 62. -/
def Obligations.TokenTraffic : Prop :=
  ((∀ (s u : State) (p : Nat) (pkt : List Byte) (h : PktHead), Arrives s u p pkt 0x03 h →
    (∀ out, h.dst ≠ u.coord → u.onward p h = some out →
      exec (.prusikReq p pkt) s = (nextOf s (u.onPort out (fun q => { q with prusik := q.prusik ++ [(s.belay.count, pkt)] })))) ∧
    (h.dst = u.coord → h.seq ≠ u.seq.step % 2 ^ 16 → exec (.prusikReq p pkt) s = nextOf s u) ∧
    (h.dst = u.coord → h.seq = u.seq.step % 2 ^ 16 → ∃ t, exec (.prusikReq p pkt) s = .next t ∧
      ∀ sl, (u.slice sl).fenced = false → sl < u.slices.length →
        (t.slice sl).prusik = (u.slice sl).prusik ++
          (if sl ∈ u.answerSlices h.pitch h.chunk ∧ (∀ y ∈ (u.slice sl).prusik, ¬(y.from_ = h.src ∧ y.rpitch = bytesAt (packetPayload pkt) 0 2 ∧
              y.rchunk = bytesAt (packetPayload pkt) 2 3))
            then [⟨h.pitch, h.chunk, h.src, bytesAt (packetPayload pkt) 0 2, bytesAt (packetPayload pkt) 2 3, h.group, false⟩] else []))) ∧
  (∀ (s u : State) (p due : Nat) (pkt : List Byte) (rest : List (Nat × List Byte)), (s.port p).prusik = (due, pkt) :: rest →
    u = s.onPort p (fun q => { q with prusik := rest, prusikTick := some s.belay.count }) →
    (due ≤ s.belay.count → (∀ t, (s.port p).prusikTick = some t → t + 64 ≤ s.belay.count) →
      ((s.port p).inWindow s.belay.count = none → exec (.prusikRequestSend p) s = nextOf s (u.transmit p [pkt])) ∧
      (∀ w, (s.port p).inWindow s.belay.count = some w → s.upTowards p (PktHead.parse pkt).dst = true → exec (.prusikRequestSend p) s = (nextOf s ((u.linkCount p (packetW pkt) 5 1).transmit p [pkt])))) ∧
    (s.belay.count < due ∨ (∃ t, (s.port p).prusikTick = some t ∧ s.belay.count < t + 64) → Inv s →
      exec (.prusikRequestSend p) s = .next s))) ∧
  (∀ (s u : State) (p : Nat) (pkt : List Byte) (h : PktHead) (whole data tb : List Byte) (t : TokTrailer) (d : Routed) (sl : Nat), Arrives s u p pkt 0x02 h →
    h.dst = u.coord → h.first = true → h.last = true → whole = packetPayload pkt → 32 ≤ whole.length → data = whole.take (whole.length - 32) →
    tb = whole.drop (whole.length - 32) → t = TokTrailer.parse tb → t.len = data.length → d = u.image.layerOf t.layer →
    sl = d.homeSlice t.mb → u.tokenPins h.pitch true = [] →
    (h.pitch ∈ u.tok.closed ∨ t.tag ≠ u.seq.step % 2 ^ 16 → exec (.tokens p pkt) s = (nextOf s (u.tokenCount 9 t.layer 1))) ∧
    (h.pitch ∉ u.tok.closed → t.tag = u.seq.step % 2 ^ 16 →
      (crc32c (data ++ tb.drop 4) ≠ bytesAt tb 0 4 → exec (.tokens p pkt) s = (nextOf s
        (({ u.tokenCount 11 t.layer 1 with tok := { u.tok with losses := u.tok.losses ++ [(h.pitch, t.srank)] } } : State).tally 3 sl h.pitch 1))) ∧
      (crc32c (data ++ tb.drop 4) = bytesAt tb 0 4 → tokReservedZero tb = true → (t.layer, t.mb, t.pass) ∈ u.served h.pitch false →
        t.drank = (u.image.group d.group).rank u.coord → t.pitch = h.pitch → t.srank < u.image.routedG d →
        (t.type = 2 → t.coded = false → data.length = 4 * u.image.routedP d → u.relaxed = false →
          exec (.tokens p pkt) s = (nextOf s { u with tok := { u.tok with counts := u.tok.counts ++
            [⟨h.pitch, t.layer, t.mb, t.pass, t.srank, (List.range (u.image.routedP d)).map (fun j => bytesAt data (4 * j) 4)⟩] } })) ∧
        (∀ q, t.type = 0 → t.slot < d.cap → t.expert < u.image.routedP d → t.fmt = d.vfmt → t.coded = false → data.length = d.vbytes →
          u.req.replay = false → q = u.image.queueAt d (d.qIn t.pass) t.mb t.expert →
          (u.tagValid q d t.srank t.slot = true → exec (.tokens p pkt) s = (nextOf s (u.tokenCount 10 t.layer 1))) ∧
          (u.tagValid q d t.srank t.slot = false → exec (.tokens p pkt) s = (nextOf s
            (((u.hbmWrite (q + u.image.vectorOff d t.srank t.slot) data).hbmWrite (q + d.tagOff t.srank t.slot)
              (leBytes 8 (t.token + t.choice * 2 ^ 24 + u.seq.step % 2 ^ 16 * 2 ^ 28 + 2 ^ 63))).tokenCount (7 + t.pass) t.layer 1)))))))

/-- A VC4 packet of this package to the peer of a native port (R337, Table 9-4). -/
def toPeer (s : State) (p type : Nat) (payload : List Byte) : List Byte :=
  packetBytes { (default : PktHead) with vc := 4, type := type, src := s.coord, dst := (s.port p).link.peer, first := true, last := true } [] payload

/-- R325: a CREDIT packet gives its units back to each channel; what is owed is returned once it comes to 16 units, or 256 ticks after the
last return, and waits for a slot on an UP port.
R319, R322, R329, R330, Table 9-14: the one VC3 or VC4 packet that waits at a native port leaves when it has credit and ends before
the next setup or window, its credit and bytes counted; while it may not start, it waits. The deficits of the round robins alone are left open.
Where the rules leave a point to the reader, it states the model's reading: log 19. -/
def Obligations.CreditsAndGroundSlots : Prop :=
  (∀ (s u : State) (p : Nat) (pkt pay : List Byte) (h : PktHead), p < 32 → p < s.ports.length → pay = packetPayload pkt →
    (Arrives s u p pkt 0x14 h → exec (.credit p pkt) s = (nextOf s (u.onPort p (fun q => { q with
      link := { q.link with
        credits := [nth q.link.credits 0 0 + bytesAt pay 0 2, nth q.link.credits 1 0 + bytesAt pay 2 2, nth q.link.credits 2 0 + bytesAt pay 4 2] } })))) ∧
    (∀ l a b c, OnLink s p l → l.owed = [a, b, c] →
      (l.st = .up → a + b + c ≠ 0 → 16 ≤ a + b + c ∨ l.creditTick + 256 ≤ s.belay.count →
        exec (.creditSend p) s = (nextOf s (s.onPort p (fun q => { q with
          link := { q.link with owed := [0, 0, 0], creditTick := s.belay.count }
          control := q.control ++ [toPeer s p 0x14 (leBytes 2 a ++ leBytes 2 b ++ leBytes 2 c ++ zeros 2)] })))) ∧
      (a + b + c = 0 ∨ (a + b + c < 16 ∧ s.belay.count < l.creditTick + 256) → Inv s → exec (.creditSend p) s = .next s))) ∧
  (∀ (s : State) (p : Nat), p < 32 → p < s.ports.length →
    (∀ g, (s.port p).ground = [g] → (s.port p).control = [] → s.creditFor p g.bytes = true → roundUp g.bytes.length 8 ≤ 4144 →
      field (s.reg (0x100010 + 0x100 * p)) 7 0 ≠ 0 →
      (s.mayStart p g.bytes.length = true → ∃ (ds : List Nat) (es : List DrrEnt), exec (.groundPacketSend p) s = (nextOf s
        (State.groundOut (s.onPort p (fun q => ({ q with ground := [], deficits := ds } : Port).setDeficits es)) p
          (packetBytes { PktHead.parse g.bytes with fan := Nat.min 255 ((s.port p).activeWeight s.belay.count) }
            (extBytes g.bytes (PktHead.parse g.bytes)) (packetPayload g.bytes))))) ∧
      (s.mayStart p g.bytes.length = false → Inv s → exec (.groundPacketSend p) s = .next s)) ∧
    (∀ b, (s.port p).control = [b] → (s.port p).ground = [] → s.creditFor p b = true → roundUp b.length 8 ≤ 4144 → bytesAt b 0 1 % 32 ≠ 0x13 →
      field (s.reg (0x100010 + 0x100 * p)) 15 8 ≠ 0 →
      (s.mayStart p b.length = true → ∃ ds : List Nat, exec (.groundPacketSend p) s = (nextOf s
        (State.groundOut (s.onPort p (fun q => { q with control := [], deficits := ds })) p b))) ∧
      (s.mayStart p b.length = false → Inv s → exec (.groundPacketSend p) s = .next s)) ∧
    ((s.port p).control = [] → (s.port p).ground = [] → Inv s → exec (.groundPacketSend p) s = .next s))

/-- R331 to R335, Table 9-14: a frame with a bad FCS, a PAUSE frame, one for another address and one of another EtherType are counted and
do nothing else; a frame of the carriage with PSEQ = E is accepted, its packet waits at the port, and an acknowledgement is owed, which
ACKONLY_SEND sends where nothing else has.
Where the rules leave a point to the reader, it states the model's reading: log 11. -/
def Obligations.CarriageFrames : Prop :=
  ∀ (s : State) (p n : Nat) (bs : List Byte), p < 36 → n + 4 = bs.length → (s.port p).link.st = .up →
    (∀ k, 32 ≤ p →
      (fcs (bs.take n) ≠ bytesAt bs n 4 ∧ k = 2) ∨ (fcs (bs.take n) = bytesAt bs n 4 ∧ be16 bs (etherAt bs) = 0x8808 ∧ k = 10) ∨
        (fcs (bs.take n) = bytesAt bs n 4 ∧ be16 bs (etherAt bs) ≠ 0x8808 ∧ be16 bs (etherAt bs) ≠ 0x88F7 ∧ bs.take 6 ≠ s.mac s.coord (p - 32) ∧ k = 9) ∨
        (fcs (bs.take n) = bytesAt bs n 4 ∧ be16 bs (etherAt bs) ≠ 0x8808 ∧ be16 bs (etherAt bs) ≠ 0x88F7 ∧ bs.take 6 = s.mac s.coord (p - 32) ∧
          be16 bs (etherAt bs) ≠ field (s.reg 0x106000) 15 0 ∧ k = 11) →
      exec (.carriageFrame p bs) s = (nextOf s (s.bump (portCounter p k) noUnit 1))) ∧
    (∀ w l rest pkt, 32 ≤ p → fcs (bs.take n) = bytesAt bs n 4 → be16 bs (etherAt bs) = field (s.reg 0x106000) 15 0 →
      be16 bs (etherAt bs) ≠ 0x8808 → be16 bs (etherAt bs) ≠ 0x88F7 → bs.take 6 = s.mac s.coord (p - 32) → w = be16 bs 8 % 32 →
      rest = (bs.take n).drop (etherAt bs + 2) → l = s.path (p - 32) w → l.live = true → l.kept = [] → l.txq = [] →
      32 * (p - 32) + w < s.paths.length →
      flag (bytesAt rest 0 8) 33 = false → field (bytesAt rest 0 8) 15 0 = l.rxSeq → pkt = (rest.drop 8).take (PktHead.parse (rest.drop 8)).total →
      packetGood pkt = true →
      exec (.carriageFrame p bs) s = (nextOf s ((s.onPath (p - 32) w (fun l => { l with
        rxSeq := (l.rxSeq + 1) % 65536, errOpen := false, ackOwed := some (l.ackOwed.getD s.belay.count) })).onPort p
          (fun q => { q with rx := q.rx ++ [pkt] })))) ∧
    (∀ w l t, 32 ≤ p → l = s.path (p - 32) w → l.live = true → l.ackOwed = some t →
      exec (.ackonlySend p w) s = (nextOf s ((s.onPort p (fun q => { q with
        wire := q.wire ++ [s.frame (p - 32) w none l.txSeq l] })).onPath (p - 32) w (fun l => { l with ackOwed := none, nakDue := false }))))

/-- R311, R312: MARK goes out once at a count that is a multiple of 1,024; a BELAY packet names the next MARK, and waits for a slot on
an UP port; what a BELAY packet says is kept for the receiver.
R389, R394, R388: a MARK that reaches a LOCKED receiver from its candidate is assigned the multiple of 1,024 nearest to the count at its
instant less λ. One that does not agree with the last BELAY packet is discarded and counted; a phase error within 3 core cycles makes the
marker good, one above it begins or continues a bad run. In ACQUIRE, errors within 1/4 core cycle make the run of good markers.
Where the rules leave a point to the reader, it states the model's reading: log 58. -/
def Obligations.MarkersAndBelay : Prop :=
  (∀ (s : State) (p : Nat) (l : Link) (pkt : List Byte), p < s.ports.length →
    (OnLink s p l →
      (s.belay.count % 1024 = 0 → (s.port p).markSent ≠ s.belay.count → exec (.belayMarkerSend p) s = (nextOf s
        (s.onPort p (fun q => { q with
          link := { q.link with nakDue := false }
          markSent := s.belay.count
          wire := q.wire ++ [flitBytes ⟨true, l.nakDue, l.txSeq, l.rxSeq, true⟩ []] })))) ∧
      (s.belay.count % 1024 ≠ 0 ∨ (s.port p).markSent = s.belay.count → Inv s → exec (.belayMarkerSend p) s = .next s) ∧
      (l.st = .up → s.belay.count % 1024 ≠ 0 → exec (.belayPacketSend p) s = (nextOf s
        (s.onPort p (fun q => { q with
          belayTick := s.belay.count
          control := q.control ++ [packetBytes { (default : PktHead) with
              vc := 4, type := 0x13, src := s.coord, dst := l.peer, first := true, last := true } []
            (leBytes 8 ((s.belay.count / 1024 + 1) * 1024) ++ leBytes 1 (ofBool (s.belay.st == .locked) +
              2 * ofBool (s.image.config.belay.role == 2)) ++ zeros 7)] }))))) ∧
    (Waits s p pkt 0x13 → exec (.belay p pkt) s = (nextOf s ((Received s p pkt).onPort p (fun q => { q with
      belayRx := some (bytesAt (packetPayload pkt) 0 8, flag (bytesAt (packetPayload pkt) 8 1) 0, flag (bytesAt (packetPayload pkt) 8 1) 1) }))))) ∧
  (∀ (s : State) (p a lam m n : Nat) (v root : Bool) (err : Int), Inv s → s.power.standby = true → (s.port p).link.lambda = some lam →
    (s.port p).belayRx = some (m, v, root) → n = nearestMark ((a : Int) - lam) → err = (a : Int) - lam - n * 192 →
    (s.belay.st = .locked → s.belay.cand = p →
      (n < m ∨ m + 66560 < n → exec (.belayMarker p a) s = .next { s with
        belay := { s.belay with discarded := s.belay.discarded + 1, disagree := s.belay.disagree + 1 } }) ∧
      (m ≤ n → n ≤ m + 66560 →
        (err.natAbs ≤ 96 → exec (.belayMarker p a) s = .next { s with
          belay := { s.belay with phase := err, badRun := 0, disagree := 0, lastGood := s.belay.count } }) ∧
        (96 < err.natAbs → exec (.belayMarker p a) s = .next { s with
          belay := { s.belay with phase := err, badRun := s.belay.badRun + 1, disagree := 0 } }))) ∧
    (s.belay.st ≠ .locked → p ∈ s.candidates → exec (.belayMarker p a) s = .next { s with
      belay := { s.belay with phase := err, goodRun := if err.natAbs ≤ 8 then s.belay.goodRun + 1 else 0 } }))

/-- A master-to-slave interval is taken (R391, R393): the offset is what is left of it after the mean path delay. -/
def Synced (s : State) (ms : Int) (t : State) : Prop :=
  t = { s with belay := { s.belay with
    ms := some ms, offset := ms - s.belay.delay, phase := ms - s.belay.delay, syncWait := none
    goodRun := if (ms - s.belay.delay).natAbs ≤ 672 then s.belay.goodRun + 1 else 0
    badRun := if (ms - s.belay.delay).natAbs ≤ 672 then 0 else s.belay.badRun + 1
    lastGood := if (ms - s.belay.delay).natAbs ≤ 672 then s.belay.count else s.belay.lastGood } }

/-- R391, R392, R393: the machine root sends Sync with its time, 4 ns for each count, and answers a Delay_Req of its domain with the instant at
which it came; a pod root sends Delay_Req, takes the offset of a one-step Sync at once and of a two-step Sync with its Follow_Up, and forms
the mean path delay from a Delay_Resp to its own request.
Where the rules leave a point to the reader, it states the model's reading: log 59. -/
def Obligations.TimeMessages : Prop :=
  ∀ (s : State) (port : Nat) (msg : PtpMsg), Inv s →
    (s.belayBlock.role = 2 → s.belay.st = .locked → s.carriageUp port = true → exec (.syncSend port) s = .next { s with
      belay := { s.belay with
        ptpOut := s.belay.ptpOut ++ [(0, port, s.belay.ptpSeq, (s.belay.count : Int) * 192)], ptpSeq := (s.belay.ptpSeq + 1) % 65536 } }) ∧
    (s.belayBlock.role = 1 → port ∈ s.candidates → s.carriageUp port = true → exec (.delayReqSend port) s = .next { s with
      belay := { s.belay with
        ptpOut := s.belay.ptpOut ++ [(1, port, s.belay.ptpSeq, (s.belay.count : Int) * 192)], ptpSeq := (s.belay.ptpSeq + 1) % 65536
        dreq := some (s.belay.ptpSeq, (s.belay.count : Int) * 192) } }) ∧
    (s.power.standby = true → s.belayBlock.role = 2 → msg.domain = s.belayBlock.domain → s.carriageUp msg.port = true →
      exec (.delayReq msg) s = .next { s with belay := { s.belay with ptpOut := s.belay.ptpOut ++ [(3, msg.port, msg.seq, msg.stamp)] } }) ∧
    (s.power.standby = true → s.belayBlock.role = 1 → msg.domain = s.belayBlock.domain → msg.port ∈ s.candidates → s.carriageUp msg.port = true →
      (msg.twoStep = false → ∃ t, exec (.sync msg) s = .next t ∧ Synced s (msg.stamp - msg.time - msg.correction) t) ∧
      (msg.twoStep = true → exec (.sync msg) s = .next { s with
        belay := { s.belay with syncWait := some (msg.seq, msg.stamp, msg.time, msg.correction) } }) ∧
      (∀ stamp time corr, s.belay.syncWait = some (msg.seq, stamp, time, corr) →
        ∃ t, exec (.followUp msg) s = .next t ∧ Synced s (stamp - msg.time - corr - msg.correction) t) ∧
      (∀ t3 ms, s.belay.dreq = some (msg.seq, t3) → s.belay.ms = some ms → msg.peer = s.coord → exec (.delayResp msg) s = .next { s with
        belay := { s.belay with delay := (ms + (msg.time - t3 - msg.correction)) / 2, dreq := none } })) ∧
    (s.belayBlock.role ≠ 1 → exec (.sync msg) s = .next s ∧ exec (.followUp msg) s = .next s ∧ exec (.delayResp msg) s = .next s ∧
      exec (.delayReqSend port) s = .next s) ∧
    (s.belayBlock.role ≠ 2 → exec (.delayReq msg) s = .next s ∧ exec (.syncSend port) s = .next s)

/-- A native port, or the PHY of a carriage port, enters FAILED with a cause of Table 14-21, and raises LINK-DOWN, cause 4 (Table 13-1). -/
def PortFails (s : State) (p cause : Nat) : State :=
  State.raise (s.onPort p (fun q => { q with link := { q.link.restart .failed with fail := cause, failTick := s.belay.count } })) 0x03 (source 8 p) 0 4 cause

/-- A port goes to a state of Table 9-9 with its retry buffer emptied (R309). -/
def PortTo (s : State) (p : Nat) (st : PortSt) : State := s.onPort p (fun q => { q with link := q.link.restart st })

/-- R336, R337, R338, R389: an IDENT of another version fails with cause 6, one of this package on a port that is not auxiliary with cause 5,
each with a LINK-DOWN cairn; one that R337 allows begins MEASURE with 16 probes, and on a ring port BRIDGES and the packages passed are
kept. A probe comes back with the cycles it was held. The sixteenth answer gives h_m and λ: above the budget or above 326 ticks the port
fails with cause 7, else it is UP with its credits full.
Table 9-9, R309, R336, R339: what ends each state of a port. Lane training leads to FRAME or to FAILED; lock leads a native port to IDENT
with its IDENT packet, and a carriage PHY to UP with IDENT on every path to another pod; loss of lock leads to FRAME and loss of signal to PMD,
with a LINK-DOWN cairn only out of UP, which is counted; FAILED ends after 25,000,000 ticks, and not sooner.
Where the rules leave a point to the reader, it states the model's reading: log 10. -/
def Obligations.TrainingAndPortStates : Prop :=
  (∀ (s u : State) (p : Nat) (pkt pay : List Byte) (h : PktHead) (c br : Nat), p < 32 → p < s.ports.length → pay = packetPayload pkt →
    c = bytesAt pay 0 2 → br = bytesAt pay 3 1 % 16 →
    (Arrives s u p pkt 0x10 h → (u.port p).link.st = .ident →
      (∀ e, (bytesAt pay 4 1 ≠ 1 ∧ e = 6) ∨ (bytesAt pay 4 1 = 1 ∧ p < 30 ∧ c = u.coord ∧ e = 5) →
        exec (.ident p pkt) s = (nextOf s (State.raise (u.onPort p (fun q => { q with
          link := { ({ q.link with peer := c, bridges := br } : Link).restart .failed with fail := e, failTick := s.belay.count } }))
          0x03 (source 8 p) 0 4 e))) ∧
      (∀ x passed, x = u.onPort p (fun q => { q with link := { q.link with peer := c, bridges := br, passed := passed, st := .measure, probes := [] } }) →
        bytesAt pay 4 1 = 1 → c ≠ u.coord → p < 30 →
        (p % 4 ≥ 2 ∧ bytesAt pay 2 1 % 64 = p ∧ onlyAxis u.coord c 0 = true ∧
            nth (coordAxes c) 0 0 = nth (coordAxes u.coord) 0 0 ^^^ (p / 4 + 1) ∧ br = 0 ∧ passed = 0) ∨
          (p % 4 = 1 ∧ bytesAt pay 2 1 % 64 = p - 1 ∧ onlyAxis u.coord c (if p < 16 then 1 else 2) = true ∧
            ringDist (nth u.image.config.extents (if p < 16 then 1 else 2) 1) (nth (coordAxes c) (if p < 16 then 1 else 2) 0)
              (nth (coordAxes u.coord) (if p < 16 then 1 else 2) 0) = passed + 1 + br) ∨
          (p % 4 = 0 ∧ bytesAt pay 2 1 % 64 = p + 1 ∧ onlyAxis u.coord c (if p < 16 then 1 else 2) = true ∧
            ringDist (nth u.image.config.extents (if p < 16 then 1 else 2) 1) (nth (coordAxes u.coord) (if p < 16 then 1 else 2) 0)
              (nth (coordAxes c) (if p < 16 then 1 else 2) 0) = passed + 1 + br) →
        exec (.ident p pkt) s = (nextOf s (x.onPort p (fun q =>
          q.sendPackets s.belay.count (List.replicate 16 (toPeer x p 0x11 (leBytes 8 (6 * s.belay.count)))))))) ) ∧
    (∀ held, Arrives s u p pkt 0x11 h → (u.port p).link.live = true → exec (.measure p pkt held) s = (nextOf s
      (u.onPort p (fun q => q.sendPackets s.belay.count [toPeer u p 0x12 (pay.take 8 ++ leBytes 4 held)])))) ∧
    (∀ cycle xs, Arrives s u p pkt 0x12 h → (u.port p).link.st = .measure →
      xs = (u.port p).link.probes ++ [cycle - bytesAt pay 0 8 - bytesAt pay 8 4] →
      (xs.length < 16 → exec (.measureReply p pkt cycle) s = (nextOf s
        (u.onPort p (fun q => { q with link := { q.link with probes := xs } })))) ∧
      (∀ hm, xs.length ≥ 16 → hm = maxNat (xs.map (fun x => ceilDiv x 12)) →
        (hm ≤ u.pricking.head.portHop p → hm ≤ 326 → exec (.measureReply p pkt cycle) s = (nextOf s (u.onPort p (fun q => { q with
          link := { q.link with
            probes := xs, hm := hm, lambda := some (sumNat xs), st := .up, replays := 0, credits := [256, 256, 64], owed := [0, 0, 0],
            creditTick := s.belay.count } })))) ∧
        (u.pricking.head.portHop p < hm ∨ 326 < hm → exec (.measureReply p pkt cycle) s = (nextOf s (State.raise
          (u.onPort p (fun q => { q with link := { ({ q.link with probes := xs, hm := hm, lambda := some (sumNat xs) } : Link).restart .failed with
            fail := 7, failTick := s.belay.count } })) 0x03 (source 8 p) 0 4 7)))))) ∧
  (∀ (s : State) (p : Nat), p < 36 → p < s.ports.length →
    ((s.port p).link.st = .pmd →
      exec (.pmdTrainingDone p .trained) s = nextOf s (PortTo s p .frame) ∧
      exec (.pmdTrainingDone p .noSignal) s = nextOf s (PortFails s p 1) ∧
      exec (.pmdTrainingDone p .timeout) s = nextOf s (PortFails s p 2)) ∧
    ((s.port p).link.st = .frame →
      exec (.flitLock p false) s = nextOf s (PortFails s p 3) ∧
      (p < 32 → exec (.flitLock p true) s = (nextOf s ((PortTo s p .ident).onPort p (fun q => q.sendPackets s.belay.count
        [toPeer s p 0x10 (leBytes 2 s.coord ++ leBytes 1 p ++ zeros 1 ++ leBytes 1 1 ++ zeros 11)])))) ∧
      (32 ≤ p → s.paths.length = 128 → Inv s → ∃ t, exec (.flitLock p true) s = .next t ∧ (t.port p).link.st = .up ∧
        (∀ w < 32, s.pathCabled w = true → (t.path (p - 32) w).st = .ident)) ∧
      exec (.lossOfSignal p) s = nextOf s (PortTo s p .pmd)) ∧
    ((s.port p).link.st = .ident ∨ (s.port p).link.st = .measure →
      exec (.lossOfLock p) s = nextOf s (PortTo s p .frame) ∧ exec (.lossOfSignal p) s = nextOf s (PortTo s p .pmd)) ∧
    ((s.port p).link.st = .up →
      exec (.lossOfLock p) s = (nextOf s (State.raise (State.bump (PortTo s p .frame) (portCounter p 6) noUnit 1) 0x03 (source 8 p) 0 2 0)) ∧
      exec (.lossOfSignal p) s = (nextOf s (State.raise (State.bump (PortTo s p .pmd) (portCounter p 6) noUnit 1) 0x03 (source 8 p) 0 2 0))) ∧
    (∀ w, (s.port p).link.st = .failed →
      ((s.port p).link.failTick + 25000000 ≤ s.belay.count → exec (.portFailedRetry p w) s = nextOf s (PortTo s p .pmd)) ∧
      (s.belay.count < (s.port p).link.failTick + 25000000 → Inv s → exec (.portFailedRetry p w) s = .next s)))

/-- R10, R460, R477, Table 12-13, Table 14-21: RETRAIN, a register of the core that is open to management, and the Igvaelo port reset take a
FAILED port to PMD and a port in training or UP to FRAME, with no LINK-DOWN cairn; the reset answers SUCCESS, INVALID where there is no such
port, and UNAVAILABLE without the core. DISABLE is the owner's: set, it holds at once, and cleared it waits for the next step origin.
R340, R341, R342, Table 12-11: a bride opens when every condition of OPEN holds and closes when one fails, and not otherwise. While it is
CLOSED-ACTIVE a flit passes through it, and only an IDENT at byte 0 of a good data flit's body is changed: one more in BRIDGES, up to 15, and
the LCRC again. PRT_BRIDE_CTL and PRT_BRIDE_AT are open to management, and the command BRIDE writes both.
Where the rules leave a point to the reader, it states the model's reading: log 10, 67. -/
def Obligations.PortCommandsAndBrides : Prop :=
  (∀ (s : State) (m : Master) (p : Nat), p < 36 → p < s.ports.length →
    (s.mayCore m true = true →
      ((s.port p).link.st = .failed → exec (.prtCtlRetrain m p) s = nextOf s (PortTo s p .pmd)) ∧
      ((s.port p).link.st = .up → exec (.prtCtlRetrain m p) s = (nextOf s (State.bump (PortTo s p .frame) (portCounter p 6) noUnit 1))) ∧
      ((s.port p).link.st = .ident ∨ (s.port p).link.st = .measure ∨ (s.port p).link.st = .frame →
        exec (.prtCtlRetrain m p) s = nextOf s (PortTo s p .frame))) ∧
    (s.power.standby = true →
      (s.coreUp = true → (s.port p).link.st = .failed → exec (.reset (.port p)) s = (nextOf s ((PortTo s p .pmd).answerWith [0]))) ∧
      (s.coreUp = true → (s.port p).link.st = .up →
        exec (.reset (.port p)) s = (nextOf s ((State.bump (PortTo s p .frame) (portCounter p 6) noUnit 1).answerWith [0]))) ∧
      (s.coreUp = false → exec (.reset (.port p)) s = (nextOf s (s.answerWith [5]))) ∧
      (∀ q, 36 ≤ q → exec (.reset (.port q)) s = (nextOf s (s.answerWith [3])))) ∧
    (s.mayCore m false = true →
      exec (.prtCtlDisable m p true) s = (nextOf s (s.onPort p (fun q => { q with disable := true, enableDue := false }))) ∧
      exec (.prtCtlDisable m p false) s = (nextOf s (s.onPort p (fun q => { q with enableDue := q.disable })))) ∧
    (s.mayCore m false = false → Inv s → ∀ d, exec (.prtCtlDisable m p d) s = .next s) ∧
    (s.mayCore m true = false → Inv s → exec (.prtCtlRetrain m p) s = .next s)) ∧
  (∀ (s : State) (r : Nat), r < 8 →
    ((s.bride r).st = .closedActive → s.brideMayOpen r = true → exec (.brideOpen r) s = (nextOf s (s.onBride r (fun b => { b with st := .isOpen })))) ∧
    ((s.bride r).st = .isOpen → s.brideMayOpen r = false →
      exec (.brideClose r) s = (nextOf s (s.onBride r (fun b => { b with st := .closedActive })))) ∧
    (Inv s → s.brideMayOpen r = true → exec (.brideClose r) s = .next s) ∧ (Inv s → s.brideMayOpen r = false → exec (.brideOpen r) s = .next s) ∧
    (s.brideMayOpen r = true ↔ s.power.standby = true ∧ (s.power.st = .ready ∨ s.power.st = .running ∨ s.req.waking = true) ∧
      (s.slice r).fenced = false ∧ (s.bride r).openEn = true ∧ (s.bride r).atCount ≤ s.belay.count ∧
      1 < nth s.image.config.extents (if r < 4 then 1 else 2) 1) ∧
    (∀ odd bs, s.power.standby = true → (s.bride r).st = .closedActive →
      (flag (bytesAt bs 0 4) 31 = true ∨ bytesAt bs 4 1 ≠ 0x90 ∨ bytesAt bs 252 4 ≠ crc32c (bs.take 252) →
        exec (.bridePassFlit r odd bs) s = (nextOf s (s.onBride r (fun b => { b with wire := b.wire ++ [(odd, bs)] })))) ∧
      (∀ b, flag (bytesAt bs 0 4) 31 = false → bytesAt bs 4 1 = 0x90 → bytesAt bs 252 4 = crc32c (bs.take 252) →
        b = (bs.take 39) ++ leBytes 1 (bytesAt bs 39 1 / 16 * 16 + Nat.min 15 (bytesAt bs 39 1 % 16 + 1)) ++ ((bs.take 252).drop 40) →
        exec (.bridePassFlit r odd bs) s = (nextOf s (s.onBride r (fun x => { x with wire := x.wire ++ [(odd, b ++ leBytes 4 (crc32c b))] }))))) ∧
    (∀ m (v : Word), s.may m true = true →
      exec (.prtBrideCtlWrite m r 0 v) s = (nextOf s (s.onBride r (fun b => { b with openEn := flag v.toNat 0 }))) ∧
      exec (.prtBrideCtlWrite m r 1 v) s = (nextOf s (s.onBride r (fun b => { b with atCount := b.atCount / 2 ^ 32 * 2 ^ 32 + v.toNat }))) ∧
      exec (.prtBrideCtlWrite m r 2 v) s = (nextOf s (s.onBride r (fun b => { b with atCount := v.toNat * 2 ^ 32 + b.atCount % 2 ^ 32 })))) ∧
    (∀ op n, s.power.standby = true → n < 2 ^ 64 → exec (.bride r op n) s = (nextOf s
      ((s.onBride r (fun b => { b with openEn := op, atCount := n })).answerWith [0]))))

/-- A fence of slice `i` by `who`, for class `cause`: what the next state holds (R25, R379, R474, R475). -/
def Fenced (s : State) (i who cause : Nat) (t : State) : Prop :=
  (t.slice i).fenced = true ∧ (t.slice i).bufs = [] ∧ (t.slice i).opens = [] ∧ (t.slice i).tiles = [] ∧ (t.slice i).prusik = [] ∧
  t.seq.issue.getD i [] = [] ∧ t.seq.flights = s.seq.flights.filter (fun f => f.stream ≠ i) ∧
  (∀ q, t.groundQ q = if q / 128 = i then (s.groundQ q).fenceOff else s.groundQ q) ∧
  t.cairn = s.cairn.submit s.power.cycles ⟨0x16, sliceSource 0 i, 0, who, cause⟩ s.stamp ∧
  t.srec.host = s.srec.host ++ [leBytes 16 (2 + (who - 1) * 2 ^ 8 + i * 2 ^ 16 + s.seq.pos.getD i 0 % 2 ^ 32 * 2 ^ 32 + s.belay.count * 2 ^ 64)] ∧
  t.hbm = s.hbm ∧ t.power = s.power ∧ t.mgmt.owner = s.mgmt.owner ∧ (∀ j, j ≠ i → (s.slice j).fenced = false → t.slice j = s.slice j)

/-- R25, R474, R475, Table 14-7: a fence, by a master or the command or effecter of management, takes effect on its slice at once: staging
is lost, pins are abandoned, its queues drain or stop, one FENCE cairn names who fenced it; other slices are as before. A slice that is
fenced stays as it is.
R25, R476, Table 14-26: management clears a fence in READY or HELD only; elsewhere the command is REFUSED and the write counted. The
slice stays fenced until its memories have been written to zero, and then is empty and free; after an uncorrectable error the engine fences
it again, whatever memory and address that error names.
Where the rules leave a point to the reader, it states the model's reading: log 4, 47. -/
def Obligations.FencesSetAndCleared : Prop :=
  (∀ (s : State) (i : Nat), i < 8 → i < s.slices.length → i < s.seq.issue.length → s.power.standby = true →
    ((s.slice i).fenced = false →
      (∀ m, s.may m true = true → ∃ t, exec (.glbFenceWrite m (2 ^ i)) s = .next t ∧ Fenced s i (originator m) 0 t) ∧
      (∃ t, exec (.fence (2 ^ i)) s = .next t ∧ Fenced s i 2 0 t ∧ t.out.reply = [0]) ∧
      (∃ t, exec (.setStateEffecterStates (.fence i) true) s = .next t ∧ Fenced s i 2 0 t ∧ t.out.reply = [0])) ∧
    ((s.slice i).fenced = true → Inv s → ∀ m, exec (.glbFenceWrite m (2 ^ i)) s = .next s)) ∧
  (∀ (s : State) (i : Nat), i < 8 → i < s.slices.length → i < s.seq.issue.length →
    (∀ c, s.power.standby = true → c = .mgtUnfence .mgmt (2 ^ i) ∨ c = .unfence (2 ^ i) ∨ c = .setStateEffecterStates (.fence i) false →
      (s.power.st = .ready ∨ s.power.st = .held → (s.slice i).fenced = true → (s.slice i).clearing = false →
        ∃ t, exec c s = .next t ∧ (t.slice i).clearing = true ∧ (t.slice i).fenced = true ∧ t.power = s.power ∧ t.cairn = s.cairn) ∧
      (s.power.st ≠ .ready → s.power.st ≠ .held → ∃ t, exec c s = .next t ∧ (t.slice i).fenced = (s.slice i).fenced ∧
        (t.slice i).clearing = (s.slice i).clearing ∧ (c ≠ .mgtUnfence .mgmt (2 ^ i) → t.out.reply = [1]))) ∧
    (Inv s → exec (.mgtUnfence .host (2 ^ i)) s = .next s) ∧
    ((s.slice i).clearing = true →
      (∃ t, exec (.fenceClearReinitDone i true) s = .next t ∧ (t.slice i).fenced = false ∧ (t.slice i).clearing = false ∧ (t.slice i).bufs = [] ∧
        (t.slice i).opens = [] ∧ (t.slice i).tiles = [] ∧ (t.slice i).heat = [] ∧ (t.anc.trans.get [] i) = [] ∧ t.cairn = s.cairn) ∧
      (∃ t mem addr, exec (.fenceClearReinitDone i false) s = .next t ∧ (t.slice i).fenced = true ∧ (t.slice i).clearing = false ∧
        t.cairn = (s.cairn.submit s.power.cycles ⟨0x08, sliceSource 0 i, 0, mem, addr⟩ s.stamp).submit s.power.cycles
          ⟨0x16, sliceSource 0 i, 0, 3, 0x08⟩ s.stamp)) ∧
    (∀ cause, s.coreUp = true → (s.slice i).fenced = false → ∃ t, exec (.dieToDieLinkDown i cause) s = .next t ∧ (t.slice i).fenced = true ∧
      t.cairn = (s.cairn.submit s.power.cycles ⟨0x03, source 0xA i, 0, cause, 0⟩ s.stamp).submit s.power.cycles
        ⟨0x16, sliceSource 0 i, 0, 3, 0x03⟩ s.stamp))

/-- The receiver as LOCKED on a candidate, its runs begun again (R394). -/
def LockedOn (s : State) (cand : Nat) : State :=
  { s with belay := { s.belay with
    st := .locked, cand := cand, goodRun := 0, badRun := 0, disagree := 0, lastGood := s.belay.count, holdFor := false } }

/-- R394, R395, R396, Table 11-3: out of LOCKED the receiver goes to HOLDOVER, and from there after HOLD ticks, not sooner, to STALLED, each
with its LINK-DOWN cairn of the belay receiver; ACQUIRE ends with 4 good markers, 16 Syncs at a pod root, and the count is the upstream's; a
machine root counts from BLY_ROOT_START while its reference is there, holds over without it, and resumes from where it stood.
R388, R397: a re-lock, out of HOLDOVER or STALLED, or when another candidate replaces one that failed. Outside RUNNING, with no launch
stepped over, the count is the upstream's. In RUNNING a difference of at most 1 leaves the count; an upstream that is behind stalls it until it
is reached; one ahead by up to 2^26 makes the count step to it; a greater difference leaves RUNNING for HELD, cause 9, and drops the requests.
Where the rules leave a point to the reader, it states the model's reading: log 28, 58. -/
def Obligations.BelayReceiver : Prop :=
  (∀ (s : State) (u : Nat), s.power.standby = true →
    (∀ h, h = State.raise { s with belay := { s.belay with st := .holdover, hoStart := s.belay.count, goodRun := 0 } } 0x03 (source 2 0) 4 5 0 →
      (s.belay.st = .locked → s.belayBlock.role = 0 → s.usable s.belay.cand = true ∨ s.firstUsable.isSome = true → s.belay.badRun < 2 →
        s.belay.disagree < 2 →
        (s.belay.lastGood + 2304 ≤ s.belay.count → exec .belayHoldover s = nextOf s h) ∧
        (s.belay.count < s.belay.lastGood + 2304 → Inv s → exec .belayHoldover s = .next s)) ∧
      (s.belay.st = .locked → s.belayBlock.role = 0 → 2 ≤ s.belay.badRun ∨ 2 ≤ s.belay.disagree ∨
        (s.usable s.belay.cand = false ∧ s.firstUsable = none) → exec .belayHoldover s = nextOf s h)) ∧
    (s.belay.st = .holdover →
      (s.belay.hoStart + s.belayBlock.hold ≤ s.belay.count → exec .belayStall s = (nextOf s
        (State.raise { s with belay := { s.belay with st := .stalled, holdFor := false } } 0x03 (source 2 0) 5 5 0))) ∧
      (s.belay.count < s.belay.hoStart + s.belayBlock.hold → Inv s → exec .belayStall s = .next s)) ∧
    (∀ p, s.belay.st = .acquire → s.img.run.isSome = true → s.belayBlock.role < 2 → s.firstUsable = some p →
      ((if s.belayBlock.role = 1 then 16 else 4) ≤ s.belay.goodRun →
        exec (.belayAcquireLock u) s = nextOf s (LockedOn { s with belay := { s.belay with count := u } } p)) ∧
      (s.belay.goodRun < (if s.belayBlock.role = 1 then 16 else 4) → Inv s → exec (.belayAcquireLock u) s = .next s)) ∧
    (s.belay.st = .stalled → s.belay.holdFor = true →
      (s.belay.count ≤ u → exec (.belayStallResume u) s = nextOf s (LockedOn s s.belay.cand)) ∧
      (u < s.belay.count → Inv s → exec (.belayStallResume u) s = .next s)) ∧
    (s.belayBlock.role = 2 → s.belayBlock.refsel = false →
      (s.belay.st = .locked → exec .referenceInputLost s = (nextOf s (State.raise
        { s with belay := { s.belay with refPresent := false, st := .holdover, hoStart := s.belay.count, goodRun := 0 } } 0x03 (source 2 0) 4 5 0))) ∧
      (s.img.run.isSome = true → s.belay.st = .holdover ∨ s.belay.st = .stalled →
        exec .referenceInputPresent s = nextOf s (LockedOn { s with belay := { s.belay with refPresent := true } } 63)) ∧
      (s.img.run.isSome = true → s.belay.st = .acquire → exec .referenceInputPresent s = nextOf s (LockedOn { s with
        belay := { s.belay with refPresent := true, rooted := true, count := s.reg64 0x10020 } } 63)))) ∧
  (∀ (s : State) (p u c : Nat), s.power.standby = true → s.belayBlock.role ≠ 2 → p ∈ s.candidates → s.usable p = true → c = s.belay.count →
    (∀ k, (k = .belayRelock p u ∧ (s.belay.st = .holdover ∨ (s.belay.st = .stalled ∧ s.belay.holdFor = false))) ∨
        (k = .belayCandidateChange u ∧ s.belay.st = .locked ∧ s.usable s.belay.cand = false ∧ s.firstUsable = some p ∧ (c + 1 < u ∨ u + 1 < c)) →
      (s.power.st ≠ .running → s.power.st ≠ .ready ∨ s.req.launchOn = false →
        exec k s = nextOf s (LockedOn { s with belay := { s.belay with count := u } } p)) ∧
      (s.power.st = .running →
        (u ≤ c + 1 → c ≤ u + 1 → exec k s = nextOf s (LockedOn s p)) ∧
        (u + 1 < c → c ≤ u + 2 ^ 26 → ∃ t, exec k s = .next t ∧ t.belay.st = .stalled ∧ t.belay.count = c ∧ t.belay.holdFor = true ∧
          t.belay.cand = p ∧ t.seq.flights = s.seq.flights ∧ t.power = s.power) ∧
        (c + 1 < u → u ≤ c + 2 ^ 26 → ∃ t, exec k s = .next t ∧ t.belay.st = .locked ∧ t.belay.count = u ∧ t.belay.cand = p) ∧
        (c + 2 ^ 26 < u ∨ u + 2 ^ 26 < c → ∃ t, exec k s = .next t ∧ t.belay.st = .locked ∧ t.belay.count = u ∧ t.power.st = .held ∧
          t.power.cause = 9 ∧ t.seq.flights = [] ∧ t.req.launchOn = false ∧ t.req.bivOn = false ∧ t.req.stopOn = false ∧
          t.cairn = s.cairn.submit s.power.cycles ⟨0x03, source 2 0, 7, 5, 0⟩ s.stamp))) ∧
    (s.belay.st = .locked → s.usable s.belay.cand = false → s.firstUsable = some p → u ≤ c + 1 → c ≤ u + 1 →
      exec (.belayCandidateChange u) s = nextOf s (LockedOn s p)) ∧
    (s.belay.st = .locked → s.usable s.belay.cand = true → Inv s → exec (.belayCandidateChange u) s = .next s))

/-- A group is REFUSED: CONFORMANCE is raised, and the engine is HELD, its pins and requests dropped (R120, R121, R431, Table 13-1). -/
def GroupRefused (s : State) (g refuse qual b : Nat) (t : State) : Prop :=
  t.groupQ g = { s.groupQ g with st := 3, refuse := refuse } ∧ t.power.st = .held ∧ t.power.cause = 7 ∧ t.seq.flights = [] ∧ t.seq.running = false ∧
  t.req.launchOn = false ∧ t.cairn = s.cairn.submit s.power.cycles ⟨0x15, source 4 g, qual, g, b⟩ s.stamp ∧
  (∀ k, k ≠ g → t.groupQ k = s.groupQ k)

/-- R120, R121, Table 4-2: ARM takes an IDLE group to FORMING in READY, DISARM an ARMED or REFUSED one to IDLE in READY or HELD, and neither
does anything else. The exchange of a FORMING group ends ARMED where the maxima of the six values and of their complements agree, and REFUSED
where the conformance words differ, where the descriptors differ, or where it lasts 2,500,000 ticks.
R189, R190, R191, R192, R477: the owner's doorbells and disables. A step doorbell waits, up to 255 of them. Outside RUNNING the tail of
the dynamic pin queue is kept; in RUNNING the pin of the one new entry is answered in the status ring with the first check that fails,
and joins its stream and the step's record where none does.
Where the rules leave a point to the reader, it states the model's reading: log 38, 56. -/
def Obligations.GroupsAndDoorbells : Prop :=
  (∀ (s : State) (m : Master) (g : Nat) (mx : List Nat) (w c : Nat) (v : Nat → Nat), g < 256 → w = s.image.conf → c = crc32c (s.image.group g).bytes →
    v = (fun i => Nat.max (nth mx i 0) (nth [w % 2 ^ 32, w / 2 ^ 32 % 2 ^ 32, not32 w, not32 (w / 2 ^ 32), c, not32 c] i 0)) →
    (s.mayCore m false = true →
      (s.power.st = .ready → (s.groupQ g).st = 0 → exec (.gqCtlArm m g) s = (nextOf s
        (s.onGroup g (fun q => { q with st := 1, refuse := 0, done := 0, armTick := s.belay.count })))) ∧
      (s.power.st = .ready ∨ s.power.st = .held → (s.groupQ g).st = 2 ∨ (s.groupQ g).st = 3 →
        exec (.gqCtlDisarm m g) s = (nextOf s (s.onGroup g (fun q => { q with st := 0 }))))) ∧
    (s.mayCore m false = false ∨ s.power.st ≠ .ready ∨ (s.groupQ g).st ≠ 0 → Inv s → exec (.gqCtlArm m g) s = .next s) ∧
    (s.mayCore m false = false ∨ ((s.groupQ g).st ≠ 2 ∧ (s.groupQ g).st ≠ 3) → Inv s → exec (.gqCtlDisarm m g) s = .next s) ∧
    ((s.groupQ g).st = 1 → s.coreUp = true →
      (v 0 = not32 (v 2) → v 1 = not32 (v 3) → v 4 = not32 (v 5) →
        exec (.formationExchangeDone g mx) s = (nextOf s (s.onGroup g (fun q => { q with st := 2 })))) ∧
      (v 0 ≠ not32 (v 2) ∨ v 1 ≠ not32 (v 3) → ∃ t, exec (.formationExchangeDone g mx) s = .next t ∧ GroupRefused s g 1 0 0 t) ∧
      (v 0 = not32 (v 2) → v 1 = not32 (v 3) → v 4 ≠ not32 (v 5) →
        ∃ t, exec (.formationExchangeDone g mx) s = .next t ∧ GroupRefused s g 2 0 0 t) ∧
      ((s.groupQ g).armTick + 2500000 ≤ s.belay.count → ∃ t, exec (.formationTimeout g) s = .next t ∧ GroupRefused s g 3 8 1 t) ∧
      (s.belay.count < (s.groupQ g).armTick + 2500000 → Inv s → exec (.formationTimeout g) s = .next s)) ∧
    ((s.groupQ g).st ≠ 1 → Inv s → exec (.formationExchangeDone g mx) s = .next s ∧ exec (.formationTimeout g) s = .next s)) ∧
  (∀ (s : State) (m : Master), s.mayCore m false = true →
    (s.seq.doorbells < 255 → s.seq.gateWait = false → exec (.glbStepDb m) s = (nextOf s { s with
      seq := { s.seq with doorbells := s.seq.doorbells + 1 } })) ∧
    (255 ≤ s.seq.doorbells → exec (.glbStepDb m) s = (nextOf s (State.bump { s with
      seq := { s.seq with ignored := Nat.min 0xFFFF (s.seq.ignored + 1) } } 0x380 noUnit 1))) ∧
    (∀ tail : Word, s.power.st ≠ .running → exec (.glbDpqDb m tail) s = nextOf s (s.setReg 0xA0 tail.toNat)) ∧
    (∀ (tail : Word) (i slot : Nat) (bytes : List Byte) (p : Pin) (u v : State) (reason : Nat), s.power.st = .running → i = s.reg 0xB0 →
      i + 1 = tail.toNat → slot = i % s.dpqSize → u = s.setReg 0xA0 tail.toNat → bytes = s.hbmRead (s.reg (2 ^ 24 + 0xA8) * 4096 + 16 * slot) 16 →
      s.hbmFaulty (s.reg (2 ^ 24 + 0xA8) * 4096 + 16 * slot) 16 = false → p = Pin.ofNat (leNat bytes) → reason = u.dynReason p →
      v = (if reason = 0 then { u with
        seq := { u.seq with dyn := u.seq.dyn ++ [p], dynAccepted := u.seq.dynAccepted + 1 }
        srec := { u.srec with dpins := u.srec.dpins ++ [bytes] } } else u) →
      exec (.glbDpqDb m tail) s = (nextOf s
        ((v.hbmWrite (s.reg (2 ^ 24 + 0xAC) * 4096 + 8 * slot) (leBytes 8 (i + reason * 2 ^ 32))).setReg 0xB0 (i + 1))) ∧
      (p.dynamicGood = true → p.dashes = true → p.encodings = true →
        (s.req.replay = true ∨ flag (s.reg 0xB4) 12 = true ∨ s.dynWindow p = none → reason = 2) ∧
        (∀ w, s.req.replay = false → flag (s.reg 0xB4) 12 = false → s.dynWindow p = some w → s.voidWindow w = false →
          s.seq.origin + p.tick < s.belay.count + 256 → reason = 3))) ∧
    (exec (.glbDpqCtlDisable m true) s = (nextOf s ((s.setReg 0xA4 (field (s.reg 0xA4) 30 0 + 2 ^ 31)).setReg 0xB4 (2 ^ 12))) ∧
      exec (.glbDpqCtlDisable m false) s = (nextOf s (s.setReg 0xA4 (field (s.reg 0xA4) 30 0)))) ∧
    (∀ sl ctx d, sl < 8 → ctx < 128 → exec (.slcCodeCtlDisable m sl ctx d) s = (nextOf s (s.onSlice sl (fun x => { x with
      ctxSel := ctx
      ctxs := x.ctxs.put ctx (if d then { x.ctxs.get CtxSt.reset ctx with disable := true, enableDue := false }
        else { x.ctxs.get CtxSt.reset ctx with enableDue := (x.ctxs.get CtxSt.reset ctx).disable }) })))) ∧
    (∀ k d, k < 24 → exec (.upsCtlDisable m k d) s = (nextOf s (s.onStation k (fun x =>
      if d then { x with disable := true, enableDue := false } else { x with enableDue := x.disable })))))

/-! ### Anchors and remote memory access -/

/-- No entry of a ground queue waits (R378): nothing is released when a queue changes. -/
def NoWaits (s : State) : Prop := ∀ e ∈ s.gq, ∀ r ∈ e.2.runs, r.waiting = false

/-- Table 10-12, R379, R380: what each event of GRQ_CTL does in each state of a queue, by the owner while the core is up. An event without effect in the
queue's state is counted and changes no queue.
R374, R380, R492: a tail within the ring is taken, and an ARMED queue that has entries runs; one beyond it is counted, and a queue that
drains or is disabled takes none. Descriptor words and GRQ_SEQ are written in IDLE and DISABLED only.
Where the rules leave a point to the reader, it states the model's reading: log 18. -/
def Obligations.GroundQueues : Prop :=
  (∀ (s : State) (m : Master) (q : Nat) (g : GroundQ) (gives : (GroundQ → GroundQ) → Host.Outcome State Fault Refusal) (ignored : Host.Outcome State Fault Refusal),
    q < 1024 → s.mayCore m false = true → NoWaits s → g = s.groundQ q → gives = (fun f => (nextOf s (s.onGround q f))) →
    ignored = (nextOf s (s.bump 0x188 noUnit 1)) →
    (g.st = .idle →
      (s.descError g = 0 → exec (.grqCtlArm m q) s = gives (fun g => { g with armErr := 0, st := if g.head = g.tail then .armed else .running })) ∧
      (s.descError g ≠ 0 → exec (.grqCtlArm m q) s = gives (fun g => { g with armErr := s.descError g })) ∧
      exec (.grqCtlDisable m q) s = gives (fun g => { g with st := .disabled }) ∧
      exec (.grqCtlSuspend m q) s = ignored ∧ exec (.grqCtlResume m q) s = ignored ∧ exec (.grqCtlRetry m q) s = ignored ∧
      exec (.grqCtlSkip m q) s = ignored ∧ exec (.grqCtlReset m q) s = ignored) ∧
    (g.st = .armed → exec (.grqCtlDisable m q) s = gives (fun g => { g with st := .disabled }) ∧
      exec (.grqCtlSuspend m q) s = gives (fun g => { g with st := .suspended }) ∧ exec (.grqCtlArm m q) s = ignored) ∧
    (g.st = .running → g.out ≠ [] →
      exec (.grqCtlDisable m q) s = gives (fun g => { g with st := .draining }) ∧
      ((∀ r ∈ g.runs, r.failed = none) → (∀ r, g.headRun = some r → r.done ≠ r.total) →
        exec (.grqCtlSuspend m q) s = gives (fun g => { g with st := .suspending }))) ∧
    (g.st = .suspending → g.out ≠ [] → exec (.grqCtlDisable m q) s = gives (fun g => { g with st := .draining }) ∧
      ((∀ r ∈ g.runs, r.failed = none) → (∀ r, g.headRun = some r → r.done ≠ r.total) →
        exec (.grqCtlResume m q) s = gives (fun g => { g with st := .running }))) ∧
    (g.st = .suspended → g.runs = [] →
      (g.head ≠ g.tail → exec (.grqCtlResume m q) s = gives (fun g => { g with st := .running })) ∧
      (g.head = g.tail → exec (.grqCtlResume m q) s = gives (fun g => { g with st := .armed }) ∧
        exec (.grqCtlDisable m q) s = gives (fun g => { g with st := .disabled, runs := [] }))) ∧
    (g.st = .faulted →
      exec (.grqCtlSuspend m q) s = gives (fun g => { g with suspPending := true }) ∧
      (g.out ≠ [] → exec (.grqCtlRetry m q) s = ignored ∧ exec (.grqCtlSkip m q) s = ignored) ∧
      (g.out = [] → g.suspPending = true → exec (.grqCtlRetry m q) s = gives (fun g => { g with
        st := .suspended, suspPending := false
        runs := g.runs.map (fun r => match r.failed with
          | some f => { r with failed := none, started := f.1, done := f.1 }
          | none => r) })) ∧
      (∀ r f, g.out = [] → g.suspPending = true → g.headRun = some r → r.failed = some f → exec (.grqCtlSkip m q) s = (nextOf s
        ((s.completeEntry q f.2.1 f.2.2 r.upstat).onGround q (fun g => { g with st := .suspended, suspPending := false }))))) ∧
    (g.st = .draining → Inv s → exec (.grqCtlDisable m q) s = .next s) ∧
    (g.st = .disabled → exec (.grqCtlReset m q) s = gives (fun g => { g with st := .idle, head := g.tail, errCount := 0, runs := [], out := [] }) ∧
      exec (.grqCtlArm m q) s = ignored)) ∧
  (∀ (s : State) (m : Master) (q tail w : Nat) (v : Word) (g : GroundQ), q < 1024 → tail < 2 ^ 16 → g = s.groundQ q →
    (s.mayCore m false = true →
      (g.st ≠ .draining → g.st ≠ .disabled →
        ((tail + 2 ^ 16 - g.head) % 2 ^ 16 ≤ g.ringSize →
          (g.st = .armed → tail ≠ g.head → exec (.grqDb m q tail) s = (nextOf s (s.onGround q (fun g => { g with tail := tail, st := .running })))) ∧
          (g.st ≠ .armed ∨ tail = g.head → exec (.grqDb m q tail) s = (nextOf s (s.onGround q (fun g => { g with tail := tail }))))) ∧
        (g.ringSize < (tail + 2 ^ 16 - g.head) % 2 ^ 16 → exec (.grqDb m q tail) s = (nextOf s (s.bump 0x39C noUnit 1)))) ∧
      (g.st = .draining ∨ g.st = .disabled → Inv s → exec (.grqDb m q tail) s = .next s) ∧
      (g.st = .idle ∨ g.st = .disabled →
        (w < 8 → exec (.grqDescWrite m q w v) s = (nextOf s (s.onGround q (fun g => { g with desc := g.desc.set w v.toNat })))) ∧
        (w = 8 → exec (.grqDescWrite m q w v) s = (nextOf s (s.onGround q (fun g => { g with seq := v.toNat }))))) ∧
      (g.st ≠ .idle → g.st ≠ .disabled → exec (.grqDescWrite m q w v) s = (nextOf s (s.bump 0x188 noUnit 1)))) ∧
    (s.mayCore m false = false → Inv s → exec (.grqDb m q tail) s = .next s ∧ exec (.grqDescWrite m q w v) s = .next s ∧
      exec (.grqCtlArm m q) s = .next s ∧ exec (.grqCtlDisable m q) s = .next s ∧ exec (.grqCtlSuspend m q) s = .next s ∧
      exec (.grqCtlResume m q) s = .next s ∧ exec (.grqCtlRetry m q) s = .next s ∧ exec (.grqCtlSkip m q) s = .next s ∧
      exec (.grqCtlReset m q) s = .next s))

/-- R365, R366, R367, R368, R376: a running queue sends its next message with the next sequence number and a fresh RTO, within its limits, and
none after a flagged one until that ends. A message whose RTO or backoff ends is sent again; the eighth RTO without an answer, or the end of
LIFE, makes it fail with UNREACHABLE. Nothing happens before those ticks.
Where the rules leave a point to the reader, it states the model's reading: log 18. -/
def Obligations.MessagesOut : Prop :=
  ∀ (s : State) (q : Nat) (g : GroundQ), q < 1024 → s.coreUp = true → g = s.groundQ q →
    (∀ i k e fl, g.st = .running → g.nextMessage = some (i, k) → e = RingEnt.parse (s.hbmRead (g.entryAddr i) 64) →
      fl = e.flagged (g.messages e) k →
      (s.outstanding < 4096 → g.out.length < g.maxOut → (fl = true → g.out = []) → g.out.any (·.flagged) = false → ∀ m u,
        m = ⟨g.seq, i, k, 1, 0, s.belay.count, .rto, s.belay.count + s.reg 0x50000, s.reg 0x50004, fl⟩ →
        u = s.onGround q (fun g => { g with
          seq := (g.seq + 1) % 2 ^ 32, out := g.out ++ [m]
          runs := g.runs.map (fun r => if r.index = i then { r with started := r.started + 1 } else r) }) →
        exec (.messageSend q) s = (nextOf s ((u.bump (0x4000 + 0x40 * q) (unitWord q 0 0) 1).sendPackets q m))) ∧
      (4096 ≤ s.outstanding ∨ g.maxOut ≤ g.out.length ∨ (fl = true ∧ g.out ≠ []) ∨ g.out.any (·.flagged) = true → Inv s →
        exec (.messageSend q) s = .next s)) ∧
    (g.st ≠ .running → Inv s → exec (.messageSend q) s = .next s) ∧
    (∀ seq m, s.outMsg q seq = some m → g.st ≠ .draining →
      (m.timer = .rto → m.timerAt ≤ s.belay.count →
        (m.silent < 7 → s.belay.count < m.first + s.reg 0x50008 → ∀ m', m' = { m with
            silent := m.silent + 1, attempts := m.attempts + 1, timerAt := s.belay.count + s.reg 0x50000 } →
          exec (.rtoExpiry q seq) s = (nextOf s (State.sendPackets
            ((s.onMsg q seq (fun _ => m')).bump (0x4000 + 0x40 * q + 4) (unitWord q 0 0) 1) q m'))) ∧
        (7 ≤ m.silent ∨ m.first + s.reg 0x50008 ≤ s.belay.count → exec (.rtoExpiry q seq) s = nextOf s (s.messageFail q seq 8 0))) ∧
      (m.timer = .backoff → m.timerAt ≤ s.belay.count →
        (s.belay.count < m.first + s.reg 0x50008 → ∀ m', m' = { m with
            attempts := m.attempts + 1, timer := .rto, timerAt := s.belay.count + s.reg 0x50000 } →
          exec (.backoffExpiry q seq) s = (nextOf s (State.sendPackets
            ((s.onMsg q seq (fun _ => m')).bump (0x4000 + 0x40 * q + 4) (unitWord q 0 0) 1) q m'))) ∧
        (m.first + s.reg 0x50008 ≤ s.belay.count → exec (.backoffExpiry q seq) s = nextOf s (s.messageFail q seq 8 0))) ∧
      (s.belay.count < m.timerAt → Inv s → exec (.rtoExpiry q seq) s = .next s ∧ exec (.backoffExpiry q seq) s = .next s) ∧
      (m.first + s.reg 0x50008 ≤ s.belay.count ∨ 8 ≤ m.silent → exec (.lifeExpiry q seq) s = nextOf s (s.messageFail q seq 8 0)) ∧
      (s.belay.count < m.first + s.reg 0x50008 → m.silent < 8 → Inv s → exec (.lifeExpiry q seq) s = .next s))

/-- A ground packet that reaches its package (R326, R328). -/
def Reaches (s u : State) (p : Nat) (pkt : List Byte) (type : Nat) (h : PktHead) : Prop :=
  Arrives s u p pkt type h ∧ u.passedDest p h = false ∧ h.dst = u.coord ∧ h.auxdst = false

/-- R326, R328, R358, R360, R361, R363, R384, Table 10-7: a ground packet for elsewhere is forwarded, or discarded and counted where it has passed
its destination. At its target, the one packet of a WRITE that passes its checks is written, and a flag packet also counts its flag, before DONE
goes back; one that fails raises its class's cairn and is answered with it and its offset; a flag whose sequence is not new is only answered; a
packet not cut as R358 says is counted.
R360, Table 10-6: the checks of an access, in their order: no anchor with that tag, or a revoked one, is 6; another epoch 5; a right that the
anchor does not give, or a flag from another queue than the bound one, 6; bytes beyond the anchor's length 7.
Where the rules leave a point to the reader, it states the model's reading: log 18. -/
def Obligations.RemoteWrites : Prop :=
  (∀ (s u : State) (p : Nat) (pkt pay : List Byte) (h : PktHead) (e : AncExt) (i d : Nat) (right : Right),
    e = packetExt pkt → pay = packetPayload pkt → i = e.key % 2 ^ 16 → right = (if e.flag_ then .flagWrite else .write) →
    d = (h.seq + 2 ^ 32 - (u.anchor i).lastFseq) % 2 ^ 32 →
    (∀ type c, (type = 8 ∧ c = .write p pkt) ∨ (type = 9 ∧ c = .readReq p pkt) ∨ (type = 0x0A ∧ c = .readResp p pkt) ∨ (type = 0x0B ∧ c = .ack p pkt) →
      Arrives s u p pkt type h →
      (u.passedDest p h = true → exec c s = (nextOf s (u.linkCount p (h.src % 32) 8 1))) ∧
      (u.passedDest p h = false → h.dst ≠ u.coord ∨ h.auxdst = true → exec c s = nextOf s (u.sendGround p pkt))) ∧
    (Reaches s u p pkt 8 h →
      (u.auxGood p h e = false ∨ cutGood h e = false ∨ h.ext = false → exec (.write p pkt) s = (nextOf s (u.bump 0x184 noUnit 1))) ∧
      (u.auxGood p h e = true → cutGood h e = true → h.ext = true → e.npm1 = 0 →
        (e.flag_ = true → u.checkKey h e right = 0 → d = 0 ∨ 2 ^ 31 ≤ d → exec (.write p pkt) s = (nextOf s
          (State.ackOut (u.bump 0x170 noUnit 1) h.src e.sq h.seq e.key 2 0 false))) ∧
        (e.flag_ = false ∨ u.checkKey h e right ≠ 0 ∨ (d ≠ 0 ∧ d < 2 ^ 31) →
          (∀ v segs, u.checkAccess (portSlice p) h e right (e.moff + h.offset) pay.length = (v, .ok segs) →
            exec (.write p pkt) s = (nextOf s (State.ackOut
              (if e.flag_ then (v.writeSegs segs pay).applyFlag i h.src e.sq h.seq else v.writeSegs segs pay) h.src e.sq h.seq e.key 1 0 false))) ∧
          (∀ v c, u.checkAccess (portSlice p) h e right (e.moff + h.offset) pay.length = (v, .error c) →
            exec (.write p pkt) s = (nextOf s (State.ackOut
              (v.raise (statusClass c) (source 3 4) 0 (i + h.src * 2 ^ 16) (h.offset % 2 ^ 32)) h.src e.sq h.seq e.key c h.offset false))))))) ∧
  (∀ (s : State) (sl : Nat) (h : PktHead) (e : AncExt) (r : Right) (off n : Nat) (a : Anchor), a = s.anchor (e.key % 2 ^ 16) →
    (a.st = .free ∨ a.st = .revoked ∨ e.key / 2 ^ 16 = 0 ∨ e.key / 2 ^ 16 ≠ a.tag →
      s.checkAccess sl h e r off n = (s.bump 0x160 noUnit 1, .error 6)) ∧
    (a.st = .armed → e.key / 2 ^ 16 ≠ 0 → e.key / 2 ^ 16 = a.tag →
      (h.epoch ≠ a.epoch → s.checkAccess sl h e r off n = (s.bump 0x164 noUnit 1, .error 5)) ∧
      (h.epoch = a.epoch →
        ((r = .write ∧ a.rightW = false) ∨ (r = .flagWrite ∧ (a.rightW = false ∨ a.rightF = false)) ∨ (r = .read ∧ a.rightR = false) ∨
            (r = .flagWrite ∧ a.bound = true ∧ (h.src ≠ a.fsrc ∨ e.sq ≠ a.fsq)) →
          s.checkAccess sl h e r off n = (s.bump 0x160 noUnit 1, .error 6)) ∧
        ((r = .write ∧ a.rightW = true) ∨ (r = .read ∧ a.rightR = true) → a.length < off + n →
          s.checkAccess sl h e r off n = (s.bump 0x168 noUnit 1, .error 7)))))

/-- R369, R370, R371, R367, R359: a READ-REQ that passes its checks waits at its slice's responder, up to 64 of them, and one that fails is
answered; the responder reads the anchor and answers; the one packet of a READ-RESP is written, and ends its message DONE. An ACK of DONE ends its
message; FULL and LOST make it wait for its backoff, which doubles up to RTO; one for no outstanding message is counted.
Where the rules leave a point to the reader, it states the model's reading: log 18. -/
def Obligations.ReadsAndAnswers : Prop :=
  ∀ (s u : State) (p : Nat) (pkt pay : List Byte) (h : PktHead) (e : AncExt) (n : Nat), e = packetExt pkt → pay = packetPayload pkt →
    n = field (leNat pay) 91 72 + 1 →
    (Reaches s u p pkt 9 h → u.auxGood p h e = true → h.ext = true → h.first = true → h.last = true → h.offset = 0 → h.len = 16 → e.npm1 = 0 →
      e.flag_ = false →
      (u.checkKey h e .read = 0 → e.moff + n ≤ (u.anchor (e.key % 2 ^ 16)).length →
        ((u.anc.jobs.get [] (portSlice p)).length < 64 → exec (.readReq p pkt) s = (nextOf s { u with
          anc := { u.anc with jobs := u.anc.jobs.put (portSlice p) (u.anc.jobs.get [] (portSlice p) ++
            [⟨h.src, e.sq, h.seq, e.key, h.epoch, e.moff, field (leNat pay) 31 0, field (leNat pay) 71 32, n, field (leNat pay) 107 92⟩]) } })) ∧
        (64 ≤ (u.anc.jobs.get [] (portSlice p)).length → exec (.readReq p pkt) s = nextOf s (u.ackOut h.src e.sq h.seq e.key 3 0 true))) ∧
      (u.checkKey h e .read = 0 → (u.anchor (e.key % 2 ^ 16)).length < e.moff + n → exec (.readReq p pkt) s = (nextOf s (State.ackOut
        ((u.bump 0x168 noUnit 1).raise 0x09 (source 3 4) 0 (e.key % 2 ^ 16 + h.src * 2 ^ 16) 0) h.src e.sq h.seq e.key 7 0 true)))) ∧
    (∀ sl j rest v segs bs, s.coreUp = true → sl < 8 → (s.slice sl).fenced = false → s.anc.jobs.get [] sl = j :: rest → 1 ≤ j.rlen → j.rlen ≤ 4096 →
      State.checkAccess { s with anc := { s.anc with jobs := s.anc.jobs.put sl rest } } sl
        { (default : PktHead) with src := j.src, seq := j.seq, epoch := j.epoch } ⟨false, 0, j.sq, j.moff, j.key⟩ .read j.moff j.rlen = (v, .ok segs) →
      v.readSegs segs = some bs →
      exec (.readResponderServe sl) s = nextOf s (v.respond sl j 0 1 bs)) ∧
    (Reaches s u p pkt 0x0A h → h.ext = true → cutGood h e = true → e.flag_ = false → e.npm1 = 0 →
      ∀ v segs, u.checkAccess (portSlice p) h e .write (e.moff + h.offset) pay.length = (v, .ok segs) →
        exec (.readResp p pkt) s = nextOf s ((v.writeSegs segs pay).messageDone e.sq h.seq)) ∧
    (Reaches s u p pkt 0x0B h → ∀ q, q = field (leNat pay) 42 32 → q < 1024 →
      (u.outMsg q h.seq = none → exec (.ack p pkt) s = (nextOf s (u.bump 0x180 noUnit 1))) ∧
      (∀ x, u.outMsg q h.seq = some x →
        ((RingEnt.parse (u.hbmRead ((u.groundQ q).entryAddr x.entry) 64)).type = 2 ↔ flag (leNat pay) 43 = true) →
        (h.group = 1 ∨ h.group = 2 → exec (.ack p pkt) s = nextOf s (u.messageDone q h.seq)) ∧
        (h.group = 3 ∨ h.group = 4 → (u.groundQ q).st ≠ .draining → exec (.ack p pkt) s = (nextOf s
          ((u.bump (0x4000 + 0x40 * q + 8) (unitWord q 0 0) 1).onMsg q h.seq (fun m => { m with
            timer := .backoff, timerAt := s.belay.count + m.backoff, silent := 0, backoff := Nat.min (2 * m.backoff) (s.reg 0x50000) })))) ∧
        (h.group = 5 ∨ h.group = 6 ∨ h.group = 7 → exec (.ack p pkt) s = nextOf s (u.messageFail q h.seq h.group (field (leNat pay) 67 44)))))

/-- R349, R350, Tables 10-1, 10-2: the owner starts one operation at a time on the selected anchor. At its end an ARM that nothing forbids makes the
anchor ARMED with the next epoch, no flags and no binding but FBIND's, REVOKE and DISARM change its state, and an operation that is refused
changes only ANC_STAT. A word of an anchor that is not ARMED is written, the engine's own fields apart.
R362, R363, Table 10-7: HOLD ticks after the last packet of a message that still has gaps, its entry is freed and, where it is a WRITE, LOST
goes back; AGE ticks without a packet free the entry of a message whose last packet has not come, which is counted. Neither happens sooner.
Where the rules leave a point to the reader, it states the model's reading: log 18. -/
def Obligations.AnchorEngine : Prop :=
  (∀ (s : State) (m : Master),
    (s.mayCore m false = true → ∀ op c, (op = 1 ∧ c = .ancCtlArm m) ∨ (op = 2 ∧ c = .ancCtlRevoke m) ∨ (op = 3 ∧ c = .ancCtlDisarm m) →
      (s.anc.busy = none → exec c s = (nextOf s { s with
        anc := { s.anc with busy := some (op, s.anc.sel), op := 1, reason := 0, index := s.anc.sel } })) ∧
      (s.anc.busy.isSome = true → Inv s → exec c s = .next s)) ∧
    (∀ op i a u, s.anc.busy = some (op, i) → a = s.anchor i → (∀ t ∈ s.anc.tracker, t.anchor ≠ i) → NoWaits s →
      u = (fun r c => { s.anc with busy := none, index := i, reason := r, op := c } : Nat → Nat → Anchors) →
      (op = 1 → s.anchorRefusal 1 i = 0 → exec .anchorOperationDone s = (nextOf s { s with
        anc := { u 0 2 with
          tab := s.anc.tab.put i { a with
            st := .armed, epoch := (a.epoch + 1) % 2 ^ 16, fcount := 0, lastFseq := 0, bound := a.fbind, lastArm := some s.belay.count }
          trans := s.anc.trans.map (fun e => (e.1, e.2.filter (fun t => t.anchor ≠ i))) } })) ∧
      (op = 2 → a.st = .armed → exec .anchorOperationDone s = (nextOf s { s with
        anc := { u 0 3 with
          tab := s.anc.tab.put i { a with st := .revoked }
          trans := s.anc.trans.map (fun e => (e.1, e.2.filter (fun t => t.anchor ≠ i))) } })) ∧
      (op = 3 → a.st = .revoked → exec .anchorOperationDone s = (nextOf s { s with
        anc := { u 0 4 with tab := s.anc.tab.put i { a with st := .free } } })) ∧
      (∀ why, why = s.anchorRefusal op i → why ≠ 0 → exec .anchorOperationDone s = (nextOf s { s with anc := u why 5 })) ∧
      (s.anchorRefusal 1 i = 0 ↔ a.st ≠ .armed ∧ (∀ t, a.lastArm = some t → t + 4096 ≤ s.belay.count) ∧ a.tag ≠ 0 ∧
        (a.rightF = true ∨ a.rightW = true ∨ a.rightR = true) ∧ a.length ≠ 0 ∧ a.resv = 0)) ∧
    (∀ (v : Word) a, s.mayCore m false = true → a = s.anchor s.anc.sel →
      (a.st ≠ .armed →
        exec (.ancEWrite m 0 v) s = (nextOf s (s.onAnchor s.anc.sel (fun a => { a with
          page1G := v.getLsbD 29, irq := v.getLsbD 28, fbind := v.getLsbD 27, rightF := v.getLsbD 25, rightW := v.getLsbD 24
          rightR := v.getLsbD 23, resv := a.resv / 2 ^ 7 * 2 ^ 7 + field v.toNat 22 16, tag := field v.toNat 15 0 }))) ∧
        exec (.ancEWrite m 1 v) s = (nextOf s (s.onAnchor s.anc.sel (fun a => { a with fsrc := field v.toNat 15 0 }))) ∧
        exec (.ancEWrite m 3 v) s = (nextOf s (s.onAnchor s.anc.sel (fun a => { a with length := a.length / 2 ^ 32 * 2 ^ 32 + v.toNat }))) ∧
        exec (.ancEWrite m 2 v) s = (nextOf s (s.onAnchor s.anc.sel (fun a => { a with
          resv := a.resv / 2 ^ 28 * 2 ^ 28 + field v.toNat 31 11 * 2 ^ 7 + field a.resv 6 0, fsq := field v.toNat 10 0 }))) ∧
        exec (.ancEWrite m 4 v) s = (nextOf s (s.onAnchor s.anc.sel (fun a => { a with
          resv := field v.toNat 31 8 * 2 ^ 28 + field a.resv 27 0, length := field v.toNat 7 0 * 2 ^ 32 + a.length % 2 ^ 32 }))) ∧
        exec (.ancEWrite m 5 v) s = (nextOf s (s.onAnchor s.anc.sel (fun a => { a with plBase := v.toNat }))) ∧
        (∀ w, 6 ≤ w → exec (.ancEWrite m w v) s = (nextOf s (s.onAnchor s.anc.sel (fun a => a))))) ∧
      (a.st = .armed → Inv s → ∀ w, exec (.ancEWrite m w v) s = .next s))) ∧
  (∀ (s : State) (k : TrackKey) (t : TrackEnt) (u : State), s.track k.src k.sq k.seq k.resp = some t →
    u = { s with anc := { s.anc with tracker := s.anc.tracker.filter (fun x => !(x.src == k.src && x.sq == k.sq && x.seq == k.seq && x.resp == k.resp)) } } →
    (∀ last, t.lastTick = some last →
      (last + s.reg 0x200030 ≤ s.belay.count →
        (k.resp = false → exec (.trackerHoldExpiry k) s = nextOf s (u.ackOut k.src k.sq k.seq t.key 4 0 false)) ∧
        (k.resp = true → exec (.trackerHoldExpiry k) s = nextOf s u)) ∧
      (s.belay.count < last + s.reg 0x200030 → Inv s → exec (.trackerHoldExpiry k) s = .next s) ∧
      (Inv s → exec (.trackerAgeExpiry k) s = .next s)) ∧
    (t.lastTick = none →
      (t.seenTick + s.reg 0x200034 ≤ s.belay.count → exec (.trackerAgeExpiry k) s = (nextOf s (u.bump 0x178 noUnit 1))) ∧
      (s.belay.count < t.seenTick + s.reg 0x200034 → Inv s → exec (.trackerAgeExpiry k) s = .next s) ∧
      (Inv s → exec (.trackerHoldExpiry k) s = .next s)))

/-! ### Cairns -/

/-- R464, R465, R466: a submitted cairn fills the capture slots that are empty, and no other. Where a window of its class and source is open it is
only counted there; where none is open and one is free it goes to the entry queue and opens one; with 128 windows open it goes there as the
record that says so. The queue holds 256 records, and what does not fit is counted.
R465, R467, R468, R471: the oldest record of the entry queue enters the ring, and is turned away and counted where no slot is free, or
where only the 64 slots kept for the classes marked Rsv are; a class enabled for it sends the interrupt, and the in-band interrupt unless DISEC
holds. A window closes when 25,000 standby cycles have passed, with a SUMMARY where it counted more than one cairn.
R464, R468, R470, R472, R497, Table 12-11: the registers of the log are open to management. The read pointer moves within the unread
records only, and any other write is counted; OVF_CLR, CLEAR, CNT_CLR and CRN_FEC_CLR clear what each names and nothing else; LOG-READ answers
with the records and takes them.
Where the rules leave a point to the reader, it states the model's reading: log 1, 7. -/
def Obligations.Cairns : Prop :=
  (∀ (l l' : CairnLog) (cyc : Nat) (c : CairnSub) (t : CairnStamp), l' = l.submit cyc c t →
    (∀ k r, l.capture.find k = some r → l'.capture.find k = some r) ∧
    (l.capture.find 0 = none → l'.capture.find 0 = some (cairnRecord c t false false 1 0)) ∧
    (l.capture.find c.cls = none → l'.capture.find c.cls = some (cairnRecord c t false false 1 0)) ∧
    (∀ k, k ≠ 0 → k ≠ c.cls → l'.capture.find k = l.capture.find k) ∧ l'.ring = l.ring ∧ l'.wr = l.wr ∧ l'.rd = l.rd ∧
    (∀ w, l.windows.find? (fun w => w.cls = c.cls ∧ w.source = c.source) = some w → l'.queue = l.queue ∧ l'.qdrop = l.qdrop ∧
      l'.windows.length = l.windows.length ∧ ∃ w', l'.windows.find? (fun w => w.cls = c.cls ∧ w.source = c.source) = some w' ∧
        w'.count = stick32 (w.count + 1) ∧ w'.opened = w.opened ∧ w'.firstTime = w.firstTime ∧ w'.lastTime = t.time ∧ w'.last = c) ∧
    (l.windows.find? (fun w => w.cls = c.cls ∧ w.source = c.source) = none → ∀ r, r = cairnRecord c t false (decide (128 ≤ l.windows.length)) 1 0 →
      (l.queue.length < 256 → l'.queue = l.queue ++ [r] ∧ l'.qdrop = l.qdrop) ∧
      (256 ≤ l.queue.length → l'.queue = l.queue ∧ l'.qdrop = stick32 (l.qdrop + 1)) ∧
      l'.windows.length = Nat.min (l.windows.length + 1) (Nat.max 128 l.windows.length))) ∧
  (∀ (s : State), s.power.standby = true →
    (∀ r rest x y, s.cairn.queue = r :: rest → s.cairn.unread < 4096 → s.cairn.unread < 4032 ∨ reservedClass (recordClass r) = true →
      x = { s with cairn := { s.cairn with
        queue := rest, ring := s.cairn.ring.put (s.cairn.wr % 4096) r, wr := (s.cairn.wr + 1) % 8192
        badParity := s.cairn.badParity.filter (· ≠ s.cairn.wr % 4096) } } →
      y = (if flag (s.reg 0x400018) (recordClass r) then x.irq 2 else x) →
      exec .cairnEntry s = (nextOf s (if flag (s.reg 0x40001C) (recordClass r) ∧ flag s.mgmt.events 0 = false then
        { y with out := { y.out with ibi := y.out.ibi ++ [0xAE] } } else y))) ∧
    (∀ r rest, s.cairn.queue = r :: rest → 4096 ≤ s.cairn.unread ∨ (4032 ≤ s.cairn.unread ∧ reservedClass (recordClass r) = false) →
      exec .cairnEntry s = (nextOf s { s with cairn := { s.cairn with queue := rest, rdrop := stick32 (s.cairn.rdrop + 1) } })) ∧
    (s.cairn.queue = [] → Inv s → exec .cairnEntry s = .next s) ∧
    (∀ cls src w, s.cairn.windows.find? (fun w => w.cls = cls ∧ w.source = src) = some w →
      (w.opened + 25000 ≤ s.power.cycles → ∀ l, l = { s.cairn with windows := s.cairn.windows.erase w } →
        (w.count ≤ 1 → exec (.coalescingWindowClose cls src) s = (nextOf s { s with cairn := l })) ∧
        (1 < w.count → exec (.coalescingWindowClose cls src) s = (nextOf s { s with cairn := l.enqueue w.summary }))) ∧
      (s.power.cycles < w.opened + 25000 → Inv s → exec (.coalescingWindowClose cls src) s = .next s))) ∧
  (∀ (s : State) (m : Master) (v : Word),
    (s.may m true = true →
      ((v.toNat % 8192 + 8192 - s.cairn.rd) % 8192 ≤ s.cairn.unread →
        exec (.crnRdWrite m v) s = (nextOf s { s with cairn := { s.cairn with rd := v.toNat % 8192 } })) ∧
      (s.cairn.unread < (v.toNat % 8192 + 8192 - s.cairn.rd) % 8192 → exec (.crnRdWrite m v) s = (nextOf s (s.bump 0x388 noUnit 1))) ∧
      exec (.crnCtlOvfClr m) s = (nextOf s { s with cairn := { s.cairn with qdrop := 0, rdrop := 0 } }) ∧
      exec (.crnCtlClear m) s = (nextOf s { s with cairn := ⟨[], 0, 0, [], [], [], 0, 0, []⟩ }) ∧
      (s.coreUp = true → exec (.crnCtlCntClr m) s = (nextOf s { s with counters := [] })) ∧
      (s.coreUp = false → Inv s → exec (.crnCtlCntClr m) s = .next s) ∧
      (s.cairn.badParity = [] → exec (.crnFecClr m v) s = (nextOf s { s with cairn := { s.cairn with
        capture := s.cairn.capture.filter (fun e => !(decide (e.1 ≤ 22) && flag v.toNat e.1)) } }))) ∧
    (s.may m true = false → Inv s → exec (.crnRdWrite m v) s = .next s ∧ exec (.crnCtlOvfClr m) s = .next s ∧
      exec (.crnCtlClear m) s = .next s ∧ exec (.crnCtlCntClr m) s = .next s ∧ exec (.crnFecClr m v) s = .next s) ∧
    (∀ first n k skip, s.power.standby = true → first < 8192 → skip = (first + 8192 - s.cairn.rd) % 8192 →
      (0 < n → n ≤ 120 → k = Nat.min n (s.cairn.unread - skip) → skip ≤ s.cairn.unread → s.cairn.badParity = [] → s.cairn.rd < 8192 →
        exec (.logRead first n) s = (nextOf s { s with
          cairn := { s.cairn with rd := (first + k) % 8192 }
          out := { s.out with reply := 0 :: ((List.range k).map (fun i => (first + i) % 4096)).flatMap (fun i => recordWords (s.cairn.ring.get 0 i)) } })) ∧
      (n = 0 ∨ 120 < n ∨ s.cairn.unread < skip → exec (.logRead first n) s = (nextOf s (s.answerWith [3])))))

/-! ### Images -/

/-- A staging begins on the copy that is not loaded (R435): its sectors up to the new marker are erased, and a prepared image is dropped. -/
def StagingBegun (s : State) (byMgmt : Bool) (len : Nat) : State :=
  { s with
    store := s.store.blank (copyBase s.stageTarget) (roundUp len 4096 + 4096)
    img := { s.img with staging := ⟨1, byMgmt, s.stageTarget, len, 0, false⟩, prep := if s.img.prep = 1 then 1 else 0, prepared := none } }

/-- R435, R437, R448, Table 12-11: management's staging, command by command. BEGIN is BUSY while a staging or a load runs and INVALID without room;
DATA programs bytes of the target copy; END commits a copy that reads back as a VALID one would, and otherwise erases its header and raises an
IMAGE cairn; ABORT ends any staging. Each is REFUSED where no such staging runs.
R435, R436, R437, Table 14-16: the host's staging takes the copy that it placed in HBM, whose SEQ must be above the loaded one's; its end commits
or refuses it, and ABORT ends a staging that the host started. A refused action leaves its reason in IMG_STAT.
Where the rules leave a point to the reader, it states the model's reading: log 17, 32. -/
def Obligations.StagingOfImages : Prop :=
  (∀ (s : State) (g : Staging), s.power.standby = true → g = s.img.staging →
    (∀ len, s.stages = false → s.power.st ≠ .loading → 4096 ≤ len → roundUp len 4096 + 4096 ≤ copyRoom →
      exec (.stageBegin len) s = (nextOf s ((StagingBegun s true len).answerWith [0]))) ∧
    (∀ len, s.stages = true ∨ s.power.st = .loading → exec (.stageBegin len) s = (nextOf s (s.answerWith [2]))) ∧
    (∀ len, s.stages = false → s.power.st ≠ .loading → len < 4096 ∨ copyRoom < roundUp len 4096 + 4096 →
      exec (.stageBegin len) s = (nextOf s (s.answerWith [3]))) ∧
    (g.st = 1 → g.byMgmt = true →
      (∀ off bs, bs ≠ [] → bs.length ≤ 4000 → off + bs.length ≤ roundUp g.len 4096 → exec (.stageData off bs) s = (nextOf s
        (State.answerWith { s with
          store := Memory.writeN storeBlank s.store (copyBase g.toB + off) bs
          img := { s.img with staging := { g with
            progress := Nat.min g.len (g.progress + bs.length), header := g.header || decide (off < 4096) } } } [0]))) ∧
      (∀ h c, h = s.copyHead g.toB → c = copyBase g.toB → s.img.loaded = false ∨ s.img.seq < headSeq h →
        (headGood h = true → s.copyChecks g.toB h = true → exec .stageEnd s = (nextOf s (State.answerWith (State.irq { s with
          store := Memory.writeN storeBlank s.store (c + 4096 * headUsed h) (commitMarker h)
          img := { s.img with staging := { g with st := 2, header := false } } } 5) [0]))) ∧
        (headGood h = false ∨ s.copyChecks g.toB h = false → ∃ t, exec .stageEnd s = .next t ∧ t.out.reply = [1] ∧ t.img.staging.st = 3 ∧
          t.store = s.store.blank c 4096 ∧ t.cairn = s.cairn.submit s.power.cycles ⟨0x14, source 0 2, 0, 6, ofBool g.toB⟩ s.stamp))) ∧
    (g.st = 1 → exec .stageAbort s = (nextOf s (State.answerWith (State.irq { s with
      store := if g.header then s.store.blank (copyBase g.toB) 4096 else s.store
      img := { s.img with staging := { g with st := 4, header := false } } } 5) [0]))) ∧
    (g.st ≠ 1 → exec .stageAbort s = (nextOf s (s.answerWith [1])) ∧ exec .stageEnd s = (nextOf s (s.answerWith [1])) ∧
      ∀ off bs, exec (.stageData off bs) s = (nextOf s (s.answerWith [1])))) ∧
  (∀ (s : State) (m : Master), s.may m false = true →
    (∀ base len bytes u, base = s.reg 0x20010 * 4096 → len = s.reg 0x20014 * 4096 → bytes = s.hbmRead base (Nat.min len copyRoom) →
      s.stages = false → s.power.st = .ready ∨ s.power.st = .held ∨ s.power.st = .running → s.img.loaded = false ∨ s.img.seq < s.hbmNat (base + 8) 8 →
      u = StagingBegun s false len → ∃ t, exec (.imgCtlStage m) s = .next t ∧
        t.img = { u.img with staging := { u.img.staging with progress := len, header := true } } ∧
        t.store = Memory.writeN storeBlank (Memory.writeN storeBlank u.store (copyBase s.stageTarget + 4096) (bytes.drop 4096))
          (copyBase s.stageTarget) (bytes.take 4096) ∧ t.hbm = s.hbm ∧ t.power = s.power) ∧
    (∀ r, (s.stages = true ∨ s.power.st = .loading) ∧ r = 6 ∨ (s.stages = false ∧ (s.power.st = .off ∨ s.power.st = .bivouac) ∧ r = 1) →
      exec (.imgCtlStage m) s = (nextOf s { s with img := { s.img with reason := r } })) ∧
    (∀ g, g = s.img.staging →
      (g.st = 1 → g.byMgmt = false → exec (.imgCtlAbort m) s = (nextOf s (State.irq { s with
        store := if g.header then s.store.blank (copyBase g.toB) 4096 else s.store
        img := { s.img with staging := { g with st := 4, header := false } } } 5))) ∧
      (∀ r, (g.st ≠ 1 ∧ r = 1) ∨ (g.st = 1 ∧ g.byMgmt = true ∧ r = 8) →
        exec (.imgCtlAbort m) s = (nextOf s { s with img := { s.img with reason := r } })) ∧
      (∀ h, g.st = 1 → g.byMgmt = false → h = s.copyHead g.toB → headGood h = true → s.copyChecks g.toB h = true →
        exec .stagingComplete s = (nextOf s (State.irq { s with
          store := Memory.writeN storeBlank s.store (copyBase g.toB + 4096 * headUsed h) (commitMarker h)
          img := { s.img with staging := { g with st := 2, header := false } } } 5))) ∧
      (g.st ≠ 1 ∨ g.byMgmt = true → Inv s → exec .stagingComplete s = .next s)))

/-- R429, R432, R448, Tables 12-9, 12-11, 14-16: a load is commanded in READY or HELD with no staging under way, and leads to LOADING with no image;
RECOVER leads from HELD with a kept image to READY, where no group is refused, at most one slice is fenced and the receiver is LOCKED. A key record
that is valid, with a KSEQ above the current one, is written to both places; any other is REFUSED with an IMAGE cairn.
R438, R439, Table 14-16: PREPARE runs in RUNNING and ends with the image of the staged copy or with the cause that failed. RETHREAD arms it
for a step whose origin is at least 62,500 ticks away, if it agrees with the running image in its conformance word and its layout, and is refused
with the first reason that applies; CANCEL takes it back until 64 ticks before that origin.
Where the rules leave a point to the reader, it states the model's reading: log 17, 28, 34. -/
def Obligations.StoreCommands : Prop :=
  (∀ (s : State) (m : Master) (n : Nat), s.power.standby = true →
    (n ≤ 2 → s.stages = false → s.power.st = .ready ∨ s.power.st = .held → s.power.phase1 = true → s.power.birth.isSome = true →
      s.power.storeMode ≠ 3 → s.power.hbmReady = false → ∀ c, (c = .imgCtlLoad m n ∧ s.may m false = true) ∨ (c = .load n ∧ s.mgmt.owner = .mgmt) →
      ∃ t, exec c s = .next t ∧ t.power.st = .loading ∧ t.power.phase = 2 ∧ t.power.loadCopy = n ∧ t.img.run = none ∧ t.img.loaded = false ∧
        t.groups = [] ∧ t.gq = [] ∧ t.anc = Anchors.reset ∧ t.store = s.store ∧ (c = .load n → t.out.reply = [0])) ∧
    (∀ r, (s.mgmt.owner ≠ .mgmt ∧ r = 4) ∨ (s.mgmt.owner = .mgmt ∧ 2 < n ∧ r = 3) ∨
        (s.mgmt.owner = .mgmt ∧ n ≤ 2 ∧ (s.power.st = .off ∨ s.power.st = .bivouac) ∧ r = 5) ∨
        (s.mgmt.owner = .mgmt ∧ n ≤ 2 ∧ s.power.st ≠ .off ∧ s.power.st ≠ .bivouac ∧ s.stages = true ∧ r = 2) ∨
        (s.mgmt.owner = .mgmt ∧ n ≤ 2 ∧ (s.power.st = .loading ∨ s.power.st = .running) ∧ s.stages = false ∧ r = 1) →
      exec (.load n) s = (nextOf s (s.answerWith [r]))) ∧
    (s.may m false = true →
      (∀ r, (s.stages = true ∧ r = 6) ∨ (s.stages = false ∧ s.power.st ≠ .ready ∧ s.power.st ≠ .held ∧ r = 1) →
        exec (.imgCtlLoad m n) s = (nextOf s { s with img := { s.img with reason := r } })) ∧
      (∀ r, r = (if s.power.st ≠ .held ∨ s.power.cause < 7 then 1 else if s.groups.any (fun e => e.2.st = 3) then 9
          else if 2 ≤ s.fencedSlices.length then 0xA else if s.belay.st ≠ .locked then 0xB else 0) →
        (r = 0 → exec (.imgCtlRecover m) s = (nextOf s { s with power := { s.power with st := .ready, cause := 0, check := 0 } })) ∧
        (r ≠ 0 → exec (.imgCtlRecover m) s = (nextOf s { s with img := { s.img with reason := r } })))) ∧
    (∀ rec : List Byte,
      (∀ k, rec.length = 4096 → keyRecord rec = some k → (∀ o, s.readKey = some o → o.kseq < k.kseq) →
        exec (.enrollKey rec) s = (nextOf s (State.answerWith { s with
          store := Memory.writeN storeBlank (Memory.blank (Memory.writeN storeBlank (s.store.blank (storeHalf + 0x10000) 4096)
            (storeHalf + 0x10000) rec) 0x10000 4096) 0x10000 rec } [0]))) ∧
      (rec.length ≠ 4096 ∨ keyRecord rec = none ∨ (∃ k o, keyRecord rec = some k ∧ s.readKey = some o ∧ k.kseq ≤ o.kseq) →
        exec (.enrollKey rec) s = (nextOf s ((s.raise 0x14 (source 0 2) 0 6 0).answerWith [1]))))) ∧
  (∀ (s : State) (m : Master) (img : ImgSt) (step : Nat), img = s.img → step = s.reg48 0x20018 →
    (s.may m false = true →
      (s.power.st = .running → img.rethread ≠ 1 → s.stages = false → img.prep ≠ 1 →
        exec (.imgCtlPrepare m) s = (nextOf s { s with img := { img with prep := 1, pcause := 0, prepared := none } })) ∧
      (∀ r, ((s.power.st ≠ .running ∨ img.rethread = 1) ∧ r = 1) ∨ (s.power.st = .running ∧ img.rethread ≠ 1 ∧ s.stages = true ∧ r = 6) →
        exec (.imgCtlPrepare m) s = (nextOf s { s with img := { img with reason := r } })) ∧
      (∀ im, s.power.st = .running → img.prepared = some im → im.conf = s.image.conf → im.layoutKey = s.image.layoutKey →
        s.belay.count + 62500 ≤ s.originOf step →
        exec (.imgCtlRethread m) s = (nextOf s { s with img := { img with rethread := 1, rethreadStep := step } })) ∧
      (∀ r, (s.power.st ≠ .running ∧ r = 1) ∨ (s.power.st = .running ∧ img.prepared = none ∧ r = 2) ∨
          (s.power.st = .running ∧ ∃ im, img.prepared = some im ∧ ((im.conf ≠ s.image.conf ∧ r = 3) ∨
            (im.conf = s.image.conf ∧ im.layoutKey ≠ s.image.layoutKey ∧ r = 4) ∨
            (im.conf = s.image.conf ∧ im.layoutKey = s.image.layoutKey ∧ s.originOf step < s.belay.count + 62500 ∧ r = 5))) →
        exec (.imgCtlRethread m) s = (nextOf s (State.irq { s with img := { img with rethread := 2, reason := r } } 5))) ∧
      (img.rethread = 1 → s.belay.count + 64 < s.originOf img.rethreadStep →
        exec (.imgCtlCancel m) s = (nextOf s (State.irq { s with img := { img with rethread := 4 } } 5))) ∧
      (∀ r, (img.rethread ≠ 1 ∧ r = 1) ∨ (img.rethread = 1 ∧ s.originOf img.rethreadStep ≤ s.belay.count + 64 ∧ r = 5) →
        exec (.imgCtlCancel m) s = (nextOf s { s with img := { img with reason := r } }))) ∧
    (img.prep = 1 →
      (∀ im, s.copyClass s.stageTarget = .valid → s.checkedImage s.stageTarget = .ok im → exec .preparationComplete s = (nextOf s
        (State.irq { s with img := { img with prep := 2, prepared := some im, pcause := 0 } } 5))) ∧
      (∀ c, (s.copyClass s.stageTarget = .valid ∧ (∃ n, s.checkedImage s.stageTarget = .error n) ∧ c = 6) ∨
          (s.copyClass s.stageTarget = .halfWritten ∧ c = 2) ∨ ((s.copyClass s.stageTarget = .empty ∨ s.copyClass s.stageTarget = .invalid) ∧ c = 1) →
        exec .preparationComplete s = (nextOf s (State.irq { s with img := { img with prep := 3, prepared := none, pcause := c } } 5)))) ∧
    (img.prep ≠ 1 → Inv s → exec .preparationComplete s = .next s))
end

