-- ==== Sys2Proof/Laws/State.lean ====
section
/-! SUPPORT. What each update of one part of the state leaves as it was: one lemma for each field and update, all true by
definition. -/

namespace Sys2Proof.Machine

variable (s : State)

/-! ### onSlice -/

@[simp] theorem State.onSlice_pending (i : Nat) (f : Slice → Slice) : (s.onSlice i f).pending = s.pending := rfl
@[simp] theorem State.onSlice_power (i : Nat) (f : Slice → Slice) : (s.onSlice i f).power = s.power := rfl
@[simp] theorem State.onSlice_mgmt (i : Nat) (f : Slice → Slice) : (s.onSlice i f).mgmt = s.mgmt := rfl
@[simp] theorem State.onSlice_regs (i : Nat) (f : Slice → Slice) : (s.onSlice i f).regs = s.regs := rfl
@[simp] theorem State.onSlice_hiCap (i : Nat) (f : Slice → Slice) : (s.onSlice i f).hiCap = s.hiCap := rfl
@[simp] theorem State.onSlice_img (i : Nat) (f : Slice → Slice) : (s.onSlice i f).img = s.img := rfl
@[simp] theorem State.onSlice_belay (i : Nat) (f : Slice → Slice) : (s.onSlice i f).belay = s.belay := rfl
@[simp] theorem State.onSlice_req (i : Nat) (f : Slice → Slice) : (s.onSlice i f).req = s.req := rfl
@[simp] theorem State.onSlice_seq (i : Nat) (f : Slice → Slice) : (s.onSlice i f).seq = s.seq := rfl
@[simp] theorem State.onSlice_srec (i : Nat) (f : Slice → Slice) : (s.onSlice i f).srec = s.srec := rfl
@[simp] theorem State.onSlice_sealing (i : Nat) (f : Slice → Slice) : (s.onSlice i f).sealing = s.sealing := rfl
@[simp] theorem State.onSlice_stations (i : Nat) (f : Slice → Slice) : (s.onSlice i f).stations = s.stations := rfl
@[simp] theorem State.onSlice_tok (i : Nat) (f : Slice → Slice) : (s.onSlice i f).tok = s.tok := rfl
@[simp] theorem State.onSlice_groups (i : Nat) (f : Slice → Slice) : (s.onSlice i f).groups = s.groups := rfl
@[simp] theorem State.onSlice_ports (i : Nat) (f : Slice → Slice) : (s.onSlice i f).ports = s.ports := rfl
@[simp] theorem State.onSlice_paths (i : Nat) (f : Slice → Slice) : (s.onSlice i f).paths = s.paths := rfl
@[simp] theorem State.onSlice_brides (i : Nat) (f : Slice → Slice) : (s.onSlice i f).brides = s.brides := rfl
@[simp] theorem State.onSlice_anc (i : Nat) (f : Slice → Slice) : (s.onSlice i f).anc = s.anc := rfl
@[simp] theorem State.onSlice_gq (i : Nat) (f : Slice → Slice) : (s.onSlice i f).gq = s.gq := rfl
@[simp] theorem State.onSlice_cairn (i : Nat) (f : Slice → Slice) : (s.onSlice i f).cairn = s.cairn := rfl
@[simp] theorem State.onSlice_counters (i : Nat) (f : Slice → Slice) : (s.onSlice i f).counters = s.counters := rfl
@[simp] theorem State.onSlice_hbm (i : Nat) (f : Slice → Slice) : (s.onSlice i f).hbm = s.hbm := rfl
@[simp] theorem State.onSlice_hbmBad (i : Nat) (f : Slice → Slice) : (s.onSlice i f).hbmBad = s.hbmBad := rfl
@[simp] theorem State.onSlice_store (i : Nat) (f : Slice → Slice) : (s.onSlice i f).store = s.store := rfl
@[simp] theorem State.onSlice_scaleHist (i : Nat) (f : Slice → Slice) : (s.onSlice i f).scaleHist = s.scaleHist := rfl
@[simp] theorem State.onSlice_levelHist (i : Nat) (f : Slice → Slice) : (s.onSlice i f).levelHist = s.levelHist := rfl
@[simp] theorem State.onSlice_heatHist (i : Nat) (f : Slice → Slice) : (s.onSlice i f).heatHist = s.heatHist := rfl
@[simp] theorem State.onSlice_levelRes (i : Nat) (f : Slice → Slice) : (s.onSlice i f).levelRes = s.levelRes := rfl
@[simp] theorem State.onSlice_levelMax (i : Nat) (f : Slice → Slice) : (s.onSlice i f).levelMax = s.levelMax := rfl
@[simp] theorem State.onSlice_spikes (i : Nat) (f : Slice → Slice) : (s.onSlice i f).spikes = s.spikes := rfl
@[simp] theorem State.onSlice_out (i : Nat) (f : Slice → Slice) : (s.onSlice i f).out = s.out := rfl
@[simp] theorem State.onSlice_saved (i : Nat) (f : Slice → Slice) : (s.onSlice i f).saved = s.saved := rfl
@[simp] theorem State.onSlice_free (i : Nat) (f : Slice → Slice) : (s.onSlice i f).free = s.free := rfl

/-! ### onPort -/

@[simp] theorem State.onPort_pending (p : Nat) (f : Port → Port) : (s.onPort p f).pending = s.pending := rfl
@[simp] theorem State.onPort_power (p : Nat) (f : Port → Port) : (s.onPort p f).power = s.power := rfl
@[simp] theorem State.onPort_mgmt (p : Nat) (f : Port → Port) : (s.onPort p f).mgmt = s.mgmt := rfl
@[simp] theorem State.onPort_regs (p : Nat) (f : Port → Port) : (s.onPort p f).regs = s.regs := rfl
@[simp] theorem State.onPort_hiCap (p : Nat) (f : Port → Port) : (s.onPort p f).hiCap = s.hiCap := rfl
@[simp] theorem State.onPort_img (p : Nat) (f : Port → Port) : (s.onPort p f).img = s.img := rfl
@[simp] theorem State.onPort_belay (p : Nat) (f : Port → Port) : (s.onPort p f).belay = s.belay := rfl
@[simp] theorem State.onPort_req (p : Nat) (f : Port → Port) : (s.onPort p f).req = s.req := rfl
@[simp] theorem State.onPort_seq (p : Nat) (f : Port → Port) : (s.onPort p f).seq = s.seq := rfl
@[simp] theorem State.onPort_srec (p : Nat) (f : Port → Port) : (s.onPort p f).srec = s.srec := rfl
@[simp] theorem State.onPort_sealing (p : Nat) (f : Port → Port) : (s.onPort p f).sealing = s.sealing := rfl
@[simp] theorem State.onPort_slices (p : Nat) (f : Port → Port) : (s.onPort p f).slices = s.slices := rfl
@[simp] theorem State.onPort_stations (p : Nat) (f : Port → Port) : (s.onPort p f).stations = s.stations := rfl
@[simp] theorem State.onPort_tok (p : Nat) (f : Port → Port) : (s.onPort p f).tok = s.tok := rfl
@[simp] theorem State.onPort_groups (p : Nat) (f : Port → Port) : (s.onPort p f).groups = s.groups := rfl
@[simp] theorem State.onPort_paths (p : Nat) (f : Port → Port) : (s.onPort p f).paths = s.paths := rfl
@[simp] theorem State.onPort_brides (p : Nat) (f : Port → Port) : (s.onPort p f).brides = s.brides := rfl
@[simp] theorem State.onPort_anc (p : Nat) (f : Port → Port) : (s.onPort p f).anc = s.anc := rfl
@[simp] theorem State.onPort_gq (p : Nat) (f : Port → Port) : (s.onPort p f).gq = s.gq := rfl
@[simp] theorem State.onPort_cairn (p : Nat) (f : Port → Port) : (s.onPort p f).cairn = s.cairn := rfl
@[simp] theorem State.onPort_counters (p : Nat) (f : Port → Port) : (s.onPort p f).counters = s.counters := rfl
@[simp] theorem State.onPort_hbm (p : Nat) (f : Port → Port) : (s.onPort p f).hbm = s.hbm := rfl
@[simp] theorem State.onPort_hbmBad (p : Nat) (f : Port → Port) : (s.onPort p f).hbmBad = s.hbmBad := rfl
@[simp] theorem State.onPort_store (p : Nat) (f : Port → Port) : (s.onPort p f).store = s.store := rfl
@[simp] theorem State.onPort_scaleHist (p : Nat) (f : Port → Port) : (s.onPort p f).scaleHist = s.scaleHist := rfl
@[simp] theorem State.onPort_levelHist (p : Nat) (f : Port → Port) : (s.onPort p f).levelHist = s.levelHist := rfl
@[simp] theorem State.onPort_heatHist (p : Nat) (f : Port → Port) : (s.onPort p f).heatHist = s.heatHist := rfl
@[simp] theorem State.onPort_levelRes (p : Nat) (f : Port → Port) : (s.onPort p f).levelRes = s.levelRes := rfl
@[simp] theorem State.onPort_levelMax (p : Nat) (f : Port → Port) : (s.onPort p f).levelMax = s.levelMax := rfl
@[simp] theorem State.onPort_spikes (p : Nat) (f : Port → Port) : (s.onPort p f).spikes = s.spikes := rfl
@[simp] theorem State.onPort_out (p : Nat) (f : Port → Port) : (s.onPort p f).out = s.out := rfl
@[simp] theorem State.onPort_saved (p : Nat) (f : Port → Port) : (s.onPort p f).saved = s.saved := rfl
@[simp] theorem State.onPort_free (p : Nat) (f : Port → Port) : (s.onPort p f).free = s.free := rfl

/-! ### onPath -/

@[simp] theorem State.onPath_pending (n w : Nat) (f : Link → Link) : (s.onPath n w f).pending = s.pending := rfl
@[simp] theorem State.onPath_power (n w : Nat) (f : Link → Link) : (s.onPath n w f).power = s.power := rfl
@[simp] theorem State.onPath_mgmt (n w : Nat) (f : Link → Link) : (s.onPath n w f).mgmt = s.mgmt := rfl
@[simp] theorem State.onPath_regs (n w : Nat) (f : Link → Link) : (s.onPath n w f).regs = s.regs := rfl
@[simp] theorem State.onPath_hiCap (n w : Nat) (f : Link → Link) : (s.onPath n w f).hiCap = s.hiCap := rfl
@[simp] theorem State.onPath_img (n w : Nat) (f : Link → Link) : (s.onPath n w f).img = s.img := rfl
@[simp] theorem State.onPath_belay (n w : Nat) (f : Link → Link) : (s.onPath n w f).belay = s.belay := rfl
@[simp] theorem State.onPath_req (n w : Nat) (f : Link → Link) : (s.onPath n w f).req = s.req := rfl
@[simp] theorem State.onPath_seq (n w : Nat) (f : Link → Link) : (s.onPath n w f).seq = s.seq := rfl
@[simp] theorem State.onPath_srec (n w : Nat) (f : Link → Link) : (s.onPath n w f).srec = s.srec := rfl
@[simp] theorem State.onPath_sealing (n w : Nat) (f : Link → Link) : (s.onPath n w f).sealing = s.sealing := rfl
@[simp] theorem State.onPath_slices (n w : Nat) (f : Link → Link) : (s.onPath n w f).slices = s.slices := rfl
@[simp] theorem State.onPath_stations (n w : Nat) (f : Link → Link) : (s.onPath n w f).stations = s.stations := rfl
@[simp] theorem State.onPath_tok (n w : Nat) (f : Link → Link) : (s.onPath n w f).tok = s.tok := rfl
@[simp] theorem State.onPath_groups (n w : Nat) (f : Link → Link) : (s.onPath n w f).groups = s.groups := rfl
@[simp] theorem State.onPath_ports (n w : Nat) (f : Link → Link) : (s.onPath n w f).ports = s.ports := rfl
@[simp] theorem State.onPath_brides (n w : Nat) (f : Link → Link) : (s.onPath n w f).brides = s.brides := rfl
@[simp] theorem State.onPath_anc (n w : Nat) (f : Link → Link) : (s.onPath n w f).anc = s.anc := rfl
@[simp] theorem State.onPath_gq (n w : Nat) (f : Link → Link) : (s.onPath n w f).gq = s.gq := rfl
@[simp] theorem State.onPath_cairn (n w : Nat) (f : Link → Link) : (s.onPath n w f).cairn = s.cairn := rfl
@[simp] theorem State.onPath_counters (n w : Nat) (f : Link → Link) : (s.onPath n w f).counters = s.counters := rfl
@[simp] theorem State.onPath_hbm (n w : Nat) (f : Link → Link) : (s.onPath n w f).hbm = s.hbm := rfl
@[simp] theorem State.onPath_hbmBad (n w : Nat) (f : Link → Link) : (s.onPath n w f).hbmBad = s.hbmBad := rfl
@[simp] theorem State.onPath_store (n w : Nat) (f : Link → Link) : (s.onPath n w f).store = s.store := rfl
@[simp] theorem State.onPath_scaleHist (n w : Nat) (f : Link → Link) : (s.onPath n w f).scaleHist = s.scaleHist := rfl
@[simp] theorem State.onPath_levelHist (n w : Nat) (f : Link → Link) : (s.onPath n w f).levelHist = s.levelHist := rfl
@[simp] theorem State.onPath_heatHist (n w : Nat) (f : Link → Link) : (s.onPath n w f).heatHist = s.heatHist := rfl
@[simp] theorem State.onPath_levelRes (n w : Nat) (f : Link → Link) : (s.onPath n w f).levelRes = s.levelRes := rfl
@[simp] theorem State.onPath_levelMax (n w : Nat) (f : Link → Link) : (s.onPath n w f).levelMax = s.levelMax := rfl
@[simp] theorem State.onPath_spikes (n w : Nat) (f : Link → Link) : (s.onPath n w f).spikes = s.spikes := rfl
@[simp] theorem State.onPath_out (n w : Nat) (f : Link → Link) : (s.onPath n w f).out = s.out := rfl
@[simp] theorem State.onPath_saved (n w : Nat) (f : Link → Link) : (s.onPath n w f).saved = s.saved := rfl
@[simp] theorem State.onPath_free (n w : Nat) (f : Link → Link) : (s.onPath n w f).free = s.free := rfl

/-! ### onBride -/

@[simp] theorem State.onBride_pending (r : Nat) (f : Bride → Bride) : (s.onBride r f).pending = s.pending := rfl
@[simp] theorem State.onBride_power (r : Nat) (f : Bride → Bride) : (s.onBride r f).power = s.power := rfl
@[simp] theorem State.onBride_mgmt (r : Nat) (f : Bride → Bride) : (s.onBride r f).mgmt = s.mgmt := rfl
@[simp] theorem State.onBride_regs (r : Nat) (f : Bride → Bride) : (s.onBride r f).regs = s.regs := rfl
@[simp] theorem State.onBride_hiCap (r : Nat) (f : Bride → Bride) : (s.onBride r f).hiCap = s.hiCap := rfl
@[simp] theorem State.onBride_img (r : Nat) (f : Bride → Bride) : (s.onBride r f).img = s.img := rfl
@[simp] theorem State.onBride_belay (r : Nat) (f : Bride → Bride) : (s.onBride r f).belay = s.belay := rfl
@[simp] theorem State.onBride_req (r : Nat) (f : Bride → Bride) : (s.onBride r f).req = s.req := rfl
@[simp] theorem State.onBride_seq (r : Nat) (f : Bride → Bride) : (s.onBride r f).seq = s.seq := rfl
@[simp] theorem State.onBride_srec (r : Nat) (f : Bride → Bride) : (s.onBride r f).srec = s.srec := rfl
@[simp] theorem State.onBride_sealing (r : Nat) (f : Bride → Bride) : (s.onBride r f).sealing = s.sealing := rfl
@[simp] theorem State.onBride_slices (r : Nat) (f : Bride → Bride) : (s.onBride r f).slices = s.slices := rfl
@[simp] theorem State.onBride_stations (r : Nat) (f : Bride → Bride) : (s.onBride r f).stations = s.stations := rfl
@[simp] theorem State.onBride_tok (r : Nat) (f : Bride → Bride) : (s.onBride r f).tok = s.tok := rfl
@[simp] theorem State.onBride_groups (r : Nat) (f : Bride → Bride) : (s.onBride r f).groups = s.groups := rfl
@[simp] theorem State.onBride_ports (r : Nat) (f : Bride → Bride) : (s.onBride r f).ports = s.ports := rfl
@[simp] theorem State.onBride_paths (r : Nat) (f : Bride → Bride) : (s.onBride r f).paths = s.paths := rfl
@[simp] theorem State.onBride_anc (r : Nat) (f : Bride → Bride) : (s.onBride r f).anc = s.anc := rfl
@[simp] theorem State.onBride_gq (r : Nat) (f : Bride → Bride) : (s.onBride r f).gq = s.gq := rfl
@[simp] theorem State.onBride_cairn (r : Nat) (f : Bride → Bride) : (s.onBride r f).cairn = s.cairn := rfl
@[simp] theorem State.onBride_counters (r : Nat) (f : Bride → Bride) : (s.onBride r f).counters = s.counters := rfl
@[simp] theorem State.onBride_hbm (r : Nat) (f : Bride → Bride) : (s.onBride r f).hbm = s.hbm := rfl
@[simp] theorem State.onBride_hbmBad (r : Nat) (f : Bride → Bride) : (s.onBride r f).hbmBad = s.hbmBad := rfl
@[simp] theorem State.onBride_store (r : Nat) (f : Bride → Bride) : (s.onBride r f).store = s.store := rfl
@[simp] theorem State.onBride_scaleHist (r : Nat) (f : Bride → Bride) : (s.onBride r f).scaleHist = s.scaleHist := rfl
@[simp] theorem State.onBride_levelHist (r : Nat) (f : Bride → Bride) : (s.onBride r f).levelHist = s.levelHist := rfl
@[simp] theorem State.onBride_heatHist (r : Nat) (f : Bride → Bride) : (s.onBride r f).heatHist = s.heatHist := rfl
@[simp] theorem State.onBride_levelRes (r : Nat) (f : Bride → Bride) : (s.onBride r f).levelRes = s.levelRes := rfl
@[simp] theorem State.onBride_levelMax (r : Nat) (f : Bride → Bride) : (s.onBride r f).levelMax = s.levelMax := rfl
@[simp] theorem State.onBride_spikes (r : Nat) (f : Bride → Bride) : (s.onBride r f).spikes = s.spikes := rfl
@[simp] theorem State.onBride_out (r : Nat) (f : Bride → Bride) : (s.onBride r f).out = s.out := rfl
@[simp] theorem State.onBride_saved (r : Nat) (f : Bride → Bride) : (s.onBride r f).saved = s.saved := rfl
@[simp] theorem State.onBride_free (r : Nat) (f : Bride → Bride) : (s.onBride r f).free = s.free := rfl

/-! ### onStation -/

@[simp] theorem State.onStation_pending (k : Nat) (f : Station → Station) : (s.onStation k f).pending = s.pending := rfl
@[simp] theorem State.onStation_power (k : Nat) (f : Station → Station) : (s.onStation k f).power = s.power := rfl
@[simp] theorem State.onStation_mgmt (k : Nat) (f : Station → Station) : (s.onStation k f).mgmt = s.mgmt := rfl
@[simp] theorem State.onStation_regs (k : Nat) (f : Station → Station) : (s.onStation k f).regs = s.regs := rfl
@[simp] theorem State.onStation_hiCap (k : Nat) (f : Station → Station) : (s.onStation k f).hiCap = s.hiCap := rfl
@[simp] theorem State.onStation_img (k : Nat) (f : Station → Station) : (s.onStation k f).img = s.img := rfl
@[simp] theorem State.onStation_belay (k : Nat) (f : Station → Station) : (s.onStation k f).belay = s.belay := rfl
@[simp] theorem State.onStation_req (k : Nat) (f : Station → Station) : (s.onStation k f).req = s.req := rfl
@[simp] theorem State.onStation_seq (k : Nat) (f : Station → Station) : (s.onStation k f).seq = s.seq := rfl
@[simp] theorem State.onStation_srec (k : Nat) (f : Station → Station) : (s.onStation k f).srec = s.srec := rfl
@[simp] theorem State.onStation_sealing (k : Nat) (f : Station → Station) : (s.onStation k f).sealing = s.sealing := rfl
@[simp] theorem State.onStation_slices (k : Nat) (f : Station → Station) : (s.onStation k f).slices = s.slices := rfl
@[simp] theorem State.onStation_tok (k : Nat) (f : Station → Station) : (s.onStation k f).tok = s.tok := rfl
@[simp] theorem State.onStation_groups (k : Nat) (f : Station → Station) : (s.onStation k f).groups = s.groups := rfl
@[simp] theorem State.onStation_ports (k : Nat) (f : Station → Station) : (s.onStation k f).ports = s.ports := rfl
@[simp] theorem State.onStation_paths (k : Nat) (f : Station → Station) : (s.onStation k f).paths = s.paths := rfl
@[simp] theorem State.onStation_brides (k : Nat) (f : Station → Station) : (s.onStation k f).brides = s.brides := rfl
@[simp] theorem State.onStation_anc (k : Nat) (f : Station → Station) : (s.onStation k f).anc = s.anc := rfl
@[simp] theorem State.onStation_gq (k : Nat) (f : Station → Station) : (s.onStation k f).gq = s.gq := rfl
@[simp] theorem State.onStation_cairn (k : Nat) (f : Station → Station) : (s.onStation k f).cairn = s.cairn := rfl
@[simp] theorem State.onStation_counters (k : Nat) (f : Station → Station) : (s.onStation k f).counters = s.counters := rfl
@[simp] theorem State.onStation_hbm (k : Nat) (f : Station → Station) : (s.onStation k f).hbm = s.hbm := rfl
@[simp] theorem State.onStation_hbmBad (k : Nat) (f : Station → Station) : (s.onStation k f).hbmBad = s.hbmBad := rfl
@[simp] theorem State.onStation_store (k : Nat) (f : Station → Station) : (s.onStation k f).store = s.store := rfl
@[simp] theorem State.onStation_scaleHist (k : Nat) (f : Station → Station) : (s.onStation k f).scaleHist = s.scaleHist := rfl
@[simp] theorem State.onStation_levelHist (k : Nat) (f : Station → Station) : (s.onStation k f).levelHist = s.levelHist := rfl
@[simp] theorem State.onStation_heatHist (k : Nat) (f : Station → Station) : (s.onStation k f).heatHist = s.heatHist := rfl
@[simp] theorem State.onStation_levelRes (k : Nat) (f : Station → Station) : (s.onStation k f).levelRes = s.levelRes := rfl
@[simp] theorem State.onStation_levelMax (k : Nat) (f : Station → Station) : (s.onStation k f).levelMax = s.levelMax := rfl
@[simp] theorem State.onStation_spikes (k : Nat) (f : Station → Station) : (s.onStation k f).spikes = s.spikes := rfl
@[simp] theorem State.onStation_out (k : Nat) (f : Station → Station) : (s.onStation k f).out = s.out := rfl
@[simp] theorem State.onStation_saved (k : Nat) (f : Station → Station) : (s.onStation k f).saved = s.saved := rfl
@[simp] theorem State.onStation_free (k : Nat) (f : Station → Station) : (s.onStation k f).free = s.free := rfl

/-! ### onGroup -/

@[simp] theorem State.onGroup_pending (g : Nat) (f : GroupQ → GroupQ) : (s.onGroup g f).pending = s.pending := rfl
@[simp] theorem State.onGroup_power (g : Nat) (f : GroupQ → GroupQ) : (s.onGroup g f).power = s.power := rfl
@[simp] theorem State.onGroup_mgmt (g : Nat) (f : GroupQ → GroupQ) : (s.onGroup g f).mgmt = s.mgmt := rfl
@[simp] theorem State.onGroup_regs (g : Nat) (f : GroupQ → GroupQ) : (s.onGroup g f).regs = s.regs := rfl
@[simp] theorem State.onGroup_hiCap (g : Nat) (f : GroupQ → GroupQ) : (s.onGroup g f).hiCap = s.hiCap := rfl
@[simp] theorem State.onGroup_img (g : Nat) (f : GroupQ → GroupQ) : (s.onGroup g f).img = s.img := rfl
@[simp] theorem State.onGroup_belay (g : Nat) (f : GroupQ → GroupQ) : (s.onGroup g f).belay = s.belay := rfl
@[simp] theorem State.onGroup_req (g : Nat) (f : GroupQ → GroupQ) : (s.onGroup g f).req = s.req := rfl
@[simp] theorem State.onGroup_seq (g : Nat) (f : GroupQ → GroupQ) : (s.onGroup g f).seq = s.seq := rfl
@[simp] theorem State.onGroup_srec (g : Nat) (f : GroupQ → GroupQ) : (s.onGroup g f).srec = s.srec := rfl
@[simp] theorem State.onGroup_sealing (g : Nat) (f : GroupQ → GroupQ) : (s.onGroup g f).sealing = s.sealing := rfl
@[simp] theorem State.onGroup_slices (g : Nat) (f : GroupQ → GroupQ) : (s.onGroup g f).slices = s.slices := rfl
@[simp] theorem State.onGroup_stations (g : Nat) (f : GroupQ → GroupQ) : (s.onGroup g f).stations = s.stations := rfl
@[simp] theorem State.onGroup_tok (g : Nat) (f : GroupQ → GroupQ) : (s.onGroup g f).tok = s.tok := rfl
@[simp] theorem State.onGroup_ports (g : Nat) (f : GroupQ → GroupQ) : (s.onGroup g f).ports = s.ports := rfl
@[simp] theorem State.onGroup_paths (g : Nat) (f : GroupQ → GroupQ) : (s.onGroup g f).paths = s.paths := rfl
@[simp] theorem State.onGroup_brides (g : Nat) (f : GroupQ → GroupQ) : (s.onGroup g f).brides = s.brides := rfl
@[simp] theorem State.onGroup_anc (g : Nat) (f : GroupQ → GroupQ) : (s.onGroup g f).anc = s.anc := rfl
@[simp] theorem State.onGroup_gq (g : Nat) (f : GroupQ → GroupQ) : (s.onGroup g f).gq = s.gq := rfl
@[simp] theorem State.onGroup_cairn (g : Nat) (f : GroupQ → GroupQ) : (s.onGroup g f).cairn = s.cairn := rfl
@[simp] theorem State.onGroup_counters (g : Nat) (f : GroupQ → GroupQ) : (s.onGroup g f).counters = s.counters := rfl
@[simp] theorem State.onGroup_hbm (g : Nat) (f : GroupQ → GroupQ) : (s.onGroup g f).hbm = s.hbm := rfl
@[simp] theorem State.onGroup_hbmBad (g : Nat) (f : GroupQ → GroupQ) : (s.onGroup g f).hbmBad = s.hbmBad := rfl
@[simp] theorem State.onGroup_store (g : Nat) (f : GroupQ → GroupQ) : (s.onGroup g f).store = s.store := rfl
@[simp] theorem State.onGroup_scaleHist (g : Nat) (f : GroupQ → GroupQ) : (s.onGroup g f).scaleHist = s.scaleHist := rfl
@[simp] theorem State.onGroup_levelHist (g : Nat) (f : GroupQ → GroupQ) : (s.onGroup g f).levelHist = s.levelHist := rfl
@[simp] theorem State.onGroup_heatHist (g : Nat) (f : GroupQ → GroupQ) : (s.onGroup g f).heatHist = s.heatHist := rfl
@[simp] theorem State.onGroup_levelRes (g : Nat) (f : GroupQ → GroupQ) : (s.onGroup g f).levelRes = s.levelRes := rfl
@[simp] theorem State.onGroup_levelMax (g : Nat) (f : GroupQ → GroupQ) : (s.onGroup g f).levelMax = s.levelMax := rfl
@[simp] theorem State.onGroup_spikes (g : Nat) (f : GroupQ → GroupQ) : (s.onGroup g f).spikes = s.spikes := rfl
@[simp] theorem State.onGroup_out (g : Nat) (f : GroupQ → GroupQ) : (s.onGroup g f).out = s.out := rfl
@[simp] theorem State.onGroup_saved (g : Nat) (f : GroupQ → GroupQ) : (s.onGroup g f).saved = s.saved := rfl
@[simp] theorem State.onGroup_free (g : Nat) (f : GroupQ → GroupQ) : (s.onGroup g f).free = s.free := rfl

/-! ### onGround -/

@[simp] theorem State.onGround_pending (q : Nat) (f : GroundQ → GroundQ) : (s.onGround q f).pending = s.pending := rfl
@[simp] theorem State.onGround_power (q : Nat) (f : GroundQ → GroundQ) : (s.onGround q f).power = s.power := rfl
@[simp] theorem State.onGround_mgmt (q : Nat) (f : GroundQ → GroundQ) : (s.onGround q f).mgmt = s.mgmt := rfl
@[simp] theorem State.onGround_regs (q : Nat) (f : GroundQ → GroundQ) : (s.onGround q f).regs = s.regs := rfl
@[simp] theorem State.onGround_hiCap (q : Nat) (f : GroundQ → GroundQ) : (s.onGround q f).hiCap = s.hiCap := rfl
@[simp] theorem State.onGround_img (q : Nat) (f : GroundQ → GroundQ) : (s.onGround q f).img = s.img := rfl
@[simp] theorem State.onGround_belay (q : Nat) (f : GroundQ → GroundQ) : (s.onGround q f).belay = s.belay := rfl
@[simp] theorem State.onGround_req (q : Nat) (f : GroundQ → GroundQ) : (s.onGround q f).req = s.req := rfl
@[simp] theorem State.onGround_seq (q : Nat) (f : GroundQ → GroundQ) : (s.onGround q f).seq = s.seq := rfl
@[simp] theorem State.onGround_srec (q : Nat) (f : GroundQ → GroundQ) : (s.onGround q f).srec = s.srec := rfl
@[simp] theorem State.onGround_sealing (q : Nat) (f : GroundQ → GroundQ) : (s.onGround q f).sealing = s.sealing := rfl
@[simp] theorem State.onGround_slices (q : Nat) (f : GroundQ → GroundQ) : (s.onGround q f).slices = s.slices := rfl
@[simp] theorem State.onGround_stations (q : Nat) (f : GroundQ → GroundQ) : (s.onGround q f).stations = s.stations := rfl
@[simp] theorem State.onGround_tok (q : Nat) (f : GroundQ → GroundQ) : (s.onGround q f).tok = s.tok := rfl
@[simp] theorem State.onGround_groups (q : Nat) (f : GroundQ → GroundQ) : (s.onGround q f).groups = s.groups := rfl
@[simp] theorem State.onGround_ports (q : Nat) (f : GroundQ → GroundQ) : (s.onGround q f).ports = s.ports := rfl
@[simp] theorem State.onGround_paths (q : Nat) (f : GroundQ → GroundQ) : (s.onGround q f).paths = s.paths := rfl
@[simp] theorem State.onGround_brides (q : Nat) (f : GroundQ → GroundQ) : (s.onGround q f).brides = s.brides := rfl
@[simp] theorem State.onGround_anc (q : Nat) (f : GroundQ → GroundQ) : (s.onGround q f).anc = s.anc := rfl
@[simp] theorem State.onGround_cairn (q : Nat) (f : GroundQ → GroundQ) : (s.onGround q f).cairn = s.cairn := rfl
@[simp] theorem State.onGround_counters (q : Nat) (f : GroundQ → GroundQ) : (s.onGround q f).counters = s.counters := rfl
@[simp] theorem State.onGround_hbm (q : Nat) (f : GroundQ → GroundQ) : (s.onGround q f).hbm = s.hbm := rfl
@[simp] theorem State.onGround_hbmBad (q : Nat) (f : GroundQ → GroundQ) : (s.onGround q f).hbmBad = s.hbmBad := rfl
@[simp] theorem State.onGround_store (q : Nat) (f : GroundQ → GroundQ) : (s.onGround q f).store = s.store := rfl
@[simp] theorem State.onGround_scaleHist (q : Nat) (f : GroundQ → GroundQ) : (s.onGround q f).scaleHist = s.scaleHist := rfl
@[simp] theorem State.onGround_levelHist (q : Nat) (f : GroundQ → GroundQ) : (s.onGround q f).levelHist = s.levelHist := rfl
@[simp] theorem State.onGround_heatHist (q : Nat) (f : GroundQ → GroundQ) : (s.onGround q f).heatHist = s.heatHist := rfl
@[simp] theorem State.onGround_levelRes (q : Nat) (f : GroundQ → GroundQ) : (s.onGround q f).levelRes = s.levelRes := rfl
@[simp] theorem State.onGround_levelMax (q : Nat) (f : GroundQ → GroundQ) : (s.onGround q f).levelMax = s.levelMax := rfl
@[simp] theorem State.onGround_spikes (q : Nat) (f : GroundQ → GroundQ) : (s.onGround q f).spikes = s.spikes := rfl
@[simp] theorem State.onGround_out (q : Nat) (f : GroundQ → GroundQ) : (s.onGround q f).out = s.out := rfl
@[simp] theorem State.onGround_saved (q : Nat) (f : GroundQ → GroundQ) : (s.onGround q f).saved = s.saved := rfl
@[simp] theorem State.onGround_free (q : Nat) (f : GroundQ → GroundQ) : (s.onGround q f).free = s.free := rfl

/-! ### onAnchor -/

@[simp] theorem State.onAnchor_pending (i : Nat) (f : Anchor → Anchor) : (s.onAnchor i f).pending = s.pending := rfl
@[simp] theorem State.onAnchor_power (i : Nat) (f : Anchor → Anchor) : (s.onAnchor i f).power = s.power := rfl
@[simp] theorem State.onAnchor_mgmt (i : Nat) (f : Anchor → Anchor) : (s.onAnchor i f).mgmt = s.mgmt := rfl
@[simp] theorem State.onAnchor_regs (i : Nat) (f : Anchor → Anchor) : (s.onAnchor i f).regs = s.regs := rfl
@[simp] theorem State.onAnchor_hiCap (i : Nat) (f : Anchor → Anchor) : (s.onAnchor i f).hiCap = s.hiCap := rfl
@[simp] theorem State.onAnchor_img (i : Nat) (f : Anchor → Anchor) : (s.onAnchor i f).img = s.img := rfl
@[simp] theorem State.onAnchor_belay (i : Nat) (f : Anchor → Anchor) : (s.onAnchor i f).belay = s.belay := rfl
@[simp] theorem State.onAnchor_req (i : Nat) (f : Anchor → Anchor) : (s.onAnchor i f).req = s.req := rfl
@[simp] theorem State.onAnchor_seq (i : Nat) (f : Anchor → Anchor) : (s.onAnchor i f).seq = s.seq := rfl
@[simp] theorem State.onAnchor_srec (i : Nat) (f : Anchor → Anchor) : (s.onAnchor i f).srec = s.srec := rfl
@[simp] theorem State.onAnchor_sealing (i : Nat) (f : Anchor → Anchor) : (s.onAnchor i f).sealing = s.sealing := rfl
@[simp] theorem State.onAnchor_slices (i : Nat) (f : Anchor → Anchor) : (s.onAnchor i f).slices = s.slices := rfl
@[simp] theorem State.onAnchor_stations (i : Nat) (f : Anchor → Anchor) : (s.onAnchor i f).stations = s.stations := rfl
@[simp] theorem State.onAnchor_tok (i : Nat) (f : Anchor → Anchor) : (s.onAnchor i f).tok = s.tok := rfl
@[simp] theorem State.onAnchor_groups (i : Nat) (f : Anchor → Anchor) : (s.onAnchor i f).groups = s.groups := rfl
@[simp] theorem State.onAnchor_ports (i : Nat) (f : Anchor → Anchor) : (s.onAnchor i f).ports = s.ports := rfl
@[simp] theorem State.onAnchor_paths (i : Nat) (f : Anchor → Anchor) : (s.onAnchor i f).paths = s.paths := rfl
@[simp] theorem State.onAnchor_brides (i : Nat) (f : Anchor → Anchor) : (s.onAnchor i f).brides = s.brides := rfl
@[simp] theorem State.onAnchor_gq (i : Nat) (f : Anchor → Anchor) : (s.onAnchor i f).gq = s.gq := rfl
@[simp] theorem State.onAnchor_cairn (i : Nat) (f : Anchor → Anchor) : (s.onAnchor i f).cairn = s.cairn := rfl
@[simp] theorem State.onAnchor_counters (i : Nat) (f : Anchor → Anchor) : (s.onAnchor i f).counters = s.counters := rfl
@[simp] theorem State.onAnchor_hbm (i : Nat) (f : Anchor → Anchor) : (s.onAnchor i f).hbm = s.hbm := rfl
@[simp] theorem State.onAnchor_hbmBad (i : Nat) (f : Anchor → Anchor) : (s.onAnchor i f).hbmBad = s.hbmBad := rfl
@[simp] theorem State.onAnchor_store (i : Nat) (f : Anchor → Anchor) : (s.onAnchor i f).store = s.store := rfl
@[simp] theorem State.onAnchor_scaleHist (i : Nat) (f : Anchor → Anchor) : (s.onAnchor i f).scaleHist = s.scaleHist := rfl
@[simp] theorem State.onAnchor_levelHist (i : Nat) (f : Anchor → Anchor) : (s.onAnchor i f).levelHist = s.levelHist := rfl
@[simp] theorem State.onAnchor_heatHist (i : Nat) (f : Anchor → Anchor) : (s.onAnchor i f).heatHist = s.heatHist := rfl
@[simp] theorem State.onAnchor_levelRes (i : Nat) (f : Anchor → Anchor) : (s.onAnchor i f).levelRes = s.levelRes := rfl
@[simp] theorem State.onAnchor_levelMax (i : Nat) (f : Anchor → Anchor) : (s.onAnchor i f).levelMax = s.levelMax := rfl
@[simp] theorem State.onAnchor_spikes (i : Nat) (f : Anchor → Anchor) : (s.onAnchor i f).spikes = s.spikes := rfl
@[simp] theorem State.onAnchor_out (i : Nat) (f : Anchor → Anchor) : (s.onAnchor i f).out = s.out := rfl
@[simp] theorem State.onAnchor_saved (i : Nat) (f : Anchor → Anchor) : (s.onAnchor i f).saved = s.saved := rfl
@[simp] theorem State.onAnchor_free (i : Nat) (f : Anchor → Anchor) : (s.onAnchor i f).free = s.free := rfl

/-! ### onRec -/

@[simp] theorem State.onRec_pending (f : StepRec → StepRec) : (s.onRec f).pending = s.pending := rfl
@[simp] theorem State.onRec_power (f : StepRec → StepRec) : (s.onRec f).power = s.power := rfl
@[simp] theorem State.onRec_mgmt (f : StepRec → StepRec) : (s.onRec f).mgmt = s.mgmt := rfl
@[simp] theorem State.onRec_regs (f : StepRec → StepRec) : (s.onRec f).regs = s.regs := rfl
@[simp] theorem State.onRec_hiCap (f : StepRec → StepRec) : (s.onRec f).hiCap = s.hiCap := rfl
@[simp] theorem State.onRec_img (f : StepRec → StepRec) : (s.onRec f).img = s.img := rfl
@[simp] theorem State.onRec_belay (f : StepRec → StepRec) : (s.onRec f).belay = s.belay := rfl
@[simp] theorem State.onRec_req (f : StepRec → StepRec) : (s.onRec f).req = s.req := rfl
@[simp] theorem State.onRec_seq (f : StepRec → StepRec) : (s.onRec f).seq = s.seq := rfl
@[simp] theorem State.onRec_sealing (f : StepRec → StepRec) : (s.onRec f).sealing = s.sealing := rfl
@[simp] theorem State.onRec_slices (f : StepRec → StepRec) : (s.onRec f).slices = s.slices := rfl
@[simp] theorem State.onRec_stations (f : StepRec → StepRec) : (s.onRec f).stations = s.stations := rfl
@[simp] theorem State.onRec_tok (f : StepRec → StepRec) : (s.onRec f).tok = s.tok := rfl
@[simp] theorem State.onRec_groups (f : StepRec → StepRec) : (s.onRec f).groups = s.groups := rfl
@[simp] theorem State.onRec_ports (f : StepRec → StepRec) : (s.onRec f).ports = s.ports := rfl
@[simp] theorem State.onRec_paths (f : StepRec → StepRec) : (s.onRec f).paths = s.paths := rfl
@[simp] theorem State.onRec_brides (f : StepRec → StepRec) : (s.onRec f).brides = s.brides := rfl
@[simp] theorem State.onRec_anc (f : StepRec → StepRec) : (s.onRec f).anc = s.anc := rfl
@[simp] theorem State.onRec_gq (f : StepRec → StepRec) : (s.onRec f).gq = s.gq := rfl
@[simp] theorem State.onRec_cairn (f : StepRec → StepRec) : (s.onRec f).cairn = s.cairn := rfl
@[simp] theorem State.onRec_counters (f : StepRec → StepRec) : (s.onRec f).counters = s.counters := rfl
@[simp] theorem State.onRec_hbm (f : StepRec → StepRec) : (s.onRec f).hbm = s.hbm := rfl
@[simp] theorem State.onRec_hbmBad (f : StepRec → StepRec) : (s.onRec f).hbmBad = s.hbmBad := rfl
@[simp] theorem State.onRec_store (f : StepRec → StepRec) : (s.onRec f).store = s.store := rfl
@[simp] theorem State.onRec_scaleHist (f : StepRec → StepRec) : (s.onRec f).scaleHist = s.scaleHist := rfl
@[simp] theorem State.onRec_levelHist (f : StepRec → StepRec) : (s.onRec f).levelHist = s.levelHist := rfl
@[simp] theorem State.onRec_heatHist (f : StepRec → StepRec) : (s.onRec f).heatHist = s.heatHist := rfl
@[simp] theorem State.onRec_levelRes (f : StepRec → StepRec) : (s.onRec f).levelRes = s.levelRes := rfl
@[simp] theorem State.onRec_levelMax (f : StepRec → StepRec) : (s.onRec f).levelMax = s.levelMax := rfl
@[simp] theorem State.onRec_spikes (f : StepRec → StepRec) : (s.onRec f).spikes = s.spikes := rfl
@[simp] theorem State.onRec_out (f : StepRec → StepRec) : (s.onRec f).out = s.out := rfl
@[simp] theorem State.onRec_saved (f : StepRec → StepRec) : (s.onRec f).saved = s.saved := rfl
@[simp] theorem State.onRec_free (f : StepRec → StepRec) : (s.onRec f).free = s.free := rfl

/-! ### setReg -/

@[simp] theorem State.setReg_pending (off v : Nat) : (s.setReg off v).pending = s.pending := rfl
@[simp] theorem State.setReg_power (off v : Nat) : (s.setReg off v).power = s.power := rfl
@[simp] theorem State.setReg_mgmt (off v : Nat) : (s.setReg off v).mgmt = s.mgmt := rfl
@[simp] theorem State.setReg_hiCap (off v : Nat) : (s.setReg off v).hiCap = s.hiCap := rfl
@[simp] theorem State.setReg_img (off v : Nat) : (s.setReg off v).img = s.img := rfl
@[simp] theorem State.setReg_belay (off v : Nat) : (s.setReg off v).belay = s.belay := rfl
@[simp] theorem State.setReg_req (off v : Nat) : (s.setReg off v).req = s.req := rfl
@[simp] theorem State.setReg_seq (off v : Nat) : (s.setReg off v).seq = s.seq := rfl
@[simp] theorem State.setReg_srec (off v : Nat) : (s.setReg off v).srec = s.srec := rfl
@[simp] theorem State.setReg_sealing (off v : Nat) : (s.setReg off v).sealing = s.sealing := rfl
@[simp] theorem State.setReg_slices (off v : Nat) : (s.setReg off v).slices = s.slices := rfl
@[simp] theorem State.setReg_stations (off v : Nat) : (s.setReg off v).stations = s.stations := rfl
@[simp] theorem State.setReg_tok (off v : Nat) : (s.setReg off v).tok = s.tok := rfl
@[simp] theorem State.setReg_groups (off v : Nat) : (s.setReg off v).groups = s.groups := rfl
@[simp] theorem State.setReg_ports (off v : Nat) : (s.setReg off v).ports = s.ports := rfl
@[simp] theorem State.setReg_paths (off v : Nat) : (s.setReg off v).paths = s.paths := rfl
@[simp] theorem State.setReg_brides (off v : Nat) : (s.setReg off v).brides = s.brides := rfl
@[simp] theorem State.setReg_anc (off v : Nat) : (s.setReg off v).anc = s.anc := rfl
@[simp] theorem State.setReg_gq (off v : Nat) : (s.setReg off v).gq = s.gq := rfl
@[simp] theorem State.setReg_cairn (off v : Nat) : (s.setReg off v).cairn = s.cairn := rfl
@[simp] theorem State.setReg_counters (off v : Nat) : (s.setReg off v).counters = s.counters := rfl
@[simp] theorem State.setReg_hbm (off v : Nat) : (s.setReg off v).hbm = s.hbm := rfl
@[simp] theorem State.setReg_hbmBad (off v : Nat) : (s.setReg off v).hbmBad = s.hbmBad := rfl
@[simp] theorem State.setReg_store (off v : Nat) : (s.setReg off v).store = s.store := rfl
@[simp] theorem State.setReg_scaleHist (off v : Nat) : (s.setReg off v).scaleHist = s.scaleHist := rfl
@[simp] theorem State.setReg_levelHist (off v : Nat) : (s.setReg off v).levelHist = s.levelHist := rfl
@[simp] theorem State.setReg_heatHist (off v : Nat) : (s.setReg off v).heatHist = s.heatHist := rfl
@[simp] theorem State.setReg_levelRes (off v : Nat) : (s.setReg off v).levelRes = s.levelRes := rfl
@[simp] theorem State.setReg_levelMax (off v : Nat) : (s.setReg off v).levelMax = s.levelMax := rfl
@[simp] theorem State.setReg_spikes (off v : Nat) : (s.setReg off v).spikes = s.spikes := rfl
@[simp] theorem State.setReg_out (off v : Nat) : (s.setReg off v).out = s.out := rfl
@[simp] theorem State.setReg_saved (off v : Nat) : (s.setReg off v).saved = s.saved := rfl
@[simp] theorem State.setReg_free (off v : Nat) : (s.setReg off v).free = s.free := rfl

/-! ### hbmWrite -/

@[simp] theorem State.hbmWrite_pending (a : Nat) (bs : List Byte) : (s.hbmWrite a bs).pending = s.pending := rfl
@[simp] theorem State.hbmWrite_power (a : Nat) (bs : List Byte) : (s.hbmWrite a bs).power = s.power := rfl
@[simp] theorem State.hbmWrite_mgmt (a : Nat) (bs : List Byte) : (s.hbmWrite a bs).mgmt = s.mgmt := rfl
@[simp] theorem State.hbmWrite_regs (a : Nat) (bs : List Byte) : (s.hbmWrite a bs).regs = s.regs := rfl
@[simp] theorem State.hbmWrite_hiCap (a : Nat) (bs : List Byte) : (s.hbmWrite a bs).hiCap = s.hiCap := rfl
@[simp] theorem State.hbmWrite_img (a : Nat) (bs : List Byte) : (s.hbmWrite a bs).img = s.img := rfl
@[simp] theorem State.hbmWrite_belay (a : Nat) (bs : List Byte) : (s.hbmWrite a bs).belay = s.belay := rfl
@[simp] theorem State.hbmWrite_req (a : Nat) (bs : List Byte) : (s.hbmWrite a bs).req = s.req := rfl
@[simp] theorem State.hbmWrite_seq (a : Nat) (bs : List Byte) : (s.hbmWrite a bs).seq = s.seq := rfl
@[simp] theorem State.hbmWrite_srec (a : Nat) (bs : List Byte) : (s.hbmWrite a bs).srec = s.srec := rfl
@[simp] theorem State.hbmWrite_sealing (a : Nat) (bs : List Byte) : (s.hbmWrite a bs).sealing = s.sealing := rfl
@[simp] theorem State.hbmWrite_slices (a : Nat) (bs : List Byte) : (s.hbmWrite a bs).slices = s.slices := rfl
@[simp] theorem State.hbmWrite_stations (a : Nat) (bs : List Byte) : (s.hbmWrite a bs).stations = s.stations := rfl
@[simp] theorem State.hbmWrite_tok (a : Nat) (bs : List Byte) : (s.hbmWrite a bs).tok = s.tok := rfl
@[simp] theorem State.hbmWrite_groups (a : Nat) (bs : List Byte) : (s.hbmWrite a bs).groups = s.groups := rfl
@[simp] theorem State.hbmWrite_ports (a : Nat) (bs : List Byte) : (s.hbmWrite a bs).ports = s.ports := rfl
@[simp] theorem State.hbmWrite_paths (a : Nat) (bs : List Byte) : (s.hbmWrite a bs).paths = s.paths := rfl
@[simp] theorem State.hbmWrite_brides (a : Nat) (bs : List Byte) : (s.hbmWrite a bs).brides = s.brides := rfl
@[simp] theorem State.hbmWrite_anc (a : Nat) (bs : List Byte) : (s.hbmWrite a bs).anc = s.anc := rfl
@[simp] theorem State.hbmWrite_gq (a : Nat) (bs : List Byte) : (s.hbmWrite a bs).gq = s.gq := rfl
@[simp] theorem State.hbmWrite_cairn (a : Nat) (bs : List Byte) : (s.hbmWrite a bs).cairn = s.cairn := rfl
@[simp] theorem State.hbmWrite_counters (a : Nat) (bs : List Byte) : (s.hbmWrite a bs).counters = s.counters := rfl
@[simp] theorem State.hbmWrite_store (a : Nat) (bs : List Byte) : (s.hbmWrite a bs).store = s.store := rfl
@[simp] theorem State.hbmWrite_scaleHist (a : Nat) (bs : List Byte) : (s.hbmWrite a bs).scaleHist = s.scaleHist := rfl
@[simp] theorem State.hbmWrite_levelHist (a : Nat) (bs : List Byte) : (s.hbmWrite a bs).levelHist = s.levelHist := rfl
@[simp] theorem State.hbmWrite_heatHist (a : Nat) (bs : List Byte) : (s.hbmWrite a bs).heatHist = s.heatHist := rfl
@[simp] theorem State.hbmWrite_levelRes (a : Nat) (bs : List Byte) : (s.hbmWrite a bs).levelRes = s.levelRes := rfl
@[simp] theorem State.hbmWrite_levelMax (a : Nat) (bs : List Byte) : (s.hbmWrite a bs).levelMax = s.levelMax := rfl
@[simp] theorem State.hbmWrite_spikes (a : Nat) (bs : List Byte) : (s.hbmWrite a bs).spikes = s.spikes := rfl
@[simp] theorem State.hbmWrite_out (a : Nat) (bs : List Byte) : (s.hbmWrite a bs).out = s.out := rfl
@[simp] theorem State.hbmWrite_saved (a : Nat) (bs : List Byte) : (s.hbmWrite a bs).saved = s.saved := rfl
@[simp] theorem State.hbmWrite_free (a : Nat) (bs : List Byte) : (s.hbmWrite a bs).free = s.free := rfl

/-! ### msi -/

@[simp] theorem State.msi_pending (n : Nat) : (s.msi n).pending = s.pending := rfl
@[simp] theorem State.msi_power (n : Nat) : (s.msi n).power = s.power := rfl
@[simp] theorem State.msi_mgmt (n : Nat) : (s.msi n).mgmt = s.mgmt := rfl
@[simp] theorem State.msi_regs (n : Nat) : (s.msi n).regs = s.regs := rfl
@[simp] theorem State.msi_hiCap (n : Nat) : (s.msi n).hiCap = s.hiCap := rfl
@[simp] theorem State.msi_img (n : Nat) : (s.msi n).img = s.img := rfl
@[simp] theorem State.msi_belay (n : Nat) : (s.msi n).belay = s.belay := rfl
@[simp] theorem State.msi_req (n : Nat) : (s.msi n).req = s.req := rfl
@[simp] theorem State.msi_seq (n : Nat) : (s.msi n).seq = s.seq := rfl
@[simp] theorem State.msi_srec (n : Nat) : (s.msi n).srec = s.srec := rfl
@[simp] theorem State.msi_sealing (n : Nat) : (s.msi n).sealing = s.sealing := rfl
@[simp] theorem State.msi_slices (n : Nat) : (s.msi n).slices = s.slices := rfl
@[simp] theorem State.msi_stations (n : Nat) : (s.msi n).stations = s.stations := rfl
@[simp] theorem State.msi_tok (n : Nat) : (s.msi n).tok = s.tok := rfl
@[simp] theorem State.msi_groups (n : Nat) : (s.msi n).groups = s.groups := rfl
@[simp] theorem State.msi_ports (n : Nat) : (s.msi n).ports = s.ports := rfl
@[simp] theorem State.msi_paths (n : Nat) : (s.msi n).paths = s.paths := rfl
@[simp] theorem State.msi_brides (n : Nat) : (s.msi n).brides = s.brides := rfl
@[simp] theorem State.msi_anc (n : Nat) : (s.msi n).anc = s.anc := rfl
@[simp] theorem State.msi_gq (n : Nat) : (s.msi n).gq = s.gq := rfl
@[simp] theorem State.msi_cairn (n : Nat) : (s.msi n).cairn = s.cairn := rfl
@[simp] theorem State.msi_counters (n : Nat) : (s.msi n).counters = s.counters := rfl
@[simp] theorem State.msi_hbm (n : Nat) : (s.msi n).hbm = s.hbm := rfl
@[simp] theorem State.msi_hbmBad (n : Nat) : (s.msi n).hbmBad = s.hbmBad := rfl
@[simp] theorem State.msi_store (n : Nat) : (s.msi n).store = s.store := rfl
@[simp] theorem State.msi_scaleHist (n : Nat) : (s.msi n).scaleHist = s.scaleHist := rfl
@[simp] theorem State.msi_levelHist (n : Nat) : (s.msi n).levelHist = s.levelHist := rfl
@[simp] theorem State.msi_heatHist (n : Nat) : (s.msi n).heatHist = s.heatHist := rfl
@[simp] theorem State.msi_levelRes (n : Nat) : (s.msi n).levelRes = s.levelRes := rfl
@[simp] theorem State.msi_levelMax (n : Nat) : (s.msi n).levelMax = s.levelMax := rfl
@[simp] theorem State.msi_spikes (n : Nat) : (s.msi n).spikes = s.spikes := rfl
@[simp] theorem State.msi_saved (n : Nat) : (s.msi n).saved = s.saved := rfl
@[simp] theorem State.msi_free (n : Nat) : (s.msi n).free = s.free := rfl

/-! ### stopRun -/

@[simp] theorem State.stopRun_pending : s.stopRun.pending = s.pending := rfl
@[simp] theorem State.stopRun_power : s.stopRun.power = s.power := rfl
@[simp] theorem State.stopRun_mgmt : s.stopRun.mgmt = s.mgmt := rfl
@[simp] theorem State.stopRun_regs : s.stopRun.regs = s.regs := rfl
@[simp] theorem State.stopRun_hiCap : s.stopRun.hiCap = s.hiCap := rfl
@[simp] theorem State.stopRun_img : s.stopRun.img = s.img := rfl
@[simp] theorem State.stopRun_belay : s.stopRun.belay = s.belay := rfl
@[simp] theorem State.stopRun_req : s.stopRun.req = s.req := rfl
@[simp] theorem State.stopRun_srec : s.stopRun.srec = s.srec := rfl
@[simp] theorem State.stopRun_slices : s.stopRun.slices = s.slices := rfl
@[simp] theorem State.stopRun_stations : s.stopRun.stations = s.stations := rfl
@[simp] theorem State.stopRun_tok : s.stopRun.tok = s.tok := rfl
@[simp] theorem State.stopRun_groups : s.stopRun.groups = s.groups := rfl
@[simp] theorem State.stopRun_ports : s.stopRun.ports = s.ports := rfl
@[simp] theorem State.stopRun_paths : s.stopRun.paths = s.paths := rfl
@[simp] theorem State.stopRun_brides : s.stopRun.brides = s.brides := rfl
@[simp] theorem State.stopRun_anc : s.stopRun.anc = s.anc := rfl
@[simp] theorem State.stopRun_gq : s.stopRun.gq = s.gq := rfl
@[simp] theorem State.stopRun_cairn : s.stopRun.cairn = s.cairn := rfl
@[simp] theorem State.stopRun_counters : s.stopRun.counters = s.counters := rfl
@[simp] theorem State.stopRun_hbm : s.stopRun.hbm = s.hbm := rfl
@[simp] theorem State.stopRun_hbmBad : s.stopRun.hbmBad = s.hbmBad := rfl
@[simp] theorem State.stopRun_store : s.stopRun.store = s.store := rfl
@[simp] theorem State.stopRun_scaleHist : s.stopRun.scaleHist = s.scaleHist := rfl
@[simp] theorem State.stopRun_levelHist : s.stopRun.levelHist = s.levelHist := rfl
@[simp] theorem State.stopRun_heatHist : s.stopRun.heatHist = s.heatHist := rfl
@[simp] theorem State.stopRun_levelRes : s.stopRun.levelRes = s.levelRes := rfl
@[simp] theorem State.stopRun_levelMax : s.stopRun.levelMax = s.levelMax := rfl
@[simp] theorem State.stopRun_spikes : s.stopRun.spikes = s.spikes := rfl
@[simp] theorem State.stopRun_out : s.stopRun.out = s.out := rfl
@[simp] theorem State.stopRun_saved : s.stopRun.saved = s.saved := rfl
@[simp] theorem State.stopRun_free : s.stopRun.free = s.free := rfl

/-! ### conformPins -/

@[simp] theorem State.conformPins_pending : s.conformPins.pending = s.pending := rfl
@[simp] theorem State.conformPins_power : s.conformPins.power = s.power := rfl
@[simp] theorem State.conformPins_mgmt : s.conformPins.mgmt = s.mgmt := rfl
@[simp] theorem State.conformPins_regs : s.conformPins.regs = s.regs := rfl
@[simp] theorem State.conformPins_hiCap : s.conformPins.hiCap = s.hiCap := rfl
@[simp] theorem State.conformPins_img : s.conformPins.img = s.img := rfl
@[simp] theorem State.conformPins_belay : s.conformPins.belay = s.belay := rfl
@[simp] theorem State.conformPins_req : s.conformPins.req = s.req := rfl
@[simp] theorem State.conformPins_srec : s.conformPins.srec = s.srec := rfl
@[simp] theorem State.conformPins_sealing : s.conformPins.sealing = s.sealing := rfl
@[simp] theorem State.conformPins_stations : s.conformPins.stations = s.stations := rfl
@[simp] theorem State.conformPins_tok : s.conformPins.tok = s.tok := rfl
@[simp] theorem State.conformPins_groups : s.conformPins.groups = s.groups := rfl
@[simp] theorem State.conformPins_ports : s.conformPins.ports = s.ports := rfl
@[simp] theorem State.conformPins_paths : s.conformPins.paths = s.paths := rfl
@[simp] theorem State.conformPins_brides : s.conformPins.brides = s.brides := rfl
@[simp] theorem State.conformPins_anc : s.conformPins.anc = s.anc := rfl
@[simp] theorem State.conformPins_gq : s.conformPins.gq = s.gq := rfl
@[simp] theorem State.conformPins_cairn : s.conformPins.cairn = s.cairn := rfl
@[simp] theorem State.conformPins_counters : s.conformPins.counters = s.counters := rfl
@[simp] theorem State.conformPins_hbm : s.conformPins.hbm = s.hbm := rfl
@[simp] theorem State.conformPins_hbmBad : s.conformPins.hbmBad = s.hbmBad := rfl
@[simp] theorem State.conformPins_store : s.conformPins.store = s.store := rfl
@[simp] theorem State.conformPins_scaleHist : s.conformPins.scaleHist = s.scaleHist := rfl
@[simp] theorem State.conformPins_levelHist : s.conformPins.levelHist = s.levelHist := rfl
@[simp] theorem State.conformPins_heatHist : s.conformPins.heatHist = s.heatHist := rfl
@[simp] theorem State.conformPins_levelRes : s.conformPins.levelRes = s.levelRes := rfl
@[simp] theorem State.conformPins_levelMax : s.conformPins.levelMax = s.levelMax := rfl
@[simp] theorem State.conformPins_spikes : s.conformPins.spikes = s.spikes := rfl
@[simp] theorem State.conformPins_out : s.conformPins.out = s.out := rfl
@[simp] theorem State.conformPins_saved : s.conformPins.saved = s.saved := rfl
@[simp] theorem State.conformPins_free : s.conformPins.free = s.free := rfl

/-! ### conformPorts -/

@[simp] theorem State.conformPorts_pending : s.conformPorts.pending = s.pending := rfl
@[simp] theorem State.conformPorts_power : s.conformPorts.power = s.power := rfl
@[simp] theorem State.conformPorts_mgmt : s.conformPorts.mgmt = s.mgmt := rfl
@[simp] theorem State.conformPorts_regs : s.conformPorts.regs = s.regs := rfl
@[simp] theorem State.conformPorts_hiCap : s.conformPorts.hiCap = s.hiCap := rfl
@[simp] theorem State.conformPorts_img : s.conformPorts.img = s.img := rfl
@[simp] theorem State.conformPorts_belay : s.conformPorts.belay = s.belay := rfl
@[simp] theorem State.conformPorts_req : s.conformPorts.req = s.req := rfl
@[simp] theorem State.conformPorts_seq : s.conformPorts.seq = s.seq := rfl
@[simp] theorem State.conformPorts_srec : s.conformPorts.srec = s.srec := rfl
@[simp] theorem State.conformPorts_sealing : s.conformPorts.sealing = s.sealing := rfl
@[simp] theorem State.conformPorts_slices : s.conformPorts.slices = s.slices := rfl
@[simp] theorem State.conformPorts_stations : s.conformPorts.stations = s.stations := rfl
@[simp] theorem State.conformPorts_tok : s.conformPorts.tok = s.tok := rfl
@[simp] theorem State.conformPorts_groups : s.conformPorts.groups = s.groups := rfl
@[simp] theorem State.conformPorts_brides : s.conformPorts.brides = s.brides := rfl
@[simp] theorem State.conformPorts_anc : s.conformPorts.anc = s.anc := rfl
@[simp] theorem State.conformPorts_gq : s.conformPorts.gq = s.gq := rfl
@[simp] theorem State.conformPorts_cairn : s.conformPorts.cairn = s.cairn := rfl
@[simp] theorem State.conformPorts_counters : s.conformPorts.counters = s.counters := rfl
@[simp] theorem State.conformPorts_hbm : s.conformPorts.hbm = s.hbm := rfl
@[simp] theorem State.conformPorts_hbmBad : s.conformPorts.hbmBad = s.hbmBad := rfl
@[simp] theorem State.conformPorts_store : s.conformPorts.store = s.store := rfl
@[simp] theorem State.conformPorts_scaleHist : s.conformPorts.scaleHist = s.scaleHist := rfl
@[simp] theorem State.conformPorts_levelHist : s.conformPorts.levelHist = s.levelHist := rfl
@[simp] theorem State.conformPorts_heatHist : s.conformPorts.heatHist = s.heatHist := rfl
@[simp] theorem State.conformPorts_levelRes : s.conformPorts.levelRes = s.levelRes := rfl
@[simp] theorem State.conformPorts_levelMax : s.conformPorts.levelMax = s.levelMax := rfl
@[simp] theorem State.conformPorts_spikes : s.conformPorts.spikes = s.spikes := rfl
@[simp] theorem State.conformPorts_out : s.conformPorts.out = s.out := rfl
@[simp] theorem State.conformPorts_saved : s.conformPorts.saved = s.saved := rfl
@[simp] theorem State.conformPorts_free : s.conformPorts.free = s.free := rfl

end Sys2Proof.Machine
end

