-- ==== Sys2Proof/Laws/Frames.lean ====
section
/-! SUPPORT. What the shared operations leave as it was: counters, deviation entries, cairns, interrupts, and the conditions that
hold after every command. -/

namespace Sys2Proof.Machine

/-- What every step of a fold keeps, the fold keeps. -/
theorem foldl_keeps {α β σ : Type} (g : σ → β) (f : σ → α → σ) (h : ∀ s x, g (f s x) = g s) (l : List α) (s : σ) :
    g (l.foldl f s) = g s := by
  induction l generalizing s with
  | nil => rfl
  | cons x l ih => rw [List.foldl_cons, ih, h]

variable (s : State)

/-! ### total -/

@[simp] theorem State.total_pending (off n : Nat) : (s.total off n).pending = s.pending := by
  unfold State.total; split <;> rfl
@[simp] theorem State.total_power (off n : Nat) : (s.total off n).power = s.power := by
  unfold State.total; split <;> rfl
@[simp] theorem State.total_mgmt (off n : Nat) : (s.total off n).mgmt = s.mgmt := by
  unfold State.total; split <;> rfl
@[simp] theorem State.total_regs (off n : Nat) : (s.total off n).regs = s.regs := by
  unfold State.total; split <;> rfl
@[simp] theorem State.total_hiCap (off n : Nat) : (s.total off n).hiCap = s.hiCap := by
  unfold State.total; split <;> rfl
@[simp] theorem State.total_img (off n : Nat) : (s.total off n).img = s.img := by
  unfold State.total; split <;> rfl
@[simp] theorem State.total_belay (off n : Nat) : (s.total off n).belay = s.belay := by
  unfold State.total; split <;> rfl
@[simp] theorem State.total_req (off n : Nat) : (s.total off n).req = s.req := by
  unfold State.total; split <;> rfl
@[simp] theorem State.total_seq (off n : Nat) : (s.total off n).seq = s.seq := by
  unfold State.total; split <;> rfl
@[simp] theorem State.total_srec (off n : Nat) : (s.total off n).srec = s.srec := by
  unfold State.total; split <;> rfl
@[simp] theorem State.total_sealing (off n : Nat) : (s.total off n).sealing = s.sealing := by
  unfold State.total; split <;> rfl
@[simp] theorem State.total_slices (off n : Nat) : (s.total off n).slices = s.slices := by
  unfold State.total; split <;> rfl
@[simp] theorem State.total_stations (off n : Nat) : (s.total off n).stations = s.stations := by
  unfold State.total; split <;> rfl
@[simp] theorem State.total_tok (off n : Nat) : (s.total off n).tok = s.tok := by
  unfold State.total; split <;> rfl
@[simp] theorem State.total_groups (off n : Nat) : (s.total off n).groups = s.groups := by
  unfold State.total; split <;> rfl
@[simp] theorem State.total_ports (off n : Nat) : (s.total off n).ports = s.ports := by
  unfold State.total; split <;> rfl
@[simp] theorem State.total_paths (off n : Nat) : (s.total off n).paths = s.paths := by
  unfold State.total; split <;> rfl
@[simp] theorem State.total_brides (off n : Nat) : (s.total off n).brides = s.brides := by
  unfold State.total; split <;> rfl
@[simp] theorem State.total_anc (off n : Nat) : (s.total off n).anc = s.anc := by
  unfold State.total; split <;> rfl
@[simp] theorem State.total_gq (off n : Nat) : (s.total off n).gq = s.gq := by
  unfold State.total; split <;> rfl
@[simp] theorem State.total_cairn (off n : Nat) : (s.total off n).cairn = s.cairn := by
  unfold State.total; split <;> rfl
@[simp] theorem State.total_hbm (off n : Nat) : (s.total off n).hbm = s.hbm := by
  unfold State.total; split <;> rfl
@[simp] theorem State.total_hbmBad (off n : Nat) : (s.total off n).hbmBad = s.hbmBad := by
  unfold State.total; split <;> rfl
@[simp] theorem State.total_store (off n : Nat) : (s.total off n).store = s.store := by
  unfold State.total; split <;> rfl
@[simp] theorem State.total_scaleHist (off n : Nat) : (s.total off n).scaleHist = s.scaleHist := by
  unfold State.total; split <;> rfl
@[simp] theorem State.total_levelHist (off n : Nat) : (s.total off n).levelHist = s.levelHist := by
  unfold State.total; split <;> rfl
@[simp] theorem State.total_heatHist (off n : Nat) : (s.total off n).heatHist = s.heatHist := by
  unfold State.total; split <;> rfl
@[simp] theorem State.total_levelRes (off n : Nat) : (s.total off n).levelRes = s.levelRes := by
  unfold State.total; split <;> rfl
@[simp] theorem State.total_levelMax (off n : Nat) : (s.total off n).levelMax = s.levelMax := by
  unfold State.total; split <;> rfl
@[simp] theorem State.total_spikes (off n : Nat) : (s.total off n).spikes = s.spikes := by
  unfold State.total; split <;> rfl
@[simp] theorem State.total_out (off n : Nat) : (s.total off n).out = s.out := by
  unfold State.total; split <;> rfl
@[simp] theorem State.total_saved (off n : Nat) : (s.total off n).saved = s.saved := by
  unfold State.total; split <;> rfl
@[simp] theorem State.total_free (off n : Nat) : (s.total off n).free = s.free := by
  unfold State.total; split <;> rfl

/-! ### bump -/

@[simp] theorem State.bump_pending (off u n : Nat) : (s.bump off u n).pending = s.pending := by
  unfold State.bump; split <;> simp
@[simp] theorem State.bump_power (off u n : Nat) : (s.bump off u n).power = s.power := by
  unfold State.bump; split <;> simp
@[simp] theorem State.bump_mgmt (off u n : Nat) : (s.bump off u n).mgmt = s.mgmt := by
  unfold State.bump; split <;> simp
@[simp] theorem State.bump_regs (off u n : Nat) : (s.bump off u n).regs = s.regs := by
  unfold State.bump; split <;> simp
@[simp] theorem State.bump_hiCap (off u n : Nat) : (s.bump off u n).hiCap = s.hiCap := by
  unfold State.bump; split <;> simp
@[simp] theorem State.bump_img (off u n : Nat) : (s.bump off u n).img = s.img := by
  unfold State.bump; split <;> simp
@[simp] theorem State.bump_belay (off u n : Nat) : (s.bump off u n).belay = s.belay := by
  unfold State.bump; split <;> simp
@[simp] theorem State.bump_req (off u n : Nat) : (s.bump off u n).req = s.req := by
  unfold State.bump; split <;> simp
@[simp] theorem State.bump_seq (off u n : Nat) : (s.bump off u n).seq = s.seq := by
  unfold State.bump; split <;> simp
@[simp] theorem State.bump_sealing (off u n : Nat) : (s.bump off u n).sealing = s.sealing := by
  unfold State.bump; split <;> simp
@[simp] theorem State.bump_slices (off u n : Nat) : (s.bump off u n).slices = s.slices := by
  unfold State.bump; split <;> simp
@[simp] theorem State.bump_stations (off u n : Nat) : (s.bump off u n).stations = s.stations := by
  unfold State.bump; split <;> simp
@[simp] theorem State.bump_tok (off u n : Nat) : (s.bump off u n).tok = s.tok := by
  unfold State.bump; split <;> simp
@[simp] theorem State.bump_groups (off u n : Nat) : (s.bump off u n).groups = s.groups := by
  unfold State.bump; split <;> simp
@[simp] theorem State.bump_ports (off u n : Nat) : (s.bump off u n).ports = s.ports := by
  unfold State.bump; split <;> simp
@[simp] theorem State.bump_paths (off u n : Nat) : (s.bump off u n).paths = s.paths := by
  unfold State.bump; split <;> simp
@[simp] theorem State.bump_brides (off u n : Nat) : (s.bump off u n).brides = s.brides := by
  unfold State.bump; split <;> simp
@[simp] theorem State.bump_anc (off u n : Nat) : (s.bump off u n).anc = s.anc := by
  unfold State.bump; split <;> simp
@[simp] theorem State.bump_gq (off u n : Nat) : (s.bump off u n).gq = s.gq := by
  unfold State.bump; split <;> simp
@[simp] theorem State.bump_cairn (off u n : Nat) : (s.bump off u n).cairn = s.cairn := by
  unfold State.bump; split <;> simp
@[simp] theorem State.bump_hbm (off u n : Nat) : (s.bump off u n).hbm = s.hbm := by
  unfold State.bump; split <;> simp
@[simp] theorem State.bump_hbmBad (off u n : Nat) : (s.bump off u n).hbmBad = s.hbmBad := by
  unfold State.bump; split <;> simp
@[simp] theorem State.bump_store (off u n : Nat) : (s.bump off u n).store = s.store := by
  unfold State.bump; split <;> simp
@[simp] theorem State.bump_scaleHist (off u n : Nat) : (s.bump off u n).scaleHist = s.scaleHist := by
  unfold State.bump; split <;> simp
@[simp] theorem State.bump_levelHist (off u n : Nat) : (s.bump off u n).levelHist = s.levelHist := by
  unfold State.bump; split <;> simp
@[simp] theorem State.bump_heatHist (off u n : Nat) : (s.bump off u n).heatHist = s.heatHist := by
  unfold State.bump; split <;> simp
@[simp] theorem State.bump_levelRes (off u n : Nat) : (s.bump off u n).levelRes = s.levelRes := by
  unfold State.bump; split <;> simp
@[simp] theorem State.bump_levelMax (off u n : Nat) : (s.bump off u n).levelMax = s.levelMax := by
  unfold State.bump; split <;> simp
@[simp] theorem State.bump_spikes (off u n : Nat) : (s.bump off u n).spikes = s.spikes := by
  unfold State.bump; split <;> simp
@[simp] theorem State.bump_out (off u n : Nat) : (s.bump off u n).out = s.out := by
  unfold State.bump; split <;> simp
@[simp] theorem State.bump_saved (off u n : Nat) : (s.bump off u n).saved = s.saved := by
  unfold State.bump; split <;> simp
@[simp] theorem State.bump_free (off u n : Nat) : (s.bump off u n).free = s.free := by
  unfold State.bump; split <;> simp

/-! ### dev -/

@[simp] theorem State.dev_pending (d : Dev) : (s.dev d).pending = s.pending := by
  simp [State.dev]
@[simp] theorem State.dev_power (d : Dev) : (s.dev d).power = s.power := by
  simp [State.dev]
@[simp] theorem State.dev_mgmt (d : Dev) : (s.dev d).mgmt = s.mgmt := by
  simp [State.dev]
@[simp] theorem State.dev_regs (d : Dev) : (s.dev d).regs = s.regs := by
  simp [State.dev]
@[simp] theorem State.dev_hiCap (d : Dev) : (s.dev d).hiCap = s.hiCap := by
  simp [State.dev]
@[simp] theorem State.dev_img (d : Dev) : (s.dev d).img = s.img := by
  simp [State.dev]
@[simp] theorem State.dev_belay (d : Dev) : (s.dev d).belay = s.belay := by
  simp [State.dev]
@[simp] theorem State.dev_req (d : Dev) : (s.dev d).req = s.req := by
  simp [State.dev]
@[simp] theorem State.dev_seq (d : Dev) : (s.dev d).seq = s.seq := by
  simp [State.dev]
@[simp] theorem State.dev_sealing (d : Dev) : (s.dev d).sealing = s.sealing := by
  simp [State.dev]
@[simp] theorem State.dev_slices (d : Dev) : (s.dev d).slices = s.slices := by
  simp [State.dev]
@[simp] theorem State.dev_stations (d : Dev) : (s.dev d).stations = s.stations := by
  simp [State.dev]
@[simp] theorem State.dev_tok (d : Dev) : (s.dev d).tok = s.tok := by
  simp [State.dev]
@[simp] theorem State.dev_groups (d : Dev) : (s.dev d).groups = s.groups := by
  simp [State.dev]
@[simp] theorem State.dev_ports (d : Dev) : (s.dev d).ports = s.ports := by
  simp [State.dev]
@[simp] theorem State.dev_paths (d : Dev) : (s.dev d).paths = s.paths := by
  simp [State.dev]
@[simp] theorem State.dev_brides (d : Dev) : (s.dev d).brides = s.brides := by
  simp [State.dev]
@[simp] theorem State.dev_anc (d : Dev) : (s.dev d).anc = s.anc := by
  simp [State.dev]
@[simp] theorem State.dev_gq (d : Dev) : (s.dev d).gq = s.gq := by
  simp [State.dev]
@[simp] theorem State.dev_cairn (d : Dev) : (s.dev d).cairn = s.cairn := by
  simp [State.dev]
@[simp] theorem State.dev_hbm (d : Dev) : (s.dev d).hbm = s.hbm := by
  simp [State.dev]
@[simp] theorem State.dev_hbmBad (d : Dev) : (s.dev d).hbmBad = s.hbmBad := by
  simp [State.dev]
@[simp] theorem State.dev_store (d : Dev) : (s.dev d).store = s.store := by
  simp [State.dev]
@[simp] theorem State.dev_scaleHist (d : Dev) : (s.dev d).scaleHist = s.scaleHist := by
  simp [State.dev]
@[simp] theorem State.dev_levelHist (d : Dev) : (s.dev d).levelHist = s.levelHist := by
  simp [State.dev]
@[simp] theorem State.dev_heatHist (d : Dev) : (s.dev d).heatHist = s.heatHist := by
  simp [State.dev]
@[simp] theorem State.dev_levelRes (d : Dev) : (s.dev d).levelRes = s.levelRes := by
  simp [State.dev]
@[simp] theorem State.dev_levelMax (d : Dev) : (s.dev d).levelMax = s.levelMax := by
  simp [State.dev]
@[simp] theorem State.dev_spikes (d : Dev) : (s.dev d).spikes = s.spikes := by
  simp [State.dev]
@[simp] theorem State.dev_out (d : Dev) : (s.dev d).out = s.out := by
  simp [State.dev]
@[simp] theorem State.dev_saved (d : Dev) : (s.dev d).saved = s.saved := by
  simp [State.dev]
@[simp] theorem State.dev_free (d : Dev) : (s.dev d).free = s.free := by
  simp [State.dev]

/-! ### raise -/

@[simp] theorem State.raise_pending (c src q a b : Nat) : (s.raise c src q a b).pending = s.pending := by
  simp [State.raise]
@[simp] theorem State.raise_power (c src q a b : Nat) : (s.raise c src q a b).power = s.power := by
  simp [State.raise]
@[simp] theorem State.raise_mgmt (c src q a b : Nat) : (s.raise c src q a b).mgmt = s.mgmt := by
  simp [State.raise]
@[simp] theorem State.raise_regs (c src q a b : Nat) : (s.raise c src q a b).regs = s.regs := by
  simp [State.raise]
@[simp] theorem State.raise_hiCap (c src q a b : Nat) : (s.raise c src q a b).hiCap = s.hiCap := by
  simp [State.raise]
@[simp] theorem State.raise_img (c src q a b : Nat) : (s.raise c src q a b).img = s.img := by
  simp [State.raise]
@[simp] theorem State.raise_belay (c src q a b : Nat) : (s.raise c src q a b).belay = s.belay := by
  simp [State.raise]
@[simp] theorem State.raise_req (c src q a b : Nat) : (s.raise c src q a b).req = s.req := by
  simp [State.raise]
@[simp] theorem State.raise_seq (c src q a b : Nat) : (s.raise c src q a b).seq = s.seq := by
  simp [State.raise]
@[simp] theorem State.raise_sealing (c src q a b : Nat) : (s.raise c src q a b).sealing = s.sealing := by
  simp [State.raise]
@[simp] theorem State.raise_slices (c src q a b : Nat) : (s.raise c src q a b).slices = s.slices := by
  simp [State.raise]
@[simp] theorem State.raise_stations (c src q a b : Nat) : (s.raise c src q a b).stations = s.stations := by
  simp [State.raise]
@[simp] theorem State.raise_tok (c src q a b : Nat) : (s.raise c src q a b).tok = s.tok := by
  simp [State.raise]
@[simp] theorem State.raise_groups (c src q a b : Nat) : (s.raise c src q a b).groups = s.groups := by
  simp [State.raise]
@[simp] theorem State.raise_ports (c src q a b : Nat) : (s.raise c src q a b).ports = s.ports := by
  simp [State.raise]
@[simp] theorem State.raise_paths (c src q a b : Nat) : (s.raise c src q a b).paths = s.paths := by
  simp [State.raise]
@[simp] theorem State.raise_brides (c src q a b : Nat) : (s.raise c src q a b).brides = s.brides := by
  simp [State.raise]
@[simp] theorem State.raise_anc (c src q a b : Nat) : (s.raise c src q a b).anc = s.anc := by
  simp [State.raise]
@[simp] theorem State.raise_gq (c src q a b : Nat) : (s.raise c src q a b).gq = s.gq := by
  simp [State.raise]
@[simp] theorem State.raise_hbm (c src q a b : Nat) : (s.raise c src q a b).hbm = s.hbm := by
  simp [State.raise]
@[simp] theorem State.raise_hbmBad (c src q a b : Nat) : (s.raise c src q a b).hbmBad = s.hbmBad := by
  simp [State.raise]
@[simp] theorem State.raise_store (c src q a b : Nat) : (s.raise c src q a b).store = s.store := by
  simp [State.raise]
@[simp] theorem State.raise_scaleHist (c src q a b : Nat) : (s.raise c src q a b).scaleHist = s.scaleHist := by
  simp [State.raise]
@[simp] theorem State.raise_levelHist (c src q a b : Nat) : (s.raise c src q a b).levelHist = s.levelHist := by
  simp [State.raise]
@[simp] theorem State.raise_heatHist (c src q a b : Nat) : (s.raise c src q a b).heatHist = s.heatHist := by
  simp [State.raise]
@[simp] theorem State.raise_levelRes (c src q a b : Nat) : (s.raise c src q a b).levelRes = s.levelRes := by
  simp [State.raise]
@[simp] theorem State.raise_levelMax (c src q a b : Nat) : (s.raise c src q a b).levelMax = s.levelMax := by
  simp [State.raise]
@[simp] theorem State.raise_spikes (c src q a b : Nat) : (s.raise c src q a b).spikes = s.spikes := by
  simp [State.raise]
@[simp] theorem State.raise_out (c src q a b : Nat) : (s.raise c src q a b).out = s.out := by
  simp [State.raise]
@[simp] theorem State.raise_saved (c src q a b : Nat) : (s.raise c src q a b).saved = s.saved := by
  simp [State.raise]
@[simp] theorem State.raise_free (c src q a b : Nat) : (s.raise c src q a b).free = s.free := by
  simp [State.raise]

/-! ### interrupt -/

@[simp] theorem State.interrupt_pending (n : Nat) : (s.interrupt n).pending = s.pending := by
  unfold State.interrupt; split <;> simp
@[simp] theorem State.interrupt_power (n : Nat) : (s.interrupt n).power = s.power := by
  unfold State.interrupt; split <;> simp
@[simp] theorem State.interrupt_mgmt (n : Nat) : (s.interrupt n).mgmt = s.mgmt := by
  unfold State.interrupt; split <;> simp
@[simp] theorem State.interrupt_regs (n : Nat) : (s.interrupt n).regs = s.regs := by
  unfold State.interrupt; split <;> simp
@[simp] theorem State.interrupt_hiCap (n : Nat) : (s.interrupt n).hiCap = s.hiCap := by
  unfold State.interrupt; split <;> simp
@[simp] theorem State.interrupt_img (n : Nat) : (s.interrupt n).img = s.img := by
  unfold State.interrupt; split <;> simp
@[simp] theorem State.interrupt_belay (n : Nat) : (s.interrupt n).belay = s.belay := by
  unfold State.interrupt; split <;> simp
@[simp] theorem State.interrupt_req (n : Nat) : (s.interrupt n).req = s.req := by
  unfold State.interrupt; split <;> simp
@[simp] theorem State.interrupt_seq (n : Nat) : (s.interrupt n).seq = s.seq := by
  unfold State.interrupt; split <;> simp
@[simp] theorem State.interrupt_srec (n : Nat) : (s.interrupt n).srec = s.srec := by
  unfold State.interrupt; split <;> simp
@[simp] theorem State.interrupt_sealing (n : Nat) : (s.interrupt n).sealing = s.sealing := by
  unfold State.interrupt; split <;> simp
@[simp] theorem State.interrupt_slices (n : Nat) : (s.interrupt n).slices = s.slices := by
  unfold State.interrupt; split <;> simp
@[simp] theorem State.interrupt_stations (n : Nat) : (s.interrupt n).stations = s.stations := by
  unfold State.interrupt; split <;> simp
@[simp] theorem State.interrupt_tok (n : Nat) : (s.interrupt n).tok = s.tok := by
  unfold State.interrupt; split <;> simp
@[simp] theorem State.interrupt_groups (n : Nat) : (s.interrupt n).groups = s.groups := by
  unfold State.interrupt; split <;> simp
@[simp] theorem State.interrupt_ports (n : Nat) : (s.interrupt n).ports = s.ports := by
  unfold State.interrupt; split <;> simp
@[simp] theorem State.interrupt_paths (n : Nat) : (s.interrupt n).paths = s.paths := by
  unfold State.interrupt; split <;> simp
@[simp] theorem State.interrupt_brides (n : Nat) : (s.interrupt n).brides = s.brides := by
  unfold State.interrupt; split <;> simp
@[simp] theorem State.interrupt_anc (n : Nat) : (s.interrupt n).anc = s.anc := by
  unfold State.interrupt; split <;> simp
@[simp] theorem State.interrupt_gq (n : Nat) : (s.interrupt n).gq = s.gq := by
  unfold State.interrupt; split <;> simp
@[simp] theorem State.interrupt_cairn (n : Nat) : (s.interrupt n).cairn = s.cairn := by
  unfold State.interrupt; split <;> simp
@[simp] theorem State.interrupt_counters (n : Nat) : (s.interrupt n).counters = s.counters := by
  unfold State.interrupt; split <;> simp
@[simp] theorem State.interrupt_hbm (n : Nat) : (s.interrupt n).hbm = s.hbm := by
  unfold State.interrupt; split <;> simp
@[simp] theorem State.interrupt_hbmBad (n : Nat) : (s.interrupt n).hbmBad = s.hbmBad := by
  unfold State.interrupt; split <;> simp
@[simp] theorem State.interrupt_store (n : Nat) : (s.interrupt n).store = s.store := by
  unfold State.interrupt; split <;> simp
@[simp] theorem State.interrupt_scaleHist (n : Nat) : (s.interrupt n).scaleHist = s.scaleHist := by
  unfold State.interrupt; split <;> simp
@[simp] theorem State.interrupt_levelHist (n : Nat) : (s.interrupt n).levelHist = s.levelHist := by
  unfold State.interrupt; split <;> simp
@[simp] theorem State.interrupt_heatHist (n : Nat) : (s.interrupt n).heatHist = s.heatHist := by
  unfold State.interrupt; split <;> simp
@[simp] theorem State.interrupt_levelRes (n : Nat) : (s.interrupt n).levelRes = s.levelRes := by
  unfold State.interrupt; split <;> simp
@[simp] theorem State.interrupt_levelMax (n : Nat) : (s.interrupt n).levelMax = s.levelMax := by
  unfold State.interrupt; split <;> simp
@[simp] theorem State.interrupt_spikes (n : Nat) : (s.interrupt n).spikes = s.spikes := by
  unfold State.interrupt; split <;> simp
@[simp] theorem State.interrupt_saved (n : Nat) : (s.interrupt n).saved = s.saved := by
  unfold State.interrupt; split <;> simp
@[simp] theorem State.interrupt_free (n : Nat) : (s.interrupt n).free = s.free := by
  unfold State.interrupt; split <;> simp

/-! ### irq -/

@[simp] theorem State.irq_pending (n : Nat) : (s.irq n).pending = s.pending := by
  unfold State.irq; repeat (first | split | simp | rfl)
@[simp] theorem State.irq_power (n : Nat) : (s.irq n).power = s.power := by
  unfold State.irq; repeat (first | split | simp | rfl)
@[simp] theorem State.irq_mgmt (n : Nat) : (s.irq n).mgmt = s.mgmt := by
  unfold State.irq; repeat (first | split | simp | rfl)
@[simp] theorem State.irq_hiCap (n : Nat) : (s.irq n).hiCap = s.hiCap := by
  unfold State.irq; repeat (first | split | simp | rfl)
@[simp] theorem State.irq_img (n : Nat) : (s.irq n).img = s.img := by
  unfold State.irq; repeat (first | split | simp | rfl)
@[simp] theorem State.irq_belay (n : Nat) : (s.irq n).belay = s.belay := by
  unfold State.irq; repeat (first | split | simp | rfl)
@[simp] theorem State.irq_req (n : Nat) : (s.irq n).req = s.req := by
  unfold State.irq; repeat (first | split | simp | rfl)
@[simp] theorem State.irq_seq (n : Nat) : (s.irq n).seq = s.seq := by
  unfold State.irq; repeat (first | split | simp | rfl)
@[simp] theorem State.irq_srec (n : Nat) : (s.irq n).srec = s.srec := by
  unfold State.irq; repeat (first | split | simp | rfl)
@[simp] theorem State.irq_sealing (n : Nat) : (s.irq n).sealing = s.sealing := by
  unfold State.irq; repeat (first | split | simp | rfl)
@[simp] theorem State.irq_slices (n : Nat) : (s.irq n).slices = s.slices := by
  unfold State.irq; repeat (first | split | simp | rfl)
@[simp] theorem State.irq_stations (n : Nat) : (s.irq n).stations = s.stations := by
  unfold State.irq; repeat (first | split | simp | rfl)
@[simp] theorem State.irq_tok (n : Nat) : (s.irq n).tok = s.tok := by
  unfold State.irq; repeat (first | split | simp | rfl)
@[simp] theorem State.irq_groups (n : Nat) : (s.irq n).groups = s.groups := by
  unfold State.irq; repeat (first | split | simp | rfl)
@[simp] theorem State.irq_ports (n : Nat) : (s.irq n).ports = s.ports := by
  unfold State.irq; repeat (first | split | simp | rfl)
@[simp] theorem State.irq_paths (n : Nat) : (s.irq n).paths = s.paths := by
  unfold State.irq; repeat (first | split | simp | rfl)
@[simp] theorem State.irq_brides (n : Nat) : (s.irq n).brides = s.brides := by
  unfold State.irq; repeat (first | split | simp | rfl)
@[simp] theorem State.irq_anc (n : Nat) : (s.irq n).anc = s.anc := by
  unfold State.irq; repeat (first | split | simp | rfl)
@[simp] theorem State.irq_gq (n : Nat) : (s.irq n).gq = s.gq := by
  unfold State.irq; repeat (first | split | simp | rfl)
@[simp] theorem State.irq_cairn (n : Nat) : (s.irq n).cairn = s.cairn := by
  unfold State.irq; repeat (first | split | simp | rfl)
@[simp] theorem State.irq_counters (n : Nat) : (s.irq n).counters = s.counters := by
  unfold State.irq; repeat (first | split | simp | rfl)
@[simp] theorem State.irq_hbm (n : Nat) : (s.irq n).hbm = s.hbm := by
  unfold State.irq; repeat (first | split | simp | rfl)
@[simp] theorem State.irq_hbmBad (n : Nat) : (s.irq n).hbmBad = s.hbmBad := by
  unfold State.irq; repeat (first | split | simp | rfl)
@[simp] theorem State.irq_store (n : Nat) : (s.irq n).store = s.store := by
  unfold State.irq; repeat (first | split | simp | rfl)
@[simp] theorem State.irq_scaleHist (n : Nat) : (s.irq n).scaleHist = s.scaleHist := by
  unfold State.irq; repeat (first | split | simp | rfl)
@[simp] theorem State.irq_levelHist (n : Nat) : (s.irq n).levelHist = s.levelHist := by
  unfold State.irq; repeat (first | split | simp | rfl)
@[simp] theorem State.irq_heatHist (n : Nat) : (s.irq n).heatHist = s.heatHist := by
  unfold State.irq; repeat (first | split | simp | rfl)
@[simp] theorem State.irq_levelRes (n : Nat) : (s.irq n).levelRes = s.levelRes := by
  unfold State.irq; repeat (first | split | simp | rfl)
@[simp] theorem State.irq_levelMax (n : Nat) : (s.irq n).levelMax = s.levelMax := by
  unfold State.irq; repeat (first | split | simp | rfl)
@[simp] theorem State.irq_spikes (n : Nat) : (s.irq n).spikes = s.spikes := by
  unfold State.irq; repeat (first | split | simp | rfl)
@[simp] theorem State.irq_saved (n : Nat) : (s.irq n).saved = s.saved := by
  unfold State.irq; repeat (first | split | simp | rfl)
@[simp] theorem State.irq_free (n : Nat) : (s.irq n).free = s.free := by
  unfold State.irq; repeat (first | split | simp | rfl)

/-! ### report -/

@[simp] theorem State.report_pending : (s.report).pending = s.pending := by
  unfold State.report; dsimp only; split <;> simp
@[simp] theorem State.report_power : (s.report).power = s.power := by
  unfold State.report; dsimp only; split <;> simp
@[simp] theorem State.report_hiCap : (s.report).hiCap = s.hiCap := by
  unfold State.report; dsimp only; split <;> simp
@[simp] theorem State.report_img : (s.report).img = s.img := by
  unfold State.report; dsimp only; split <;> simp
@[simp] theorem State.report_belay : (s.report).belay = s.belay := by
  unfold State.report; dsimp only; split <;> simp
@[simp] theorem State.report_req : (s.report).req = s.req := by
  unfold State.report; dsimp only; split <;> simp
@[simp] theorem State.report_seq : (s.report).seq = s.seq := by
  unfold State.report; dsimp only; split <;> simp
@[simp] theorem State.report_srec : (s.report).srec = s.srec := by
  unfold State.report; dsimp only; split <;> simp
@[simp] theorem State.report_sealing : (s.report).sealing = s.sealing := by
  unfold State.report; dsimp only; split <;> simp
@[simp] theorem State.report_slices : (s.report).slices = s.slices := by
  unfold State.report; dsimp only; split <;> simp
@[simp] theorem State.report_stations : (s.report).stations = s.stations := by
  unfold State.report; dsimp only; split <;> simp
@[simp] theorem State.report_tok : (s.report).tok = s.tok := by
  unfold State.report; dsimp only; split <;> simp
@[simp] theorem State.report_groups : (s.report).groups = s.groups := by
  unfold State.report; dsimp only; split <;> simp
@[simp] theorem State.report_ports : (s.report).ports = s.ports := by
  unfold State.report; dsimp only; split <;> simp
@[simp] theorem State.report_paths : (s.report).paths = s.paths := by
  unfold State.report; dsimp only; split <;> simp
@[simp] theorem State.report_brides : (s.report).brides = s.brides := by
  unfold State.report; dsimp only; split <;> simp
@[simp] theorem State.report_anc : (s.report).anc = s.anc := by
  unfold State.report; dsimp only; split <;> simp
@[simp] theorem State.report_gq : (s.report).gq = s.gq := by
  unfold State.report; dsimp only; split <;> simp
@[simp] theorem State.report_cairn : (s.report).cairn = s.cairn := by
  unfold State.report; dsimp only; split <;> simp
@[simp] theorem State.report_counters : (s.report).counters = s.counters := by
  unfold State.report; dsimp only; split <;> simp
@[simp] theorem State.report_hbm : (s.report).hbm = s.hbm := by
  unfold State.report; dsimp only; split <;> simp
@[simp] theorem State.report_hbmBad : (s.report).hbmBad = s.hbmBad := by
  unfold State.report; dsimp only; split <;> simp
@[simp] theorem State.report_store : (s.report).store = s.store := by
  unfold State.report; dsimp only; split <;> simp
@[simp] theorem State.report_scaleHist : (s.report).scaleHist = s.scaleHist := by
  unfold State.report; dsimp only; split <;> simp
@[simp] theorem State.report_levelHist : (s.report).levelHist = s.levelHist := by
  unfold State.report; dsimp only; split <;> simp
@[simp] theorem State.report_heatHist : (s.report).heatHist = s.heatHist := by
  unfold State.report; dsimp only; split <;> simp
@[simp] theorem State.report_levelRes : (s.report).levelRes = s.levelRes := by
  unfold State.report; dsimp only; split <;> simp
@[simp] theorem State.report_levelMax : (s.report).levelMax = s.levelMax := by
  unfold State.report; dsimp only; split <;> simp
@[simp] theorem State.report_spikes : (s.report).spikes = s.spikes := by
  unfold State.report; dsimp only; split <;> simp
@[simp] theorem State.report_saved : (s.report).saved = s.saved := by
  unfold State.report; dsimp only; split <;> simp
@[simp] theorem State.report_free : (s.report).free = s.free := by
  unfold State.report; dsimp only; split <;> simp

/-! ### sendOwed -/

@[simp] theorem State.sendOwed_pending : (s.sendOwed).pending = s.pending := by
  unfold State.sendOwed; split
  · exact foldl_keeps State.pending _ (fun s n => State.msi_pending s n) _ s
  · rfl
@[simp] theorem State.sendOwed_power : (s.sendOwed).power = s.power := by
  unfold State.sendOwed; split
  · exact foldl_keeps State.power _ (fun s n => State.msi_power s n) _ s
  · rfl
@[simp] theorem State.sendOwed_mgmt : (s.sendOwed).mgmt = s.mgmt := by
  unfold State.sendOwed; split
  · exact foldl_keeps State.mgmt _ (fun s n => State.msi_mgmt s n) _ s
  · rfl
@[simp] theorem State.sendOwed_regs : (s.sendOwed).regs = s.regs := by
  unfold State.sendOwed; split
  · exact foldl_keeps State.regs _ (fun s n => State.msi_regs s n) _ s
  · rfl
@[simp] theorem State.sendOwed_hiCap : (s.sendOwed).hiCap = s.hiCap := by
  unfold State.sendOwed; split
  · exact foldl_keeps State.hiCap _ (fun s n => State.msi_hiCap s n) _ s
  · rfl
@[simp] theorem State.sendOwed_img : (s.sendOwed).img = s.img := by
  unfold State.sendOwed; split
  · exact foldl_keeps State.img _ (fun s n => State.msi_img s n) _ s
  · rfl
@[simp] theorem State.sendOwed_belay : (s.sendOwed).belay = s.belay := by
  unfold State.sendOwed; split
  · exact foldl_keeps State.belay _ (fun s n => State.msi_belay s n) _ s
  · rfl
@[simp] theorem State.sendOwed_req : (s.sendOwed).req = s.req := by
  unfold State.sendOwed; split
  · exact foldl_keeps State.req _ (fun s n => State.msi_req s n) _ s
  · rfl
@[simp] theorem State.sendOwed_seq : (s.sendOwed).seq = s.seq := by
  unfold State.sendOwed; split
  · exact foldl_keeps State.seq _ (fun s n => State.msi_seq s n) _ s
  · rfl
@[simp] theorem State.sendOwed_srec : (s.sendOwed).srec = s.srec := by
  unfold State.sendOwed; split
  · exact foldl_keeps State.srec _ (fun s n => State.msi_srec s n) _ s
  · rfl
@[simp] theorem State.sendOwed_sealing : (s.sendOwed).sealing = s.sealing := by
  unfold State.sendOwed; split
  · exact foldl_keeps State.sealing _ (fun s n => State.msi_sealing s n) _ s
  · rfl
@[simp] theorem State.sendOwed_slices : (s.sendOwed).slices = s.slices := by
  unfold State.sendOwed; split
  · exact foldl_keeps State.slices _ (fun s n => State.msi_slices s n) _ s
  · rfl
@[simp] theorem State.sendOwed_stations : (s.sendOwed).stations = s.stations := by
  unfold State.sendOwed; split
  · exact foldl_keeps State.stations _ (fun s n => State.msi_stations s n) _ s
  · rfl
@[simp] theorem State.sendOwed_tok : (s.sendOwed).tok = s.tok := by
  unfold State.sendOwed; split
  · exact foldl_keeps State.tok _ (fun s n => State.msi_tok s n) _ s
  · rfl
@[simp] theorem State.sendOwed_groups : (s.sendOwed).groups = s.groups := by
  unfold State.sendOwed; split
  · exact foldl_keeps State.groups _ (fun s n => State.msi_groups s n) _ s
  · rfl
@[simp] theorem State.sendOwed_ports : (s.sendOwed).ports = s.ports := by
  unfold State.sendOwed; split
  · exact foldl_keeps State.ports _ (fun s n => State.msi_ports s n) _ s
  · rfl
@[simp] theorem State.sendOwed_paths : (s.sendOwed).paths = s.paths := by
  unfold State.sendOwed; split
  · exact foldl_keeps State.paths _ (fun s n => State.msi_paths s n) _ s
  · rfl
@[simp] theorem State.sendOwed_brides : (s.sendOwed).brides = s.brides := by
  unfold State.sendOwed; split
  · exact foldl_keeps State.brides _ (fun s n => State.msi_brides s n) _ s
  · rfl
@[simp] theorem State.sendOwed_anc : (s.sendOwed).anc = s.anc := by
  unfold State.sendOwed; split
  · exact foldl_keeps State.anc _ (fun s n => State.msi_anc s n) _ s
  · rfl
@[simp] theorem State.sendOwed_gq : (s.sendOwed).gq = s.gq := by
  unfold State.sendOwed; split
  · exact foldl_keeps State.gq _ (fun s n => State.msi_gq s n) _ s
  · rfl
@[simp] theorem State.sendOwed_cairn : (s.sendOwed).cairn = s.cairn := by
  unfold State.sendOwed; split
  · exact foldl_keeps State.cairn _ (fun s n => State.msi_cairn s n) _ s
  · rfl
@[simp] theorem State.sendOwed_counters : (s.sendOwed).counters = s.counters := by
  unfold State.sendOwed; split
  · exact foldl_keeps State.counters _ (fun s n => State.msi_counters s n) _ s
  · rfl
@[simp] theorem State.sendOwed_hbm : (s.sendOwed).hbm = s.hbm := by
  unfold State.sendOwed; split
  · exact foldl_keeps State.hbm _ (fun s n => State.msi_hbm s n) _ s
  · rfl
@[simp] theorem State.sendOwed_hbmBad : (s.sendOwed).hbmBad = s.hbmBad := by
  unfold State.sendOwed; split
  · exact foldl_keeps State.hbmBad _ (fun s n => State.msi_hbmBad s n) _ s
  · rfl
@[simp] theorem State.sendOwed_store : (s.sendOwed).store = s.store := by
  unfold State.sendOwed; split
  · exact foldl_keeps State.store _ (fun s n => State.msi_store s n) _ s
  · rfl
@[simp] theorem State.sendOwed_scaleHist : (s.sendOwed).scaleHist = s.scaleHist := by
  unfold State.sendOwed; split
  · exact foldl_keeps State.scaleHist _ (fun s n => State.msi_scaleHist s n) _ s
  · rfl
@[simp] theorem State.sendOwed_levelHist : (s.sendOwed).levelHist = s.levelHist := by
  unfold State.sendOwed; split
  · exact foldl_keeps State.levelHist _ (fun s n => State.msi_levelHist s n) _ s
  · rfl
@[simp] theorem State.sendOwed_heatHist : (s.sendOwed).heatHist = s.heatHist := by
  unfold State.sendOwed; split
  · exact foldl_keeps State.heatHist _ (fun s n => State.msi_heatHist s n) _ s
  · rfl
@[simp] theorem State.sendOwed_levelRes : (s.sendOwed).levelRes = s.levelRes := by
  unfold State.sendOwed; split
  · exact foldl_keeps State.levelRes _ (fun s n => State.msi_levelRes s n) _ s
  · rfl
@[simp] theorem State.sendOwed_levelMax : (s.sendOwed).levelMax = s.levelMax := by
  unfold State.sendOwed; split
  · exact foldl_keeps State.levelMax _ (fun s n => State.msi_levelMax s n) _ s
  · rfl
@[simp] theorem State.sendOwed_spikes : (s.sendOwed).spikes = s.spikes := by
  unfold State.sendOwed; split
  · exact foldl_keeps State.spikes _ (fun s n => State.msi_spikes s n) _ s
  · rfl
@[simp] theorem State.sendOwed_saved : (s.sendOwed).saved = s.saved := by
  unfold State.sendOwed; split
  · exact foldl_keeps State.saved _ (fun s n => State.msi_saved s n) _ s
  · rfl
@[simp] theorem State.sendOwed_free : (s.sendOwed).free = s.free := by
  unfold State.sendOwed; split
  · exact foldl_keeps State.free _ (fun s n => State.msi_free s n) _ s
  · rfl

/-! ### countOff -/

@[simp] theorem State.countOff_pending : (s.countOff).pending = s.pending := by
  unfold State.countOff; split
  · rfl
  · refine foldl_keeps State.pending _ (fun s p => ?_) _ s
    rw [foldl_keeps State.pending _ (fun s w => State.bump_pending s _ _ _), State.bump_pending]
@[simp] theorem State.countOff_power : (s.countOff).power = s.power := by
  unfold State.countOff; split
  · rfl
  · refine foldl_keeps State.power _ (fun s p => ?_) _ s
    rw [foldl_keeps State.power _ (fun s w => State.bump_power s _ _ _), State.bump_power]
@[simp] theorem State.countOff_mgmt : (s.countOff).mgmt = s.mgmt := by
  unfold State.countOff; split
  · rfl
  · refine foldl_keeps State.mgmt _ (fun s p => ?_) _ s
    rw [foldl_keeps State.mgmt _ (fun s w => State.bump_mgmt s _ _ _), State.bump_mgmt]
@[simp] theorem State.countOff_regs : (s.countOff).regs = s.regs := by
  unfold State.countOff; split
  · rfl
  · refine foldl_keeps State.regs _ (fun s p => ?_) _ s
    rw [foldl_keeps State.regs _ (fun s w => State.bump_regs s _ _ _), State.bump_regs]
@[simp] theorem State.countOff_hiCap : (s.countOff).hiCap = s.hiCap := by
  unfold State.countOff; split
  · rfl
  · refine foldl_keeps State.hiCap _ (fun s p => ?_) _ s
    rw [foldl_keeps State.hiCap _ (fun s w => State.bump_hiCap s _ _ _), State.bump_hiCap]
@[simp] theorem State.countOff_img : (s.countOff).img = s.img := by
  unfold State.countOff; split
  · rfl
  · refine foldl_keeps State.img _ (fun s p => ?_) _ s
    rw [foldl_keeps State.img _ (fun s w => State.bump_img s _ _ _), State.bump_img]
@[simp] theorem State.countOff_belay : (s.countOff).belay = s.belay := by
  unfold State.countOff; split
  · rfl
  · refine foldl_keeps State.belay _ (fun s p => ?_) _ s
    rw [foldl_keeps State.belay _ (fun s w => State.bump_belay s _ _ _), State.bump_belay]
@[simp] theorem State.countOff_req : (s.countOff).req = s.req := by
  unfold State.countOff; split
  · rfl
  · refine foldl_keeps State.req _ (fun s p => ?_) _ s
    rw [foldl_keeps State.req _ (fun s w => State.bump_req s _ _ _), State.bump_req]
@[simp] theorem State.countOff_seq : (s.countOff).seq = s.seq := by
  unfold State.countOff; split
  · rfl
  · refine foldl_keeps State.seq _ (fun s p => ?_) _ s
    rw [foldl_keeps State.seq _ (fun s w => State.bump_seq s _ _ _), State.bump_seq]
@[simp] theorem State.countOff_sealing : (s.countOff).sealing = s.sealing := by
  unfold State.countOff; split
  · rfl
  · refine foldl_keeps State.sealing _ (fun s p => ?_) _ s
    rw [foldl_keeps State.sealing _ (fun s w => State.bump_sealing s _ _ _), State.bump_sealing]
@[simp] theorem State.countOff_slices : (s.countOff).slices = s.slices := by
  unfold State.countOff; split
  · rfl
  · refine foldl_keeps State.slices _ (fun s p => ?_) _ s
    rw [foldl_keeps State.slices _ (fun s w => State.bump_slices s _ _ _), State.bump_slices]
@[simp] theorem State.countOff_stations : (s.countOff).stations = s.stations := by
  unfold State.countOff; split
  · rfl
  · refine foldl_keeps State.stations _ (fun s p => ?_) _ s
    rw [foldl_keeps State.stations _ (fun s w => State.bump_stations s _ _ _), State.bump_stations]
@[simp] theorem State.countOff_tok : (s.countOff).tok = s.tok := by
  unfold State.countOff; split
  · rfl
  · refine foldl_keeps State.tok _ (fun s p => ?_) _ s
    rw [foldl_keeps State.tok _ (fun s w => State.bump_tok s _ _ _), State.bump_tok]
@[simp] theorem State.countOff_groups : (s.countOff).groups = s.groups := by
  unfold State.countOff; split
  · rfl
  · refine foldl_keeps State.groups _ (fun s p => ?_) _ s
    rw [foldl_keeps State.groups _ (fun s w => State.bump_groups s _ _ _), State.bump_groups]
@[simp] theorem State.countOff_ports : (s.countOff).ports = s.ports := by
  unfold State.countOff; split
  · rfl
  · refine foldl_keeps State.ports _ (fun s p => ?_) _ s
    rw [foldl_keeps State.ports _ (fun s w => State.bump_ports s _ _ _), State.bump_ports]
@[simp] theorem State.countOff_paths : (s.countOff).paths = s.paths := by
  unfold State.countOff; split
  · rfl
  · refine foldl_keeps State.paths _ (fun s p => ?_) _ s
    rw [foldl_keeps State.paths _ (fun s w => State.bump_paths s _ _ _), State.bump_paths]
@[simp] theorem State.countOff_brides : (s.countOff).brides = s.brides := by
  unfold State.countOff; split
  · rfl
  · refine foldl_keeps State.brides _ (fun s p => ?_) _ s
    rw [foldl_keeps State.brides _ (fun s w => State.bump_brides s _ _ _), State.bump_brides]
@[simp] theorem State.countOff_anc : (s.countOff).anc = s.anc := by
  unfold State.countOff; split
  · rfl
  · refine foldl_keeps State.anc _ (fun s p => ?_) _ s
    rw [foldl_keeps State.anc _ (fun s w => State.bump_anc s _ _ _), State.bump_anc]
@[simp] theorem State.countOff_gq : (s.countOff).gq = s.gq := by
  unfold State.countOff; split
  · rfl
  · refine foldl_keeps State.gq _ (fun s p => ?_) _ s
    rw [foldl_keeps State.gq _ (fun s w => State.bump_gq s _ _ _), State.bump_gq]
@[simp] theorem State.countOff_cairn : (s.countOff).cairn = s.cairn := by
  unfold State.countOff; split
  · rfl
  · refine foldl_keeps State.cairn _ (fun s p => ?_) _ s
    rw [foldl_keeps State.cairn _ (fun s w => State.bump_cairn s _ _ _), State.bump_cairn]
@[simp] theorem State.countOff_hbm : (s.countOff).hbm = s.hbm := by
  unfold State.countOff; split
  · rfl
  · refine foldl_keeps State.hbm _ (fun s p => ?_) _ s
    rw [foldl_keeps State.hbm _ (fun s w => State.bump_hbm s _ _ _), State.bump_hbm]
@[simp] theorem State.countOff_hbmBad : (s.countOff).hbmBad = s.hbmBad := by
  unfold State.countOff; split
  · rfl
  · refine foldl_keeps State.hbmBad _ (fun s p => ?_) _ s
    rw [foldl_keeps State.hbmBad _ (fun s w => State.bump_hbmBad s _ _ _), State.bump_hbmBad]
@[simp] theorem State.countOff_store : (s.countOff).store = s.store := by
  unfold State.countOff; split
  · rfl
  · refine foldl_keeps State.store _ (fun s p => ?_) _ s
    rw [foldl_keeps State.store _ (fun s w => State.bump_store s _ _ _), State.bump_store]
@[simp] theorem State.countOff_scaleHist : (s.countOff).scaleHist = s.scaleHist := by
  unfold State.countOff; split
  · rfl
  · refine foldl_keeps State.scaleHist _ (fun s p => ?_) _ s
    rw [foldl_keeps State.scaleHist _ (fun s w => State.bump_scaleHist s _ _ _), State.bump_scaleHist]
@[simp] theorem State.countOff_levelHist : (s.countOff).levelHist = s.levelHist := by
  unfold State.countOff; split
  · rfl
  · refine foldl_keeps State.levelHist _ (fun s p => ?_) _ s
    rw [foldl_keeps State.levelHist _ (fun s w => State.bump_levelHist s _ _ _), State.bump_levelHist]
@[simp] theorem State.countOff_heatHist : (s.countOff).heatHist = s.heatHist := by
  unfold State.countOff; split
  · rfl
  · refine foldl_keeps State.heatHist _ (fun s p => ?_) _ s
    rw [foldl_keeps State.heatHist _ (fun s w => State.bump_heatHist s _ _ _), State.bump_heatHist]
@[simp] theorem State.countOff_levelRes : (s.countOff).levelRes = s.levelRes := by
  unfold State.countOff; split
  · rfl
  · refine foldl_keeps State.levelRes _ (fun s p => ?_) _ s
    rw [foldl_keeps State.levelRes _ (fun s w => State.bump_levelRes s _ _ _), State.bump_levelRes]
@[simp] theorem State.countOff_levelMax : (s.countOff).levelMax = s.levelMax := by
  unfold State.countOff; split
  · rfl
  · refine foldl_keeps State.levelMax _ (fun s p => ?_) _ s
    rw [foldl_keeps State.levelMax _ (fun s w => State.bump_levelMax s _ _ _), State.bump_levelMax]
@[simp] theorem State.countOff_spikes : (s.countOff).spikes = s.spikes := by
  unfold State.countOff; split
  · rfl
  · refine foldl_keeps State.spikes _ (fun s p => ?_) _ s
    rw [foldl_keeps State.spikes _ (fun s w => State.bump_spikes s _ _ _), State.bump_spikes]
@[simp] theorem State.countOff_out : (s.countOff).out = s.out := by
  unfold State.countOff; split
  · rfl
  · refine foldl_keeps State.out _ (fun s p => ?_) _ s
    rw [foldl_keeps State.out _ (fun s w => State.bump_out s _ _ _), State.bump_out]
@[simp] theorem State.countOff_saved : (s.countOff).saved = s.saved := by
  unfold State.countOff; split
  · rfl
  · refine foldl_keeps State.saved _ (fun s p => ?_) _ s
    rw [foldl_keeps State.saved _ (fun s w => State.bump_saved s _ _ _), State.bump_saved]
@[simp] theorem State.countOff_free : (s.countOff).free = s.free := by
  unfold State.countOff; split
  · rfl
  · refine foldl_keeps State.free _ (fun s p => ?_) _ s
    rw [foldl_keeps State.free _ (fun s w => State.bump_free s _ _ _), State.bump_free]

/-! ### settle -/

@[simp] theorem State.settle_pending : (s.settle).pending = s.pending := by
  simp [State.settle]
@[simp] theorem State.settle_power : (s.settle).power = s.power := by
  simp [State.settle]
@[simp] theorem State.settle_hiCap : (s.settle).hiCap = s.hiCap := by
  simp [State.settle]
@[simp] theorem State.settle_img : (s.settle).img = s.img := by
  simp [State.settle]
@[simp] theorem State.settle_belay : (s.settle).belay = s.belay := by
  simp [State.settle]
@[simp] theorem State.settle_req : (s.settle).req = s.req := by
  simp [State.settle]
@[simp] theorem State.settle_sealing : (s.settle).sealing = s.sealing := by
  simp [State.settle]
@[simp] theorem State.settle_stations : (s.settle).stations = s.stations := by
  simp [State.settle]
@[simp] theorem State.settle_tok : (s.settle).tok = s.tok := by
  simp [State.settle]
@[simp] theorem State.settle_groups : (s.settle).groups = s.groups := by
  simp [State.settle]
@[simp] theorem State.settle_brides : (s.settle).brides = s.brides := by
  simp [State.settle]
@[simp] theorem State.settle_anc : (s.settle).anc = s.anc := by
  simp [State.settle]
@[simp] theorem State.settle_gq : (s.settle).gq = s.gq := by
  simp [State.settle]
@[simp] theorem State.settle_cairn : (s.settle).cairn = s.cairn := by
  simp [State.settle]
@[simp] theorem State.settle_hbm : (s.settle).hbm = s.hbm := by
  simp [State.settle]
@[simp] theorem State.settle_hbmBad : (s.settle).hbmBad = s.hbmBad := by
  simp [State.settle]
@[simp] theorem State.settle_store : (s.settle).store = s.store := by
  simp [State.settle]
@[simp] theorem State.settle_scaleHist : (s.settle).scaleHist = s.scaleHist := by
  simp [State.settle]
@[simp] theorem State.settle_levelHist : (s.settle).levelHist = s.levelHist := by
  simp [State.settle]
@[simp] theorem State.settle_heatHist : (s.settle).heatHist = s.heatHist := by
  simp [State.settle]
@[simp] theorem State.settle_levelRes : (s.settle).levelRes = s.levelRes := by
  simp [State.settle]
@[simp] theorem State.settle_levelMax : (s.settle).levelMax = s.levelMax := by
  simp [State.settle]
@[simp] theorem State.settle_spikes : (s.settle).spikes = s.spikes := by
  simp [State.settle]
@[simp] theorem State.settle_saved : (s.settle).saved = s.saved := by
  simp [State.settle]
@[simp] theorem State.settle_free : (s.settle).free = s.free := by
  simp [State.settle]

end Sys2Proof.Machine
end

