-- ==== Sys2Proof/Laws/Memory.lean ====
section
/-! SUPPORT. The two byte memories: every operation keeps the canonical form, and a read after a write gives what was written there
and leaves every other byte. -/

namespace Sys2Proof.Machine

/-- Every listed address of a memory is at least `a`. -/
def Memory.from_ (a : Nat) (m : Memory) : Prop := ∀ c ∈ m, a ≤ c.1

theorem Memory.write_mem (d : Byte) (m : Memory) (a : Nat) (b : Byte) (c : Host.Cell) (h : c ∈ m.write d a b) :
    (c = (a, b) ∧ b ≠ d) ∨ c ∈ m := by
  induction m with
  | nil =>
    simp only [Memory.write] at h
    split at h
    · simp at h
    · exact .inl ⟨by simpa using h, ‹_›⟩
  | cons e m ih =>
    obtain ⟨a', b'⟩ := e
    simp only [Memory.write] at h
    split at h
    · split at h
      · exact .inr h
      · rcases List.mem_cons.1 h with h | h
        · exact .inl ⟨h, ‹_›⟩
        · exact .inr h
    · split at h
      · split at h
        · exact .inr (List.mem_cons_of_mem _ h)
        · rcases List.mem_cons.1 h with h | h
          · exact .inl ⟨h, ‹_›⟩
          · exact .inr (List.mem_cons_of_mem _ h)
      · rcases List.mem_cons.1 h with h | h
        · exact .inr (h ▸ List.mem_cons_self)
        · rcases ih h with h | h
          · exact .inl h
          · exact .inr (List.mem_cons_of_mem _ h)

/-- A write keeps the canonical form. -/
theorem Memory.write_wf (d : Byte) (m : Memory) (a : Nat) (b : Byte) (h : m.wf d) : (m.write d a b).wf d := by
  refine ⟨?_, fun c hc => ?_⟩
  · induction m with
    | nil => simp only [Memory.write]; split <;> simp
    | cons e m ih =>
      obtain ⟨a', b'⟩ := e
      have hm : Memory.wf d m := ⟨(List.pairwise_cons.1 h.1).2, fun c hc => h.2 c (List.mem_cons_of_mem _ hc)⟩
      have hlt := (List.pairwise_cons.1 h.1).1
      simp only [Memory.write]
      split
      · next hlt' =>
        split
        · exact h.1
        · refine List.pairwise_cons.2 ⟨fun c hc => ?_, h.1⟩
          rcases List.mem_cons.1 hc with rfl | hc
          · exact hlt'
          · exact Nat.lt_trans hlt' (hlt c hc)
      · split
        · next heq =>
          split
          · exact hm.1
          · exact List.pairwise_cons.2 ⟨fun c hc => heq ▸ hlt c hc, hm.1⟩
        · next h1 h2 =>
          refine List.pairwise_cons.2 ⟨fun c hc => ?_, ih hm⟩
          rcases Memory.write_mem d m a b c hc with ⟨rfl, -⟩ | hc
          · show a' < a
            omega
          · exact hlt c hc
  · rcases Memory.write_mem d m a b c hc with ⟨rfl, hb⟩ | hc
    · exact hb
    · exact h.2 c hc

/-- Writing bytes keeps the canonical form. -/
theorem Memory.writeN_wf (d : Byte) (bs : List Byte) (m : Memory) (a : Nat) (h : m.wf d) : (m.writeN d a bs).wf d := by
  induction bs generalizing m a with
  | nil => exact h
  | cons b bs ih => exact ih _ _ (Memory.write_wf d m a b h)

/-- Blanking a range keeps the canonical form. -/
theorem Memory.blank_wf (d : Byte) (m : Memory) (a n : Nat) (h : m.wf d) : (m.blank a n).wf d :=
  ⟨h.1.filter _, fun c hc => h.2 c (List.mem_filter.1 hc).1⟩

/-- An address below every listed one reads as an unlisted byte. -/
theorem Memory.read_below (d : Byte) (m : Memory) (a : Nat) (h : ∀ c ∈ m, a < c.1) : m.read d a = d := by
  induction m with
  | nil => rfl
  | cons e m ih =>
    obtain ⟨a', b'⟩ := e
    have := h (a', b') List.mem_cons_self
    simp only [Memory.read, show a ≠ a' by simp only at this; omega, if_false]
    exact ih (fun c hc => h c (List.mem_cons_of_mem _ hc))

/-- What a byte reads as after a write. -/
theorem Memory.read_write (d : Byte) (m : Memory) (a x : Nat) (b : Byte) (h : m.wf d) :
    (m.write d a b).read d x = if x = a then b else m.read d x := by
  induction m with
  | nil =>
    simp only [Memory.write]
    split
    · next hb => simp [Memory.read, hb]
    · simp [Memory.read]
  | cons e m ih =>
    obtain ⟨a', b'⟩ := e
    have hm : Memory.wf d m := ⟨(List.pairwise_cons.1 h.1).2, fun c hc => h.2 c (List.mem_cons_of_mem _ hc)⟩
    have hlt := (List.pairwise_cons.1 h.1).1
    simp only [Memory.write]
    split
    · next hl =>
      split
      · next hb =>
        by_cases hx : x = a
        · subst hx
          rw [if_pos rfl, hb]
          exact Memory.read_below d _ _ (fun c hc => by
            rcases List.mem_cons.1 hc with rfl | hc
            · exact hl
            · exact Nat.lt_trans hl (hlt c hc))
        · simp [hx]
      · simp only [Memory.read]
    · split
      · next heq =>
        subst heq
        split
        · next hb =>
          by_cases hx : x = a
          · subst hx
            rw [if_pos rfl, hb]
            exact Memory.read_below d m x (fun c hc => hlt c hc)
          · simp [Memory.read, hx]
        · by_cases hx : x = a <;> simp [Memory.read, hx]
      · next h1 h2 =>
        simp only [Memory.read]
        by_cases hx : x = a'
        · have : x ≠ a := by omega
          simp [hx, Ne.symm h2]
        · simp [hx, ih hm]

/-- What a byte reads as after bytes are written. -/
theorem Memory.read_writeN (d : Byte) (bs : List Byte) (m : Memory) (a x : Nat) (h : m.wf d) :
    (m.writeN d a bs).read d x = if a ≤ x ∧ x < a + bs.length then bs.getD (x - a) d else m.read d x := by
  induction bs generalizing m a with
  | nil => simp only [Memory.writeN, List.length_nil, Nat.add_zero, show ¬(a ≤ x ∧ x < a) by omega, if_false]
  | cons b bs ih =>
    rw [Memory.writeN, ih _ _ (Memory.write_wf d m a b h), Memory.read_write d m a x b h]
    simp only [List.length_cons]
    by_cases hx : x = a
    · subst hx
      simp only [show ¬(x + 1 ≤ x ∧ x < x + 1 + bs.length) by omega, if_false, if_true, Nat.sub_self, show x ≤ x ∧ x < x + (bs.length + 1) by omega,
        and_self]
      rfl
    · simp only [hx, if_false]
      by_cases hin : a + 1 ≤ x ∧ x < a + 1 + bs.length
      · rw [if_pos hin, if_pos (by omega), show x - a = (x - (a + 1)) + 1 by omega, List.getD_cons_succ]
      · rw [if_neg hin, if_neg (by omega)]

/-- What a byte reads as after a range is blanked. -/
theorem Memory.read_blank (d : Byte) (m : Memory) (a n x : Nat) :
    (m.blank a n).read d x = if a ≤ x ∧ x < a + n then d else m.read d x := by
  induction m with
  | nil => simp [Memory.blank, Memory.read]
  | cons e m ih =>
    obtain ⟨a', b'⟩ := e
    unfold Memory.blank at ih ⊢
    rw [List.filter_cons]
    by_cases hx : x = a'
    · subst hx
      by_cases hin : a ≤ x ∧ x < a + n
      · rw [if_neg (by simp; omega), ih]
        simp only [hin, and_self, if_true]
      · rw [if_pos (by simp; omega)]
        simp only [Memory.read, if_true, hin, if_false]
    · split
      · simp only [Memory.read, hx, if_false]; exact ih
      · rw [ih]; simp only [Memory.read, hx, if_false]

/-- HBM stays canonical through a write. -/
theorem State.hbmWrite_wf (s : State) (a : Nat) (bs : List Byte) (h : s.hbm.wf hbmBlank) : (s.hbmWrite a bs).hbm.wf hbmBlank :=
  Memory.writeN_wf _ _ _ _ h

/-- HBM stays canonical when a range is zeroed. -/
theorem State.zeroRange_wf (s : State) (a n : Nat) (h : s.hbm.wf hbmBlank) : (s.zeroRange a n).hbm.wf hbmBlank :=
  Memory.blank_wf _ _ _ _ h

/-- The pattern store stays canonical when it is programmed. -/
theorem State.storeProgram_wf (s : State) (a : Nat) (bs : List Byte) (h : s.store.wf storeBlank) :
    (s.storeProgram a bs).store.wf storeBlank := Memory.writeN_wf _ _ _ _ h

/-- The pattern store stays canonical when room is erased. -/
theorem State.storeErase_wf (s : State) (a n : Nat) (h : s.store.wf storeBlank) : (s.storeErase a n).store.wf storeBlank :=
  Memory.blank_wf _ _ _ _ h

/-- Both memories are canonical at reset. -/
theorem reset_memories : State.reset.hbm.wf hbmBlank ∧ State.reset.store.wf storeBlank :=
  ⟨⟨.nil, fun _ h => absurd h (by simp [State.reset])⟩, ⟨.nil, fun _ h => absurd h (by simp [State.reset])⟩⟩

end Sys2Proof.Machine
end

