-- ==== Sys2Proof/Laws/Settle.lean ====
section
/-! SUPPORT. The conditions that hold after every command: `settle` establishes `Inv`, and changes nothing where `Inv` holds. -/

namespace Sys2Proof.Machine

/-! ### Links and ports -/

theorem Link.turnOff_turnOff (l : Link) : l.turnOff.turnOff = l.turnOff := rfl

theorem Port.conform_off (q : Port) : (q.conform false).link.st = .off := rfl

theorem Port.conform_on (q : Port) : (q.conform true).link.st ≠ .off := by
  unfold Port.conform; simp only [if_true]; split <;> simp_all

theorem Port.conform_idle (q : Port) : (q.conform false).idle := ⟨rfl, rfl, rfl, rfl⟩

@[simp] theorem Port.conform_disable (m : Bool) (q : Port) : (q.conform m).disable = q.disable := by
  unfold Port.conform; split
  · split <;> rfl
  · rfl

@[simp] theorem Port.conform_windows (m : Bool) (q : Port) : (q.conform m).windows = q.windows := by
  unfold Port.conform; split
  · split <;> rfl
  · rfl

/-- A port that conforms is left as it is. -/
theorem Port.conform_eq (m : Bool) (q : Port) (h : q.link.st = .off ↔ m = false) (k : q.link.st = .off → q.idle) : q.conform m = q := by
  cases m with
  | true => simp [Port.conform, show q.link.st ≠ .off by simpa using h]
  | false =>
    obtain ⟨a, b, c, d⟩ := k (h.2 rfl)
    simp only [Port.conform, Bool.false_eq_true, if_false]
    obtain ⟨l, di, en, wi, gr, ar, de, co, pr, pt, cr, bt, ms, bx, rx, wi'⟩ := q
    simp_all

theorem Link.conformPath_off (l : Link) : (l.conformPath false).st = .off := rfl

theorem Link.conformPath_on (l : Link) : (l.conformPath true).st ≠ .off := by
  unfold Link.conformPath; simp only [if_true]; split <;> simp_all [Link.restart]

/-- A path that conforms is left as it is. -/
theorem Link.conformPath_eq (m : Bool) (l : Link) (h : l.st = .off ↔ m = false) (k : l.st = .off → l.turnOff = l) : l.conformPath m = l := by
  cases m with
  | true => simp [Link.conformPath, show l.st ≠ .off by simpa using h]
  | false => simpa [Link.conformPath] using k (h.2 rfl)

/-! ### Lists -/

theorem mapIdx_eq_self {α : Type} (f : Nat → α → α) (l : List α) (h : ∀ i (hi : i < l.length), f i l[i] = l[i]) : l.mapIdx f = l :=
  List.ext_getElem (by simp) (fun i _ h2 => by simp [h i h2])

theorem map_eq_self {α : Type} (f : α → α) (l : List α) (h : ∀ x ∈ l, f x = x) : l.map f = l := by
  conv => rhs; rw [← List.map_id l]
  exact List.map_congr_left h

theorem getD_eq {α : Type} (l : List α) (d : α) (i : Nat) (h : i < l.length) : l.getD i d = l[i] := by simp [List.getD_eq_getElem?_getD, h]

/-! ### `mayTrain` through `settle` -/

/-- What `mayTrain` reads. -/
theorem State.mayTrain_congr (s t : State) (p : Nat) (h1 : t.power = s.power) (h2 : t.req.waking = s.req.waking)
    (h3 : ∀ i, (t.slice i).fenced = (s.slice i).fenced) (h4 : t.img = s.img) (h5 : t.mgmt.coord = s.mgmt.coord)
    (h6 : (t.port p).disable = (s.port p).disable) (h7 : (t.port p).windows = (s.port p).windows) (h8 : t.brides = s.brides)
    (h9 : t.belay.count = s.belay.count) : t.mayTrain p = s.mayTrain p := by
  simp only [State.mayTrain, State.cabled, State.transferring, State.image, State.coord, State.bride, h1, h2, h3, h4, h5, h6, h7, h8, h9]
  rfl

/-! ### The parts that `settle` changes -/

@[simp] theorem State.msi_out (s : State) (n : Nat) : (s.msi n).out = { s.out with msi := (s.msi n).out.msi } := rfl

/-- An interrupt only appends writes, or waits. -/
theorem State.interrupt_out (s : State) (n : Nat) :
    (s.interrupt n).out = { s.out with msi := (s.interrupt n).out.msi, owed := (s.interrupt n).out.owed } := by
  unfold State.interrupt; split <;> rfl

/-- Setting an interrupt bit changes no output but the interrupt. -/
theorem State.irq_out (s : State) (n : Nat) : (s.irq n).out = { s.out with msi := (s.irq n).out.msi, owed := (s.irq n).out.owed } := by
  unfold State.irq
  dsimp only
  split
  · rfl
  · split
    · rw [State.interrupt_out]; rfl
    · rfl

/-- What a report changes of the outputs. -/
theorem State.report_out (s : State) :
    s.report.out = { s.out with msi := s.report.out.msi, owed := s.report.out.owed, events := s.report.out.events } := by
  unfold State.report
  dsimp only
  split
  · rw [State.irq_out]
  · rfl

theorem State.report_mgmt (s : State) : s.report.mgmt = { s.mgmt with sensors := s.sensorCodes } := by
  unfold State.report; dsimp only; split <;> simp

theorem msis_out (l : List Nat) (s : State) : (l.foldl (fun s n => s.msi n) s).out = { s.out with msi := (l.foldl (fun s n => s.msi n) s).out.msi } := by
  induction l generalizing s with
  | nil => rfl
  | cons n l ih => rw [List.foldl_cons, ih]; rfl

theorem State.sendOwed_out (s : State) : s.sendOwed.out = { s.out with msi := s.sendOwed.out.msi, owed := s.sendOwed.out.owed } := by
  unfold State.sendOwed
  split
  · dsimp only; rw [msis_out]
  · rfl

/-- `settle` changes no output but interrupts and events. -/
theorem State.settle_out (s : State) :
    s.settle.out = { s.out with msi := s.settle.out.msi, owed := s.settle.out.owed, events := s.settle.out.events } := by
  unfold State.settle
  simp only [State.conformPorts_out, State.countOff_out, State.conformPins_out]
  rw [State.sendOwed_out, State.report_out]

@[simp] theorem State.settle_reply (s : State) : s.settle.out.reply = s.out.reply := by rw [State.settle_out]
@[simp] theorem State.settle_ibi (s : State) : s.settle.out.ibi = s.out.ibi := by rw [State.settle_out]
@[simp] theorem State.settle_flagPop (s : State) : s.settle.out.flagPop = s.out.flagPop := by rw [State.settle_out]
@[simp] theorem State.settle_flagOvf (s : State) : s.settle.out.flagOvf = s.out.flagOvf := by rw [State.settle_out]
@[simp] theorem State.settle_irqPop (s : State) : s.settle.out.irqPop = s.out.irqPop := by rw [State.settle_out]
@[simp] theorem State.settle_irqOvf (s : State) : s.settle.out.irqOvf = s.out.irqOvf := by rw [State.settle_out]
@[simp] theorem State.settle_scratch (s : State) : s.settle.out.scratch = s.out.scratch := by rw [State.settle_out]

/-- `settle` takes the state sensors' present states as reported. -/
theorem State.settle_mgmt (s : State) : s.settle.mgmt = { s.mgmt with sensors := s.sensorCodes } := by
  simp [State.settle, State.report_mgmt]

@[simp] theorem State.report_sensorCodes (s : State) : s.report.sensorCodes = s.sensorCodes := by
  simp [State.sensorCodes, State.report_mgmt]

/-- `settle` leaves the sequencers but for the latched pins. -/
theorem State.settle_seq (s : State) : s.settle.seq = { s.seq with
    issue := s.seq.issue.mapIdx (fun i q => if !s.isRunning || (i < 8 && (s.slice i).fenced) then [] else q) } := by
  have h1 : s.report.sendOwed.isRunning = s.isRunning := by simp [State.isRunning]
  have h2 : ∀ i, s.report.sendOwed.slice i = s.slice i := by simp [State.slice]
  simp only [State.settle, State.conformPorts_seq, State.countOff_seq]
  simp only [State.conformPins, h1, h2, State.sendOwed_seq, State.report_seq]

/-- `settle` takes the staging buffers from fenced slices. -/
theorem State.settle_slices (s : State) :
    s.settle.slices = s.slices.map (fun sl => if sl.fenced then { sl with bufs := [] } else sl) := by
  simp [State.settle, State.conformPins]

/-- A slice that is not fenced is left as it is. -/
theorem State.settle_slice (s : State) (i : Nat) (h : (s.slice i).fenced = false) : s.settle.slice i = s.slice i := by
  unfold State.slice at *
  rw [State.settle_slices]
  by_cases hi : i < s.slices.length
  · simp only [List.getD_eq_getElem?_getD, List.getElem?_map, hi, List.getElem?_eq_getElem, Option.map_some, Option.getD_some] at h ⊢
    simp [h]
  · simp [List.getD_eq_getElem?_getD, hi]

theorem State.settle_fenced (s : State) (i : Nat) : (s.settle.slice i).fenced = (s.slice i).fenced := by
  unfold State.slice
  rw [State.settle_slices]
  by_cases hi : i < s.slices.length
  · simp only [List.getD_eq_getElem?_getD, List.getElem?_map, hi, List.getElem?_eq_getElem, Option.map_some, Option.getD_some]
    split <;> rfl
  · simp [List.getD_eq_getElem?_getD, hi]

/-! ### Tables and registers -/

/-- A table after an entry is set. -/
theorem Tab.get_put {β : Type} (d v : β) (t : Tab β) (k j : Nat) : (t.put k v).get d j = if j = k then v else t.get d j := by
  induction t with
  | nil => simp [Tab.put, Tab.get]
  | cons e t ih =>
    obtain ⟨k', v'⟩ := e
    simp only [Tab.put]
    by_cases h1 : k < k'
    · simp [h1, Tab.get]
    · by_cases h2 : k = k'
      · subst h2; simp only [Nat.lt_irrefl, if_false, if_true, Tab.get]; split <;> simp_all
      · simp only [h1, h2, if_false, Tab.get, ih]
        by_cases h3 : j = k'
        · simp [h3, Ne.symm h2]
        · simp [h3]

theorem State.reg_setReg (s : State) (a b v : Nat) : (s.setReg a v).reg b = if b = a then v % 2 ^ 32 else s.reg b := by
  simp only [State.setReg, State.reg, Tab.get_put]

@[simp] theorem State.irq_reg (s : State) (n off : Nat) (h : off ≠ 0xE0) : (s.irq n).reg off = s.reg off := by
  unfold State.irq
  dsimp only
  split
  · rfl
  · split
    · have : ∀ t : State, (t.interrupt n).reg off = t.reg off := fun t => by simp [State.reg]
      rw [this, State.reg_setReg]; simp [h]
    · rw [State.reg_setReg]; simp [h]

/-- `settle` changes no register but GLB_IRQ_STAT. -/
@[simp] theorem State.settle_reg (s : State) (off : Nat) (h : off ≠ 0xE0) : s.settle.reg off = s.reg off := by
  have h1 : s.settle.reg off = s.report.reg off := by simp [State.settle, State.reg]
  rw [h1]
  unfold State.report
  dsimp only
  split
  · exact State.irq_reg s 0 off h
  · rfl

/-! ### `Inv` after `settle` -/

theorem State.conformPorts_port (s : State) (p : Nat) (h : p < s.ports.length) :
    s.conformPorts.port p = (s.port p).conform (s.mayTrain p) := by
  simp [State.conformPorts, State.port, List.getD_eq_getElem?_getD, h]

theorem State.conformPorts_port_out (s : State) (p : Nat) (h : ¬p < s.ports.length) : s.conformPorts.port p = s.port p := by
  simp [State.conformPorts, State.port, List.getD_eq_getElem?_getD, h]

theorem State.conformPorts_mayTrain (s : State) (p : Nat) : s.conformPorts.mayTrain p = s.mayTrain p := by
  have hp : (s.conformPorts.port p).disable = (s.port p).disable ∧ (s.conformPorts.port p).windows = (s.port p).windows := by
    by_cases h : p < s.ports.length
    · simp [State.conformPorts_port s p h]
    · simp [State.conformPorts_port_out s p h]
  exact State.mayTrain_congr _ _ p rfl rfl (fun _ => rfl) rfl rfl hp.1 hp.2 rfl rfl

theorem conformPorts_ports (s : State) : PortsConform s.conformPorts := by
  intro p hp
  have hl : p < s.ports.length := by simpa [State.conformPorts] using hp
  rw [State.conformPorts_port s p hl, State.conformPorts_mayTrain]
  cases s.mayTrain p with
  | true => exact ⟨by simp [Port.conform_on], fun h => absurd h (Port.conform_on _)⟩
  | false => exact ⟨by simp [Port.conform_off], fun _ => Port.conform_idle _⟩

theorem conformPorts_paths (s : State) : PathsConform s.conformPorts := by
  intro i hi
  have hl : i < s.paths.length := by simpa [State.conformPorts] using hi
  have hm : s.conformPorts.paths.getD i Link.reset = (s.paths.getD i Link.reset).conformPath (s.conformPorts.pathMay i) := by
    unfold State.conformPorts
    rw [getD_eq _ _ _ (by simpa using hl), List.getElem_mapIdx, getD_eq _ _ _ hl]
    rfl
  rw [hm]
  cases s.conformPorts.pathMay i with
  | true => exact ⟨by simp [Link.conformPath_on], fun h => absurd h (Link.conformPath_on _)⟩
  | false => exact ⟨by simp [Link.conformPath_off], fun _ => rfl⟩

theorem settle_pins (s : State) : PinsConform s.settle := by
  intro st hst hne
  have hr : s.settle.isRunning = s.isRunning := by simp [State.isRunning]
  rw [State.settle_fenced, hr]
  rw [State.settle_seq] at hst hne
  simp only [List.length_mapIdx] at hst
  simp only [List.getD_eq_getElem?_getD, List.getElem?_mapIdx, hst, List.getElem?_eq_getElem, Option.map_some, Option.getD_some] at hne
  cases hrun : s.isRunning <;> cases hf : (s.slice st).fenced <;> simp_all

theorem settle_owed (s : State) : InterruptsSent s.settle := by
  intro h
  have hc : s.settle.coreUp = s.report.coreUp := by simp [State.coreUp]
  have ho : s.settle.out.owed = s.report.sendOwed.out.owed := by simp [State.settle]
  rw [hc] at h
  rw [ho]
  unfold State.sendOwed
  split
  · rfl
  · next hn => exact Decidable.byContradiction (fun hc => hn ⟨h, hc⟩)

/-- Every command leaves the engine as `Inv` says. -/
theorem settle_inv (s : State) : Inv s.settle where
  ports := conformPorts_ports _
  paths := conformPorts_paths _
  pins := settle_pins s
  staging := by
    intro sl hsl hf
    rw [State.settle_slices, List.mem_map] at hsl
    obtain ⟨x, -, rfl⟩ := hsl
    cases hx : x.fenced <;> simp_all
  sensors := by simp [SensorsConform, State.settle_mgmt, State.sensorCodes]
  interrupts := settle_owed s

/-! ### `settle` where `Inv` holds -/

theorem State.report_of (s : State) (h : SensorsConform s) : s.report = s := by
  have h0 : nth s.mgmt.sensors 0 0 = s.power.st.code := by rw [h]; rfl
  have h1 : (indexed s.sensorCodes).filter (fun e => decide (nth s.sensorCodes e.1 0 ≠ e.2)) = [] := by
    simp [indexed, State.sensorCodes, nth, List.range_succ]
  have h2 : nth s.sensorCodes 0 0 = s.power.st.code := rfl
  unfold State.report
  dsimp only
  rw [h, h1]
  simp only [h2, ne_eq, not_true_eq_false, if_false, List.append_nil, ite_self]
  rw [← h]

theorem State.conformPins_of (s : State) (h : PinsConform s) (k : StagingConform s) : s.conformPins = s := by
  have h1 : s.slices.map (fun sl => if sl.fenced then { sl with bufs := [] } else sl) = s.slices :=
    map_eq_self _ _ (fun sl hsl => by
      split
      · next hf => rw [← k sl hsl hf]
      · rfl)
  have h2 : s.seq.issue.mapIdx (fun i q => if !s.isRunning || (i < 8 && (s.slice i).fenced) then [] else q) = s.seq.issue :=
    mapIdx_eq_self _ _ (fun i hi => by
      split
      · next hc =>
        refine Decidable.byContradiction (fun hne => ?_)
        have := h i hi (by simpa [List.getD_eq_getElem?_getD, hi] using fun e => hne e.symm)
        obtain ⟨ha, hb⟩ := this
        simp only [ha, Bool.not_true, Bool.false_or, Bool.and_eq_true, decide_eq_true_eq] at hc
        simp [hb hc.1] at hc
      · rfl)
  unfold State.conformPins
  rw [h1, h2]

theorem State.countOff_of (s : State) (h : PortsConform s) : s.countOff = s := by
  unfold State.countOff
  split
  · rfl
  · have : (List.range 36).filter (fun p => decide ((s.port p).link.st = .up) && !s.mayTrain p) = [] := by
      rw [List.filter_eq_nil_iff]
      intro p _
      by_cases hp : p < s.ports.length
      · have := (h p hp).1
        cases hm : s.mayTrain p <;> simp_all
      · simp [State.port, List.getD_eq_getElem?_getD, hp, Port.reset, Link.reset]
    simp only [this, List.foldl_nil]

theorem State.conformPorts_of (s : State) (h : PortsConform s) (k : PathsConform s) : s.conformPorts = s := by
  have h1 : s.ports.mapIdx (fun p q => Port.conform (s.mayTrain p) q) = s.ports :=
    mapIdx_eq_self _ _ (fun i hi => by
      have e : s.port i = s.ports[i] := getD_eq _ _ _ hi
      have := h i hi
      rw [e] at this
      exact Port.conform_eq _ _ this.1 this.2)
  have h2 : s.paths.mapIdx (fun i l => Link.conformPath (s.pathMay i) l) = s.paths :=
    mapIdx_eq_self _ _ (fun i hi => by
      have e : s.paths.getD i Link.reset = s.paths[i] := getD_eq _ _ _ hi
      have := k i hi
      rw [e] at this
      exact Link.conformPath_eq _ _ this.1 this.2)
  unfold State.conformPorts
  dsimp only
  rw [h1]
  exact (congrArg (fun x => { s with paths := x }) h2)

/-- Where the conditions hold already, nothing changes. -/
theorem settle_of_inv (s : State) (h : Inv s) : s.settle = s := by
  have ho : s.sendOwed = s := by
    unfold State.sendOwed
    split
    · next hc => exact absurd (h.interrupts hc.1) hc.2
    · rfl
  unfold State.settle
  rw [State.report_of s h.sensors, ho, State.conformPins_of s h.pins h.staging, State.countOff_of s h.ports, State.conformPorts_of s h.ports h.paths]

/-- The answer of a command whose effect keeps the conditions and leaves the queue alone. -/
theorem answer_of_inv (s t : State) (h : Inv t) (k : t.pending = s.pending) : answer s t = .next t := by
  unfold answer
  rw [settle_of_inv t h, ← k]

/-- The answer of a command whose effect leaves the queue alone. -/
theorem answer_settle (s t : State) (k : t.pending = s.pending) : answer s t = .next t.settle := by
  unfold answer
  rw [← k, ← State.settle_pending]

/-- A row that has no effect, where the conditions hold. -/
theorem answer_self (s : State) (h : Inv s) : answer s s = .next s := answer_of_inv s s h rfl

/-- `Inv` reads only the parts named here: it holds of a state that agrees in them. -/
theorem inv_of_eq {s t : State} (h : Inv s) (h1 : t.power = s.power) (h2 : t.req.waking = s.req.waking) (h3 : t.slices = s.slices)
    (h4 : t.img = s.img) (h5 : t.mgmt.coord = s.mgmt.coord) (h6 : t.ports = s.ports) (h7 : t.paths = s.paths)
    (h8 : t.brides = s.brides) (h9 : t.belay.count = s.belay.count) (h10 : t.belay.st = s.belay.st)
    (h11 : t.mgmt.owner = s.mgmt.owner) (h12 : t.mgmt.sensors = s.mgmt.sensors) (h13 : t.seq.issue = s.seq.issue)
    (h14 : t.out.owed = s.out.owed) : Inv t := by
  have hp : ∀ p, t.port p = s.port p := fun p => by simp [State.port, h6]
  have hm : ∀ p, t.mayTrain p = s.mayTrain p := fun p =>
    State.mayTrain_congr s t p h1 h2 (by simp [State.slice, h3]) h4 h5 (by rw [hp]) (by rw [hp]) h8 h9
  have hw : ∀ i, t.pathMay i = s.pathMay i := fun i => by
    simp only [State.pathMay, hp, State.pathCabled, State.coord, State.image, h4, h5]
    rfl
  constructor
  · intro p hp'
    rw [hp, hm]
    exact h.ports p (by simpa [h6] using hp')
  · intro i hi
    rw [hw, h7]
    exact h.paths i (by simpa [h7] using hi)
  · intro st hst hne
    have := h.pins st (by simpa [h13] using hst) (by simpa [h13] using hne)
    simpa [State.isRunning, State.slice, h1, h3] using this
  · intro sl hsl
    exact h.staging sl (by simpa [h3] using hsl)
  · simpa [SensorsConform, State.sensorCodes, h1, h10, h11, h12] using h.sensors
  · simpa [InterruptsSent, State.coreUp, h1, h14] using h.interrupts

/-- The answer of a command whose effect leaves what `Inv` reads. -/
theorem answer_of_eq {s t : State} (h : Inv s) (h1 : t.power = s.power := by rfl) (h2 : t.req.waking = s.req.waking := by rfl)
    (h3 : t.slices = s.slices := by rfl) (h4 : t.img = s.img := by rfl) (h5 : t.mgmt.coord = s.mgmt.coord := by rfl)
    (h6 : t.ports = s.ports := by rfl) (h7 : t.paths = s.paths := by rfl) (h8 : t.brides = s.brides := by rfl)
    (h9 : t.belay.count = s.belay.count := by rfl) (h10 : t.belay.st = s.belay.st := by rfl)
    (h11 : t.mgmt.owner = s.mgmt.owner := by rfl) (h12 : t.mgmt.sensors = s.mgmt.sensors := by rfl)
    (h13 : t.seq.issue = s.seq.issue := by rfl) (h14 : t.out.owed = s.out.owed := by rfl) (k : t.pending = s.pending := by rfl) :
    answer s t = .next t :=
  answer_of_inv s t (inv_of_eq h h1 h2 h3 h4 h5 h6 h7 h8 h9 h10 h11 h12 h13 h14) k

end Sys2Proof.Machine
end

