-- ==== Sys2Proof/Laws/Ops.lean ====
section
/-! SUPPORT. What the shared operations can do, each said once: cairns, masters' writes, the front pin of a stream, received packets. -/

namespace Sys2Proof.Machine

/-- From the answer of a command to a statement about its next state. -/
theorem next_of (c : Instr) (s e : State) (P : State → Prop) (h : exec c s = answer s e) (k : P { e.settle with pending := s.pending }) :
    ∃ t, exec c s = .next t ∧ P t := ⟨_, h, k⟩

/-- What the next state `x` of a command holds, from its effect `e`. -/
structure After (e x : State) : Prop where
  power : x.power = e.power
  mgmt : x.mgmt = { e.mgmt with sensors := e.sensorCodes }
  reg : ∀ off, off ≠ 0xE0 → x.reg off = e.reg off
  seq : x.seq = { e.seq with issue := x.seq.issue }
  issue : e.isRunning = true → ∀ st, (st < 8 → (e.slice st).fenced = false) → x.seq.issue.getD st [] = e.seq.issue.getD st []
  slice : ∀ i, (e.slice i).fenced = false → x.slice i = e.slice i
  fenced : ∀ i, (x.slice i).fenced = (e.slice i).fenced
  srec : ({ x.srec with counts := [] } : StepRec) = { e.srec with counts := [] }
  out : x.out = { e.out with msi := x.out.msi, owed := x.out.owed, events := x.out.events }
  inv : Inv x
  hiCap : x.hiCap = e.hiCap
  img : x.img = e.img
  belay : x.belay = e.belay
  req : x.req = e.req
  sealing : x.sealing = e.sealing
  stations : x.stations = e.stations
  tok : x.tok = e.tok
  groups : x.groups = e.groups
  brides : x.brides = e.brides
  anc : x.anc = e.anc
  gq : x.gq = e.gq
  cairn : x.cairn = e.cairn
  hbm : x.hbm = e.hbm
  hbmBad : x.hbmBad = e.hbmBad
  store : x.store = e.store
  scaleHist : x.scaleHist = e.scaleHist
  levelHist : x.levelHist = e.levelHist
  heatHist : x.heatHist = e.heatHist
  levelRes : x.levelRes = e.levelRes
  levelMax : x.levelMax = e.levelMax
  spikes : x.spikes = e.spikes
  saved : x.saved = e.saved
  free : x.free = e.free

theorem bump_steady (s : State) (off u n : Nat) : ({ (s.bump off u n).srec with counts := [] } : StepRec) = { s.srec with counts := [] } := by
  unfold State.bump
  split
  · rfl
  · simp [State.onRec]

/-- `settle` changes only the counts of the step record. -/
theorem State.settle_rec (s : State) : ({ s.settle.srec with counts := [] } : StepRec) = { s.srec with counts := [] } := by
  have h : ∀ s : State, ({ s.countOff.srec with counts := [] } : StepRec) = { s.srec with counts := [] } := by
    intro s
    unfold State.countOff
    split
    · rfl
    · dsimp only
      apply foldl_keeps (fun s : State => ({ s.srec with counts := [] } : StepRec))
      intro s p
      refine (foldl_keeps (fun s : State => ({ s.srec with counts := [] } : StepRec)) _ ?_ _ _).trans (bump_steady _ _ _ _)
      intro s w
      exact bump_steady _ _ _ _
  simp only [State.settle, State.conformPorts_srec]
  rw [h]
  simp

theorem after_settle (e : State) : After e e.settle where
  inv := settle_inv e
  mgmt := State.settle_mgmt e
  reg := fun off ho => State.settle_reg e off ho
  seq := by rw [State.settle_seq]
  issue := by
    intro hr st hf
    rw [State.settle_seq]
    simp only [List.getD_eq_getElem?_getD, List.getElem?_mapIdx, hr, Bool.not_true, Bool.false_or]
    by_cases h8 : st < 8
    · simp [h8, hf h8]
    · simp [h8]
  slice := fun i hf => State.settle_slice e i hf
  fenced := fun i => State.settle_fenced e i
  srec := State.settle_rec e
  out := State.settle_out e
  power := by simp
  hiCap := by simp
  img := by simp
  belay := by simp
  req := by simp
  sealing := by simp
  stations := by simp
  tok := by simp
  groups := by simp
  brides := by simp
  anc := by simp
  gq := by simp
  cairn := by simp
  hbm := by simp
  hbmBad := by simp
  store := by simp
  scaleHist := by simp
  levelHist := by simp
  heatHist := by simp
  levelRes := by simp
  levelMax := by simp
  spikes := by simp
  saved := by simp
  free := by simp

theorem after_pending (e x : State) (q : List Instr) (h : After e x) : After e { x with pending := q } where
  inv := ⟨h.inv.ports, h.inv.paths, h.inv.pins, h.inv.staging, h.inv.sensors, h.inv.interrupts⟩
  power := h.power
  mgmt := h.mgmt
  reg := h.reg
  seq := h.seq
  issue := h.issue
  slice := h.slice
  fenced := h.fenced
  srec := h.srec
  out := h.out
  hiCap := h.hiCap
  img := h.img
  belay := h.belay
  req := h.req
  sealing := h.sealing
  stations := h.stations
  tok := h.tok
  groups := h.groups
  brides := h.brides
  anc := h.anc
  gq := h.gq
  cairn := h.cairn
  hbm := h.hbm
  hbmBad := h.hbmBad
  store := h.store
  scaleHist := h.scaleHist
  levelHist := h.levelHist
  heatHist := h.heatHist
  levelRes := h.levelRes
  levelMax := h.levelMax
  spikes := h.spikes
  saved := h.saved
  free := h.free

variable {e x : State}
/-! ### Fields of the step record after a command -/

theorem After.srec_step (h : After e x) : x.srec.step = e.srec.step := by have k := congrArg StepRec.step h.srec; exact k
theorem After.srec_variant (h : After e x) : x.srec.variant = e.srec.variant := by have k := congrArg StepRec.variant h.srec; exact k
theorem After.srec_origin (h : After e x) : x.srec.origin = e.srec.origin := by have k := congrArg StepRec.origin h.srec; exact k
theorem After.srec_entries (h : After e x) : x.srec.entries = e.srec.entries := by have k := congrArg StepRec.entries h.srec; exact k
theorem After.srec_entrySum (h : After e x) : x.srec.entrySum = e.srec.entrySum := by have k := congrArg StepRec.entrySum h.srec; exact k
theorem After.srec_status (h : After e x) : x.srec.status = e.srec.status := by have k := congrArg StepRec.status h.srec; exact k
theorem After.srec_stored (h : After e x) : x.srec.stored = e.srec.stored := by have k := congrArg StepRec.stored h.srec; exact k
theorem After.srec_slots (h : After e x) : x.srec.slots = e.srec.slots := by have k := congrArg StepRec.slots h.srec; exact k
theorem After.srec_decision (h : After e x) : x.srec.decision = e.srec.decision := by have k := congrArg StepRec.decision h.srec; exact k
theorem After.srec_drow (h : After e x) : x.srec.drow = e.srec.drow := by have k := congrArg StepRec.drow h.srec; exact k
theorem After.srec_n (h : After e x) : x.srec.n = e.srec.n := by have k := congrArg StepRec.n h.srec; exact k
theorem After.srec_c (h : After e x) : x.srec.c = e.srec.c := by have k := congrArg StepRec.c h.srec; exact k
theorem After.srec_nf (h : After e x) : x.srec.nf = e.srec.nf := by have k := congrArg StepRec.nf h.srec; exact k
theorem After.srec_nfLocal (h : After e x) : x.srec.nfLocal = e.srec.nfLocal := by have k := congrArg StepRec.nfLocal h.srec; exact k
theorem After.srec_lstatus (h : After e x) : x.srec.lstatus = e.srec.lstatus := by have k := congrArg StepRec.lstatus h.srec; exact k
theorem After.srec_shard (h : After e x) : x.srec.shard = e.srec.shard := by have k := congrArg StepRec.shard h.srec; exact k
theorem After.srec_classes (h : After e x) : x.srec.classes = e.srec.classes := by have k := congrArg StepRec.classes h.srec; exact k
theorem After.srec_intake (h : After e x) : x.srec.intake = e.srec.intake := by have k := congrArg StepRec.intake h.srec; exact k
theorem After.srec_dpins (h : After e x) : x.srec.dpins = e.srec.dpins := by have k := congrArg StepRec.dpins h.srec; exact k
theorem After.srec_tokens (h : After e x) : x.srec.tokens = e.srec.tokens := by have k := congrArg StepRec.tokens h.srec; exact k
theorem After.srec_host (h : After e x) : x.srec.host = e.srec.host := by have k := congrArg StepRec.host h.srec; exact k
theorem After.srec_digest (h : After e x) : x.srec.digest = e.srec.digest := by have k := congrArg StepRec.digest h.srec; exact k

/-- A property of the next state, from what it holds. -/
theorem next_after (c : Instr) (s e : State) (P : State → Prop) (h : exec c s = answer s e) (k : ∀ x, After e x → P x) :
    ∃ t, exec c s = .next t ∧ P t :=
  ⟨_, h, k _ (after_pending e e.settle s.pending (after_settle e))⟩

/-- From the answer of a command to the settled state. -/
theorem next_settle (c : Instr) (s e : State) (h : exec c s = answer s e) (k : e.pending = s.pending) : exec c s = .next e.settle :=
  h.trans (answer_settle s e k)

/-! ### Cairns -/

/-- A stamp is that of the belay count, the step record and the suspect windows. -/
theorem State.stamp_congr (s t : State) (h1 : t.power = s.power) (h2 : t.belay = s.belay) (h3 : t.srec.step = s.srec.step) : t.stamp = s.stamp := by
  unfold State.stamp State.isRunning
  rw [h1, h2, h3]

/-- A cairn submitted. -/
theorem State.raise_cairn (s : State) (cls src q a b : Nat) :
    (s.raise cls src q a b).cairn = s.cairn.submit s.power.cycles ⟨cls, src, q, a, b⟩ s.stamp := by
  have h : (State.onRec (s.total (0x300 + 4 * cls) 1) (fun r => { r with classes := r.classes.put cls (r.classes.get 0 cls + 1) })).stamp =
      s.stamp := State.stamp_congr _ _ (by simp) (by simp) (by simp [State.onRec])
  simp only [State.raise, h]
  simp

/-! ### Masters -/

/-- A master that may write, with the supply there. -/
theorem State.may_iff (s : State) (m : Master) (o : Bool) :
    s.may m o = true ↔ s.power.standby = true ∧ (s.owns m = true ∨ (m = .mgmt ∧ o = true)) := by
  cases m <;> cases o <;> simp [State.may]

/-- A master that may write a register of the core domain. -/
theorem State.mayCore_iff (s : State) (m : Master) (o : Bool) : s.mayCore m o = true ↔ s.may m o = true ∧ s.coreUp = true := by
  simp [State.mayCore]

/-! ### Pins -/

/-- What `frontPin` answers, it takes from the front of the stream's latched pins. -/
theorem State.frontPin_some (s : State) (st : Nat) (kind : Pin → Bool) (x : Issue) :
    s.frontPin st kind = some x ↔ s.isRunning = true ∧ s.seq.flights.any (fun f => f.done ≤ s.count) = false ∧ kind x.pin = true ∧
      ∃ rest, s.seq.issue.getD st [] = x :: rest := by
  unfold State.frontPin
  split
  · next h =>
    simp only [Bool.and_eq_true, Bool.not_eq_true'] at h
    split
    · next e =>
      rw [e]
      simp only [reduceCtorEq, false_iff]
      rintro ⟨-, -, -, r, hr⟩
      cases hr
    · next y r e =>
      simp only [e, h, List.cons.injEq, true_and]
      split
      · next hk => simp only [Option.some.injEq]; constructor
                   · rintro rfl; exact ⟨hk, r, rfl, rfl⟩
                   · rintro ⟨-, -, rfl, -⟩; rfl
      · next hk => simp only [reduceCtorEq, false_iff]; rintro ⟨h1, -, rfl, -⟩; exact hk h1
  · next h =>
    simp only [reduceCtorEq, false_iff]
    rintro ⟨h1, h2, -⟩
    exact h (by simp [h1, h2])

/-- The row of a pin, where the stream's front pin is of its kind. -/
theorem State.runPin_some (s : State) (st : Nat) (kind : Pin → Bool) (run : Issue → State → State) (x : Issue) (h : s.frontPin st kind = some x) :
    s.runPin st kind run = run x ((s.unlatch st).noteLast st x) := by
  unfold State.runPin; rw [h]

/-- The row of a pin, where it is not. -/
theorem State.runPin_none (s : State) (st : Nat) (kind : Pin → Bool) (run : Issue → State → State) (h : s.frontPin st kind = none) :
    s.runPin st kind run = s := by
  unfold State.runPin; rw [h]

/-- Outside RUNNING no pin executes (R432). -/
theorem State.frontPin_idle (s : State) (st : Nat) (kind : Pin → Bool) (h : s.isRunning = false) : s.frontPin st kind = none := by
  simp [State.frontPin, h]

end Sys2Proof.Machine
end

