-- ==== Sys2Proof/Tests/Witnesses.lean ====
section
/-! SUPPORT. Small states, and with them one witness for the hypotheses of each clause of each statement. -/

namespace Sys2Proof.Tests

open Sys2Proof Sys2Proof.Machine

set_option Elab.async false

/-! ### States -/

/-- The image of a machine of one package, whose belay root it is. -/
def image : Image :=
  { (default : Image) with
    prickings := [default]
    config := { (default : ConfigSec) with extents := [1, 1, 1, 1], belay := { (default : BelayBlock) with role := 2, hold := 4096 } } }

/-- The engine in a global state, with an image, the receiver LOCKED at a count. -/
def engine (g : GState) (count : Nat) : State :=
  { State.reset with
    power := { State.reset.power with st := g, rail := true, hbmReady := true, cycles := 5000000, phase1 := true, birth := some ⟨1, 2, 3, 4⟩ }
    img := { State.reset.img with run := some image, loaded := true }
    belay := { State.reset.belay with st := .locked, count := count } }

/-- The engine in READY. -/
def ready : State := engine .ready 1000000

/-- The engine in RUNNING. -/
def running : State := engine .running 1000000

/-- The owner, and the cycles of the last heartbeats. -/
def owned (o : Owner) (host mgt : Nat) : State := { ready with mgmt := { ready.mgmt with owner := o, hostHb := host, mgtHb := mgt } }

/-! ### The queue, ownership, heartbeats -/

theorem witness_StepRunsTheFrontCommand : ∃ (s : State) (c : Instr) (rest : List Instr), s.pending = c :: rest :=
  ⟨{ ready with pending := [.glbHb .host, .belayTick] }, .glbHb .host, [.belayTick], rfl⟩

theorem witness_EmptyQueueIsAStandbyCycle : ∃ s : State, Inv s ∧ s.pending = [] := ⟨ready.settle, settle_inv _, by decide +kernel⟩

theorem witness_StepKeepsInv : ∃ s t : State, Inv s ∧ step s = .next t :=
  ⟨{ ready with pending := [.glbHb .mgmt] }.settle, _, settle_inv _, rfl⟩

theorem witness_Ownership :
    (∃ s : State, Inv s ∧ s.power.standby = true ∧ s.mgmt.owner = .released) ∧
    (∃ s : State, Inv s ∧ s.power.standby = true ∧ s.mgmt.owner = .mgmt ∧ s.mgmt.mgtHb + 2500000 = s.power.cycles) ∧
    (∃ s : State, Inv s ∧ s.power.standby = true ∧ s.mgmt.owner = .host ∧ s.mgmt.hostHb + 2500000 = s.power.cycles) ∧
    (∃ s : State, Inv s ∧ s.mgmt.owner = .mgmt ∧ s.power.cycles + 1 = s.mgmt.mgtHb + 2500000) ∧
    (∃ s : State, Inv s ∧ s.mgmt.owner = .host ∧ s.power.cycles + 1 = s.mgmt.hostHb + 2500000 ∧ s.power.standby = true) :=
  ⟨⟨(owned .released 0 0).settle, settle_inv _, by decide +kernel⟩, ⟨(owned .mgmt 0 2500000).settle, settle_inv _, by decide +kernel⟩,
    ⟨(owned .host 2500000 0).settle, settle_inv _, by decide +kernel⟩, ⟨(owned .mgmt 0 2500001).settle, settle_inv _, by decide +kernel⟩,
    ⟨(owned .host 2500001 0).settle, settle_inv _, by decide +kernel⟩⟩

theorem witness_I3cCommands :
    (∃ (s : State) (static : Nat) (b : Birth), Inv s ∧ s.power.standby = true ∧ s.mgmt.da = none ∧ s.power.birth = some b ∧ b.saddr = static) :=
  ⟨ready.settle, 4, ⟨1, 2, 3, 4⟩, settle_inv _, by decide +kernel⟩

theorem witness_Messages : (∃ (s : State) (type : Nat), Inv s ∧ s.power.standby = true ∧ (type = 0 ∨ type = 2)) ∧
    (∃ (s : State) (n : Nat), Inv s ∧ s.power.standby = true ∧ 0 < n ∧ n < 255) ∧
    (∀ record, record < Config.pdrCount → ∃ s : State, Inv s ∧ s.power.standby = true ∧ record < Config.pdrCount) :=
  ⟨⟨ready.settle, 2, settle_inv _, by decide +kernel⟩, ⟨ready.settle, 254, settle_inv _, by decide +kernel⟩,
    fun _ h => ⟨ready.settle, settle_inv _, by decide +kernel, h⟩⟩

theorem witness_SensorsAndStatus : ∃ (s : State) (die : Nat), Inv s ∧ s.power.standby = true ∧ die < 8 :=
  ⟨ready.settle, 7, settle_inv _, by decide +kernel⟩

/-! ### Registers -/

theorem witness_RegisterAccesses :
    (∃ (s : State) (m : Master) (off mask : Nat) (isOpen : Bool), Inv s ∧ plainMask off = some (mask, isOpen) ∧ off % 4 = 0 ∧
      coreOffset off = false ∧ isSeed off = false ∧ s.may m isOpen = true) ∧
    (∃ (s : State) (off mask : Nat) (isOpen : Bool), Inv s ∧ plainMask off = some (mask, isOpen) ∧ off % 4 = 0 ∧
      coreOffset off = false ∧ isSeed off = false ∧ s.may .mgmt isOpen = true) ∧
    (∃ (s : State) (m : Master) (off mask : Nat) (isOpen : Bool), Inv s ∧ plainMask off = some (mask, isOpen) ∧ off % 4 = 0 ∧
      coreOffset off = true ∧ isSeed off = false ∧ s.mayCore m isOpen = true) ∧
    (∃ (s : State) (off size : Nat), Inv s ∧ (size ≠ 4 ∨ off % 4 ≠ 0) ∧ s.power.standby = true) ∧
    (∃ s : State, Inv s ∧ s.power.standby = true ∧ s.hiCap = [] ∧ s.coreUp = true) :=
  ⟨⟨ready.settle, .host, 0xEC, 2 ^ 16 - 1, false, settle_inv _, by decide +kernel⟩,
    ⟨ready.settle, 0x88, 2 ^ 32 - 1, true, settle_inv _, by decide +kernel⟩,
    ⟨ready.settle, .host, 0x10000C, 2 ^ 32 - 1, false, settle_inv _, by decide +kernel⟩,
    ⟨ready.settle, 0x18, 2, settle_inv _, by decide +kernel⟩, ⟨ready.settle, settle_inv _, by decide +kernel⟩⟩

theorem witness_WhoMayWrite :
    (∃ (s : State) (m : Master), Inv s ∧ s.owns m = false) ∧ (∃ s : State, Inv s ∧ s.mgmt.owner ≠ .host) ∧
    (∃ s : State, Inv s ∧ s.power.st = .bivouac) ∧
    (∃ (s : State) (off : Nat), Inv s ∧ 0x500000 ≤ off ∧ off < 0x600000 ∧ s.power.standby = true) :=
  ⟨⟨ready.settle, .mgmt, settle_inv _, by decide +kernel⟩, ⟨(owned .released 0 0).settle, settle_inv _, by decide +kernel⟩,
    ⟨(engine .bivouac 7).settle, settle_inv _, by decide +kernel⟩, ⟨ready.settle, 0x500000, settle_inv _, by decide +kernel⟩⟩

theorem witness_InterruptRegisters :
    (∃ (s : State) (m : Master), Inv s ∧ s.power.standby = true ∧ s.coreUp = true ∧ s.owns m = true ∧ s.out.flagPop = [] ∧ s.out.irqPop = []) ∧
    (∃ (s : State) (i j : Nat) (r q : List Nat), Inv s ∧ s.power.standby = true ∧ s.coreUp = true ∧ s.out.flagPop = i :: r ∧ s.out.irqPop = j :: q) :=
  ⟨⟨ready.settle, .host, settle_inv _, by decide +kernel⟩,
    ⟨{ ready with out := { ready.out with flagPop := [3, 4], irqPop := [5] } }.settle, 3, 5, [4], [], settle_inv _, by decide +kernel⟩⟩

/-! ### Power, loading, resets -/

/-- The core rail down in OFF, after phase 1. -/
def unpowered : State :=
  { State.reset with power := { State.reset.power with storeMode := 1, phase1 := true, birth := some ⟨1, 2, 3, 4⟩, cycles := 5000000 } }

/-- BIVOUAC, with a wake that has or has not begun. -/
def asleep (waking rail : Bool) (count : Nat) : State :=
  { engine .bivouac count with
    power := { (engine .bivouac count).power with prior := .ready, rail := rail }
    req := { State.reset.req with entryAt := 100, waking := waking, wakeOn := true, wake := 1, wakeAt := 600000 }
    saved := some ⟨[], Anchors.reset, [], [], []⟩ }

theorem witness_SettleFrame :
    (∃ (s : State) (st off : Nat), s.isRunning = true ∧ st < 8 ∧ (s.slice st).fenced = false ∧ off ≠ 0xE0) :=
  ⟨running, 7, 0xE4, by decide +kernel⟩

theorem witness_SupplyCommands :
    (∃ s : State, s.power.standby = true ∧ s.power.rail = false ∧ s.power.st = .off ∧ s.power.phase1 = true ∧ s.power.birth.isSome = true ∧
      s.power.storeMode ≠ 3 ∧ s.power.hbmReady = false) ∧
    (∃ s : State, s.power.standby = true ∧ s.power.rail = false ∧ s.power.st = .bivouac ∧ s.req.waking = true) :=
  ⟨⟨unpowered, by decide +kernel⟩, ⟨asleep true false 600000, by decide +kernel⟩⟩

/-- A VALID copy needs a signature under a key, which no state can be shown to hold: it is taken as given. -/
theorem witness_Loading :
    (∀ s : State, State.copyClass { s with power := { s.power with
        standby := true, st := .loading, loadCopy := 1, key := s.readKey, phase := 4, hbmReady := true } } false = .valid →
      ∃ (s u : State) (b : Bool), s.power.standby = true ∧ s.power.st = .loading ∧
        u = { s with power := { s.power with key := s.readKey, phase := 4, hbmReady := true } } ∧ u.chooseCopy s.power.loadCopy = .copy b []) ∧
    (∃ (s : State) (phase : Nat), s.power.standby = true ∧ s.power.st = .loading ∧ (phase = 2 ∨ phase = 3)) :=
  ⟨fun s h => ⟨{ s with power := { s.power with standby := true, st := .loading, loadCopy := 1 } }, _, false, rfl, rfl, rfl, (if_pos (Or.inl rfl)).trans (if_pos h)⟩,
    ⟨engine .loading 5, 3, by decide +kernel⟩⟩

theorem witness_SupplyMonitor :
    (∃ (s : State) (die mv : Nat), s.power.standby = true ∧ die < 8 ∧ s.power.rail = true ∧ 540 ≤ mv ∧ mv < 565 ∧
      s.power.suspects.any (fun w => w.die == die) = false ∧ s.isRunning = false ∧ s.power.st ≠ .bivouac ∧ s.req.entering = none) ∧
    (∃ (s : State) (die mv : Nat) (w : Suspect), s.power.standby = true ∧ die < 8 ∧ s.power.rail = true ∧ 540 ≤ mv ∧ mv < 565 ∧
      s.power.suspects.any (fun w => w.die == die) = true ∧ nth s.power.warn die false = true ∧
      s.power.suspects.find? (fun x => x.die = die) = some w) ∧
    (∃ (s : State) (die mv : Nat), s.power.standby = true ∧ die < 8 ∧ s.power.rail = true ∧ mv < 540 ∧ s.power.st ≠ .off ∧
      s.power.suspects = [] ∧ s.img.staging.st ≠ 1) :=
  ⟨⟨ready, 7, 564, by decide +kernel⟩,
    ⟨{ ready with power := { ready.power with warn := ready.power.warn.set 7 true, suspects := [⟨7, 5, 560, true, 0⟩] } }, 7, 540, ⟨7, 5, 560, true, 0⟩,
      by decide +kernel⟩,
    ⟨ready, 0, 539, by decide +kernel⟩⟩

theorem witness_Resets :
    (∃ (s : State) (m : Master), s.power.standby = true ∧ s.power.st ≠ .off ∧ s.img.staging.st ≠ 1 ∧ s.may m true = true) ∧
    (∃ (s : State) (m : Master), Inv s ∧ s.power.standby = true ∧ s.may m false = true ∧ s.mgmt.mgtHb + 2500000 = s.power.cycles) ∧
    (∃ s : State, Inv s ∧ s.power.standby = true ∧ s.power.cycles + 1 = s.mgmt.mgtHb + 2500000) :=
  ⟨⟨ready, .mgmt, by decide +kernel⟩, ⟨(owned .host 0 2500000).settle, .host, settle_inv _, by decide +kernel⟩,
    ⟨(owned .host 0 2500001).settle, settle_inv _, by decide +kernel⟩⟩

/-! ### Launch, stop, bivouac, wake, ticks and origins -/

/-- A state with a 64-bit register set. -/
def armed (s : State) (off v : Nat) : State := s.setReg64 off v

theorem witness_LaunchAndStop :
    (∃ (s : State) (m : Master), Inv s ∧ s.may m false = true ∧ s.power.st = .ready ∧ s.req.entering = none ∧
      (∀ g ∈ s.image.namedGroups, (s.groupQ g).st = 2) ∧ s.belay.st = .locked ∧ s.belay.count + 62500 = s.reg64 0x10010 ∧
      s.reg64 0x10010 ≤ s.belay.count + 2 ^ 38) ∧
    (∃ (s : State) (m : Master), Inv s ∧ s.may m false = true ∧ s.req.launchOn = true ∧ s.belay.count + 65 = s.req.launchAt) ∧
    (∃ (s : State) (m : Master), Inv s ∧ s.may m false = true ∧ s.req.launchAt = s.belay.count + 64) ∧
    (∃ (s : State) (m : Master), Inv s ∧ s.may m false = true ∧ s.power.st = .running ∧ s.belay.count + 64 = s.originOf (s.reg48 0x30)) ∧
    (∃ (s : State) (m : Master), Inv s ∧ s.may m false = true ∧ s.power.st = .running ∧ s.originOf (s.reg48 0x30) + 1 = s.belay.count + 64) ∧
    (∃ (s : State) (m : Master), Inv s ∧ s.may m false = true ∧ s.power.st ≠ .ready ∧ s.power.st ≠ .running) :=
  ⟨⟨(armed ready 0x10010 1062500).settle, .host, settle_inv _, by decide +kernel⟩,
    ⟨{ ready with req := { ready.req with launchOn := true, launch := 1, launchAt := 1000065 } }.settle, .host, settle_inv _, by decide +kernel⟩,
    ⟨{ ready with req := { ready.req with launchOn := true, launch := 1, launchAt := 1000064 } }.settle, .host, settle_inv _, by decide +kernel⟩,
    ⟨{ running with seq := { running.seq with origin := 1000064 } }.settle, .host, settle_inv _, by decide +kernel⟩,
    ⟨{ running with seq := { running.seq with origin := 1000063 } }.settle, .host, settle_inv _, by decide +kernel⟩,
    ⟨(engine .held 5).settle, .host, settle_inv _, by decide +kernel⟩⟩

theorem witness_BivouacCommands :
    (∃ (s : State) (m : Master) (step : Nat), Inv s ∧ s.may m true = true ∧ s.power.st = .running ∧ s.req.entering = none ∧ s.reg64 0x88 = 0 ∧
      s.seq.step < s.reg48 0x38 ∧ s.belay.count + 64 < s.originOf (s.reg48 0x38) ∧ s.power.standby = true ∧ s.seq.step < step ∧
      step < 2 ^ 48 ∧ s.belay.count + 64 < s.originOf step) ∧
    (∃ (s : State) (m : Master), Inv s ∧ s.may m true = true ∧ s.power.st ≠ .running ∧ s.power.st ≠ .ready) ∧
    (∃ (s : State) (m : Master) (wake : Nat), Inv s ∧ s.power.st = .bivouac ∧ s.req.waking = false ∧ s.req.wakeOn = false ∧
      s.may m true = true ∧ s.req.entryAt + 500000 ≤ s.reg64 0x88 ∧ s.belay.count + 62500 = s.reg64 0x88 ∧ s.power.standby = true ∧
      wake < 2 ^ 64 ∧ s.req.entryAt + 500000 ≤ wake ∧ s.belay.count + 62500 ≤ wake) ∧
    (∃ (s : State) (wake : Nat), Inv s ∧ s.power.st = .bivouac ∧ s.req.waking = false ∧ s.req.wakeOn = false ∧ s.power.standby = true ∧
      wake + 1 = s.req.entryAt + 500000 ∧ wake < 2 ^ 64) ∧
    (∃ s : State, s.entryQuiet = true) ∧
    (∃ s : State, s.power.st = .bivouac ∧ s.req.wakeOn = true ∧ s.req.waking = false ∧ s.req.wakeAt = s.belay.count) ∧
    (∃ s : State, s.power.st = .bivouac ∧ s.req.wakeOn = true ∧ s.req.waking = true ∧ s.power.rail = false ∧ s.img.staging.st ≠ 1 ∧
      s.req.wakeAt + 20000 = s.belay.count) ∧
    (∃ (s : State) (a : SaveArea), s.power.st = .bivouac ∧ s.req.wakeOn = true ∧ s.req.waking = true ∧ s.power.rail = true ∧ s.saved = some a ∧
      s.fencedSlices = [] ∧ (∀ e ∈ a.gq, e.2.bivSusp = false) ∧ s.req.wakeAt + 60000 = s.belay.count) :=
  ⟨⟨{ (armed running 0x38 3) with seq := { running.seq with origin := 1000065 } }.settle, .mgmt, 1, settle_inv _, by decide +kernel⟩,
    ⟨(engine .held 5).settle, .mgmt, settle_inv _, by decide +kernel⟩,
    ⟨{ (armed (engine .bivouac 600000) 0x88 662500) with req := { State.reset.req with entryAt := 162500 } }.settle, .host, 662500,
      settle_inv _, by decide +kernel⟩,
    ⟨{ (engine .bivouac 600000) with req := { State.reset.req with entryAt := 162500 } }.settle, 662499, settle_inv _, by decide +kernel⟩,
    ⟨{ ready with req := { ready.req with entering := some 750000 } }, by decide +kernel⟩,
    ⟨asleep false false 600000, by decide +kernel⟩, ⟨asleep true false 620000, by decide +kernel⟩,
    ⟨asleep true true 660000, ⟨[], Anchors.reset, [], [], []⟩, by decide +kernel⟩⟩

/-- RUNNING at a step origin, the step before ended. -/
def origin (fences : List Nat) : State :=
  { running with
    seq := { running.seq with next := 1, step := 1, nextOrigin := 1000000 }
    slices := (List.range 8).map (fun i => if i ∈ fences then { Slice.reset with fenced := true } else Slice.reset) }

theorem witness_TicksAndOrigins :
    (∃ s : State, Inv s ∧ s.countRuns = true ∧ s.workDue = false ∧ s.seq.running = false ∧ s.gq = [] ∧ s.isRunning = false ∧
      s.belay.st ≠ .stalled ∧ s.power.standby = true) ∧
    (∃ s : State, Inv s ∧ s.belay.st = .stalled ∧ s.countRuns = false) ∧ (∃ s : State, Inv s ∧ s.workDue = true) ∧
    (∃ s : State, s.launchDue = true ∧ (∀ g ∈ s.image.namedGroups, (s.groupQ g).st = 2) ∧ s.img.launched = true) ∧
    (∃ s : State, s.launchDue = true ∧ (∃ g ∈ s.image.namedGroups, (s.groupQ g).st ≠ 2)) ∧
    (∃ s : State, s.originDue = true ∧ s.belay.st = .locked ∧ s.seq.next ≤ s.seq.step ∧ s.fencedSlices = [] ∧ s.req.replay = false ∧
      s.img.rethread ≠ 1 ∧ s.req.stopOn = false ∧ s.req.bivOn = false) ∧
    (∃ s : State, s.originDue = true ∧ s.belay.st = .locked ∧ s.seq.next ≤ s.seq.step ∧ s.fencedSlices.length = 2 ∧ s.req.replay = false) :=
  ⟨⟨ready.settle, settle_inv _, by decide +kernel⟩,
    ⟨{ ready with belay := { ready.belay with st := .stalled } }.settle, settle_inv _, by decide +kernel⟩,
    ⟨(origin []).settle, settle_inv _, by decide +kernel⟩,
    ⟨{ ready with req := { ready.req with launchOn := true, launchAt := 1000000 }, img := { ready.img with launched := true } }, by decide +kernel⟩,
    ⟨{ ready with
        req := { ready.req with launchOn := true, launchAt := 1000000 }
        img := { ready.img with run := some { image with prickings := [{ (default : Pricking) with
          streams := [[{ (default : Pin) with op := 2, group := 3 }]] }] } } }, by decide +kernel⟩,
    ⟨origin [], by decide +kernel⟩, ⟨origin [0, 7], by decide +kernel⟩⟩

/-! ### Pins -/

/-- A pin that names no group, pitch 0 and chunk 0. -/
def pin (op portq buf arg : Nat) : Pin := { (default : Pin) with op := op, portq := portq, buf := buf, arg := arg }

/-- The pin latched at its tick. -/
def latched (p : Pin) : Issue := ⟨p, 0, 0, false, 1000000, false⟩

/-- A chunk of four elements of W16. -/
def four : Chunk := { (default : Chunk) with fmt := 9, elems := 4, data := List.replicate 8 1 }

/-- A pitch record of scatter chunks of four W16 elements, or of chunks of another kind. -/
def pitchOf (kind : Nat) : Pitch := { (default : Pitch) with kind := kind, format := 9, owidth := 9, chunks := 1, csize := 1 }

/-- The image with a pricking of one pitch, whose chunks carry units of tensor 0. -/
def imageOf (r : Pitch) : Image :=
  { image with
    prickings := [{ (default : Pricking) with pitches := [r], pmap := [{ (default : PMapEnt) with count := 1 }] }]
    policy := [(0, { (default : Policy) with mode := 1, hist := 8, unit := 31, slices := 1, elems := 4096 })] }

/-- RUNNING in its step section with a pin latched on a stream. -/
def latchIn (im : Image) (st : Nat) (p : Pin) : State :=
  { running with
    img := { running.img with run := some im }
    seq := { running.seq with running := true, issue := running.seq.issue.set st [latched p] } }

/-- The same under the image of a pitch. -/
def latch (r : Pitch) (st : Nat) (p : Pin) : State := latchIn (imageOf r) st p

/-- With a buffer of a slice READY. -/
def withBuf (s : State) (sl unit : Nat) (c : Chunk) : State := s.onSlice sl (fun x => { x with bufs := x.bufs.put unit ⟨2, .ready, c, none, 0, false⟩ })

theorem witness_PinsAtTheirTicks :
    (∃ (s : State) (st : Nat) (x : Issue) (r : Res), r ∈ pinRes st x.pin ∧ 0 < s.latency st x.pin) ∧ (∃ s : State, Inv s ∧ s.power.st ≠ .running) :=
  ⟨⟨latch (pitchOf 0) 0 (pin 4 0 2 noBuffer), 0, latched (pin 4 0 2 noBuffer), .movers 0, by decide +kernel⟩, ⟨ready.settle, settle_inv _, by decide +kernel⟩⟩

theorem witness_EnginePinsAndSeals :
    (∀ op ∈ [0, 15, 16, 17], ∃ (s : State) (x : Issue), PinDue s 9 x [] ∧ x.pin.op = op ∧ s.relaxed = false) ∧
    (∀ n ∈ [0, 1], ∃ (s : State) (x : Issue), PinDue s 9 x [] ∧ x.pin.op = 16 ∧ s.relaxed = true ∧ s.seq.doorbells = n) ∧
    (∃ (s : State) (x : Issue), PinDue s 9 x [] ∧ x.pin.op = 17 ∧ s.srec.decision.isSome = true ∧ (Taken s 9 x).lateCairns = Taken s 9 x ∧
      ∀ h ∈ s.seq.holds, h.res ≠ .seal) ∧
    (∃ (s : State) (f : Flight) (r : StepRec), s.dueSeal = some f ∧ s.sealing = r :: []) := by
  refine ⟨?_, ?_, ⟨{ latch (pitchOf 0) 9 (pin 17 0 0 0) with srec := { StepRec.reset with decision := some 0 } }, latched (pin 17 0 0 0), ?_⟩,
    ⟨{ running with
        seq := { running.seq with flights := [⟨1000000, 9, 0, 0, pin 17 0 0 0, false, 997952, []⟩] }
        sealing := [StepRec.reset] }, ⟨1000000, 9, 0, 0, pin 17 0 0 0, false, 997952, []⟩, StepRec.reset, by decide +kernel⟩⟩
  · intro op _
    exact ⟨latch (pitchOf 0) 9 (pin op 0 0 0), latched (pin op 0 0 0), ⟨rfl, (fun _ h => nomatch h), rfl, rfl, rfl⟩, rfl, rfl⟩
  · intro n _
    exact ⟨{ latch (pitchOf 0) 9 (pin 16 0 0 0) with
        img := { running.img with run := some { image with config := { image.config with gate := true } } }
        seq := { (latch (pitchOf 0) 9 (pin 16 0 0 0)).seq with doorbells := n } }, latched (pin 16 0 0 0), ⟨rfl, (fun _ h => nomatch h), rfl, rfl, rfl⟩, rfl, rfl, rfl⟩
  · unfold PinDue; decide +kernel

theorem witness_Sends :
    (∃ (s u : State) (x : Issue) (c : Chunk), PinDue s 0 x [] ∧ u = Taken s 0 x ∧ u.portBusy 0 x = false ∧ x.pin.isSend 0 = true ∧
      x.pin.portq ≠ 36 ∧ u.resBusy (pinRes 0 x.pin) = false ∧ Holds u 0 x.pin.buf c) ∧
    (∀ n ∈ [1, 2, 3], ∃ (s u : State) (x : Issue), PinDue s 0 x [] ∧ u = Taken s 0 x ∧ u.portBusy 0 x = false ∧ x.pin.isSend n = true ∧
      ((u.takePort 0 x).slice 0).prusik = []) ∧
    (∃ (s u : State) (x : Issue), PinDue s 0 x [] ∧ u = Taken s 0 x ∧ u.portBusy 0 x = false ∧ x.pin.isMemSend = true ∧
      x.pin.portq ≠ 36 ∧ u.resBusy [.movers 0] = false ∧ ∃ c, (u.takePort 0 x).memChunk x.pin = some c) := by
  refine ⟨⟨withBuf (latch (pitchOf 1) 0 (pin 1 35 2 0)) 0 2 four, _, latched (pin 1 35 2 0), four, ?_, rfl, ?_⟩, ?_,
    ⟨latch { pitchOf 1 with format := 0 } 0 { pin 1 35 0 0 with aux := true }, _, latched { pin 1 35 0 0 with aux := true }, ?_, rfl, ?_⟩⟩
  · unfold PinDue; decide +kernel
  · refine ⟨by decide +kernel, by decide +kernel, by decide +kernel, by decide +kernel, ⟨_, rfl, rfl, rfl⟩, by decide +kernel⟩
  · intro n hn
    refine ⟨latch (pitchOf 1) 0 (pin 1 35 2 n), _, latched (pin 1 35 2 n), ⟨rfl, (fun _ h => nomatch h), rfl, rfl, rfl⟩, rfl, ?_⟩
    revert n; decide +kernel
  · unfold PinDue; decide +kernel
  · exact ⟨by decide +kernel, by decide +kernel, by decide +kernel, by decide +kernel, Option.isSome_iff_exists.mp (by decide +kernel)⟩

/-- What the first EXPECT of a pin opens, before its own contribution. -/
def opened (p : Pin) (own : Option Chunk) : Opening :=
  { pitch := p.pitch, chunk := p.chunk, buf := p.buf, step := 0, ports := [p.portq], coded := p.coded, scatter := true, own := own,
    ownMissing := false, loaded := own.isSome, inputs := [], fails := [], slots := [], void := false, reduced := false, final := false }

/-- With a chunk open on a slice. -/
def withOpen (s : State) (sl : Nat) (o : Opening) : State := s.onSlice sl (fun x => { x with opens := [o] })

theorem witness_Expects :
    (∃ (s u : State) (x : Issue) (q : Opening), PinDue s 0 x [] ∧ u = Taken s 0 x ∧ x.pin.op = 2 ∧ u.openOf 0 x.pin.pitch x.pin.chunk = some q) ∧
    (∃ (s u : State) (x : Issue) (r : Pitch), PinDue s 0 x [] ∧ u = Taken s 0 x ∧ x.pin.op = 2 ∧ r = u.pitchOf x.pin ∧
      u.openOf 0 x.pin.pitch x.pin.chunk = none ∧ (u.slice 0).unitsFree x.pin.buf r.expectUnits = true ∧ (u.slice 0).carry = [] ∧
      x.pin.arg = noBuffer ∧ u.arrayBehind 0 0 = false ∧ r.kind ≠ 0) ∧
    (∃ (s u : State) (x : Issue) (r : Pitch) (c : Chunk), PinDue s 0 x [] ∧ u = Taken s 0 x ∧ x.pin.op = 2 ∧ r = u.pitchOf x.pin ∧
      u.openOf 0 x.pin.pitch x.pin.chunk = none ∧ (u.slice 0).unitsFree x.pin.buf r.expectUnits = true ∧ (u.slice 0).carry = [] ∧
      x.pin.arg ≠ noBuffer ∧ u.arrayBehind 0 (elemAdds r.owidth r.elems) = false ∧ r.kind = 0 ∧ Holds u 0 x.pin.arg c ∧ c.null = false) := by
  refine ⟨⟨withOpen (latch (pitchOf 0) 0 (pin 2 2 2 noBuffer)) 0 (opened (pin 2 2 2 noBuffer) none), _, latched (pin 2 2 2 noBuffer), _, ?_, rfl, rfl, rfl⟩,
    ⟨latch (pitchOf 1) 0 (pin 2 2 2 noBuffer), _, latched (pin 2 2 2 noBuffer), _, ?_, rfl, rfl, rfl, ?_⟩,
    ⟨withBuf (latch (pitchOf 0) 0 (pin 2 2 2 0)) 0 0 four, _, latched (pin 2 2 2 0), _, four, ?_, rfl, rfl, rfl, ?_⟩⟩
  · unfold PinDue; decide +kernel
  · unfold PinDue; decide +kernel
  · decide +kernel
  · unfold PinDue; decide +kernel
  · refine ⟨by decide +kernel, by decide +kernel, by decide +kernel, by decide +kernel, by decide +kernel, by decide +kernel,
      ⟨⟨_, rfl, rfl, rfl⟩, by decide +kernel⟩, rfl⟩

/-- The image with a memory descriptor. -/
def imageMem (r : Pitch) (md : MDesc) : Image :=
  { imageOf r with prickings := (imageOf r).prickings.map (fun p => { p with mdescs := [md, md] }) }

theorem witness_Reductions :
    (∃ (s u : State) (x : Issue) (r : Pitch) (o : Opening) (ins : List Input), PinDue s 0 x [] ∧ u = Taken s 0 x ∧ x.pin.op = 3 ∧
      r = u.pitchOf x.pin ∧ o.pitch = x.pin.pitch ∧ u.openOf 0 x.pin.pitch x.pin.chunk = some o ∧ u.arrayBehind 0 (elemAdds r.owidth r.elems) = false ∧
      o.void = false ∧ (∃ b, u.buf 0 o.buf = some b ∧ b.st ≠ .filling) ∧
      (u.slotSources r o.chunk o.loaded).map (fun k => o.inputs.find? (fun i => i.rank = k ∧ !i.carried)) = ins.map some ∧
      (∀ i ∈ o.inputs, i.carried = false) ∧ (∃ e, u.pitchExp o.pitch o.chunk = some e) ∧
      ∀ e w l, ∃ c, (formOutput r u.seq.step e w l o.ownMissing o.own ins).chunk = some c) ∧
    (∃ (s u : State) (x : Issue) (o : Opening), PinDue s 0 x [] ∧ u = Taken s 0 x ∧ x.pin.op = 3 ∧ o.pitch = x.pin.pitch ∧
      u.openOf 0 x.pin.pitch x.pin.chunk = some o ∧ u.arrayBehind 0 (elemAdds (u.pitchOf x.pin).owidth (u.pitchOf x.pin).elems) = false ∧ o.void = true) := by
  refine ⟨⟨withOpen (withBuf (latch (pitchOf 0) 0 (pin 3 0 2 noBuffer)) 0 2 four) 0 (opened (pin 3 0 2 noBuffer) (some four)), _,
      latched (pin 3 0 2 noBuffer), _, opened (pin 3 0 2 noBuffer) (some four), [], ⟨rfl, (fun _ h => nomatch h), rfl, rfl, rfl⟩, rfl, rfl, rfl, rfl, ?_⟩,
    ⟨withOpen (latch (pitchOf 0) 0 (pin 3 0 2 noBuffer)) 0 { opened (pin 3 0 2 noBuffer) none with void := true }, _,
      latched (pin 3 0 2 noBuffer), _, ⟨rfl, (fun _ h => nomatch h), rfl, rfl, rfl⟩, rfl, rfl, rfl, rfl, by decide +kernel⟩⟩
  refine ⟨by decide +kernel, by decide +kernel, rfl, ⟨⟨2, .ready, four, none, 0, false⟩, by decide +kernel, nofun⟩, by decide +kernel, by decide +kernel,
    Option.isSome_iff_exists.mp (by decide +kernel), fun e w l => ⟨_, rfl⟩⟩

theorem witness_Requants :
    ∃ (s u : State) (x : Issue) (c : Chunk) (e : PMapEnt) (sh : Nat), PinDue s 0 x [] ∧ u = Taken s 0 x ∧ x.pin.op = 4 ∧ u.resBusy [.movers 0] = false ∧
      u.arrayBehind 0 (elemAdds (u.pitchOf x.pin).owidth (u.pitchOf x.pin).elems) = false ∧ Holds u 0 x.pin.buf c ∧
      u.pricking.payload x.pin.pitch x.pin.chunk = some e ∧ u.levelShift e.tensor e.unit = some sh ∧ c.null = false :=
  ⟨withBuf (latch (pitchOf 0) 0 (pin 4 0 2 0)) 0 2 four, _, latched (pin 4 0 2 0), four, { (default : PMapEnt) with count := 1 }, 0,
    ⟨rfl, (fun _ h => nomatch h), rfl, rfl, rfl⟩, rfl, rfl, by decide +kernel, by decide +kernel, ⟨⟨_, rfl, rfl, rfl⟩, by decide +kernel⟩, rfl,
    by decide +kernel, rfl⟩

theorem witness_ExactSummation :
    (∃ (r : Pitch) (own : Option Chunk) (live : List Chunk) (n : Nat), r.routed = false ∧ (r.owidth = 8 ∨ r.owidth = 9 ∨ r.owidth = 10 ∨ r.owidth = 11) ∧
      live = (own.toList ++ ([] : List Input).map (·.chunk)).filter (fun c => !c.null) ∧ live ≠ [] ∧ ∀ c ∈ live, c.ints.length = n) ∧
    (∃ a b : List Input, a ≠ b ∧ a.Perm b) :=
  ⟨⟨pitchOf 0, some four, [four], 4, by decide +kernel⟩,
    ⟨[⟨0, 0, four, false⟩, ⟨1, 0, four, false⟩], [⟨1, 0, four, false⟩, ⟨0, 0, four, false⟩], by decide +kernel, .swap _ _ _⟩⟩

/-- With the main set of tensor 0 settled and sent. -/
def selected (s : State) : State :=
  s.onSlice 0 (fun x => { x with tensors := [(0, { (default : TensorSt) with settled := some ⟨[0, 1, 2, 3], [], 0⟩, main := some (0, 0) })] })

theorem witness_Deliveries :
    (∃ (s u : State) (x : Issue) (c : Chunk), PinDue s 0 x [] ∧ u = Taken s 0 x ∧ Holds u 0 x.pin.buf c ∧ x.pin.isToStation = true ∧
      (u.stationWrites 0 x.pin (some c)).1 ≠ [] ∧ ∀ e ∈ (u.stationWrites 0 x.pin none).1, u.slotInUse x.pin.portq e.1 = false) ∧
    (∃ (s u : State) (x : Issue) (c : Chunk) (i : Nat), PinDue s 0 x [] ∧ u = Taken s 0 x ∧ Holds u 0 x.pin.buf c ∧ x.pin.isDeliver 32 = true ∧
      u.resBusy [.movers 0] = false ∧ c.null = false ∧ u.installTarget 0 (u.pricking.mdescAt x.pin.arg) = some i) ∧
    (∃ (s u : State) (x : Issue) (c : Chunk), PinDue s 0 x [] ∧ u = Taken s 0 x ∧ Holds u 0 x.pin.buf c ∧ x.pin.isDeliver 32 = true ∧
      u.resBusy [.movers 0] = false ∧ c.null = false ∧ u.installTarget 0 (u.pricking.mdescAt x.pin.arg) = none ∧ (u.pitchOf x.pin).kind ≠ 2 ∧
      (u.pitchOf x.pin).kind ≠ 3) ∧
    (∀ q ∈ [33, 34], ∃ (s u : State) (x : Issue) (c : Chunk), PinDue s 0 x [] ∧ u = Taken s 0 x ∧ Holds u 0 x.pin.buf c ∧ x.pin.isDeliver q = true ∧
      c.null = false) ∧
    (∃ (s u : State) (x : Issue) (md : MDesc), PinDue s 0 x [] ∧ u = Taken s 0 x ∧ md = u.pricking.mdescAt x.pin.arg ∧ x.pin.isCopy = true ∧
      u.resBusy [.movers 0] = false ∧ u.hbmFaulty md.base (Nat.min md.length (u.pricking.mdescAt (x.pin.arg + 1)).length) = false) := by
  refine ⟨⟨selected (withBuf (latchIn (imageMem (pitchOf 0) ⟨0, 0, 0, 0⟩) 0 (pin 5 3 2 0)) 0 2 four), _, latched (pin 5 3 2 0), four,
      ⟨rfl, (fun _ h => nomatch h), rfl, rfl, rfl⟩, rfl, ⟨⟨_, rfl, rfl, rfl⟩, by decide +kernel⟩, by decide +kernel⟩,
    ⟨withBuf (latchIn { imageMem (pitchOf 1) ⟨4096, 520, 1, 0⟩ with coding := [{ (default : CodingSec) with
        ctxs := [{ (default : CtxEnt) with csize := 1 }] }] } 0 (pin 5 32 2 0)) 0 2 four, _, latched (pin 5 32 2 0), four, 0,
      ⟨rfl, (fun _ h => nomatch h), rfl, rfl, rfl⟩, rfl, ⟨⟨_, rfl, rfl, rfl⟩, by decide +kernel⟩, by decide +kernel⟩,
    ⟨withBuf (latchIn (imageMem (pitchOf 0) ⟨4096, 16, 0, 0⟩) 0 (pin 5 32 2 0)) 0 2 four, _, latched (pin 5 32 2 0), four,
      ⟨rfl, (fun _ h => nomatch h), rfl, rfl, rfl⟩, rfl, ⟨⟨_, rfl, rfl, rfl⟩, by decide +kernel⟩, by decide +kernel⟩,
    fun q hq => ⟨withBuf (latch (pitchOf 1) 0 (pin 5 q 2 0)) 0 2 four, _, latched (pin 5 q 2 0), four,
      ⟨rfl, (fun _ h => nomatch h), rfl, rfl, rfl⟩, rfl, ⟨⟨_, rfl, rfl, rfl⟩, (fun _ h => nomatch h)⟩, ?_, rfl⟩,
    ⟨latchIn (imageMem (pitchOf 1) ⟨4096, 16, 0, 0⟩) 0 { pin 5 0 0 0 with aux := true }, _, latched { pin 5 0 0 0 with aux := true }, _,
      ⟨rfl, (fun _ h => nomatch h), rfl, rfl, rfl⟩, rfl, rfl, by decide +kernel⟩⟩
  revert q; decide +kernel

theorem witness_Heat : ∃ (pol : Policy) (hc : List Nat), pol.runMode = 3 ∧ hc.length = pol.n ∧ (∀ c ∈ hc, c < 2 ^ 16) ∧ pol.budget = pol.n :=
  ⟨{ (default : Policy) with mode := 3, elems := 2048, budget := 2, slices := 1 }, [65535, 0], by decide +kernel⟩

/-- The pin of a tensor of four blocks whose blocks are complete, its settle made. -/
def selecting (p : Pin) : State :=
  (latch (pitchOf 0) 0 p).onSlice 0 (fun x => { x with
    blocks := [(0, { (default : BlockSt) with complete := true }), (1, { (default : BlockSt) with complete := true })]
    tensors := [(0, { (default : TensorSt) with settled := some ⟨[0, 1, 2, 3], [], 0⟩, main := some (0, 0) })] })

theorem witness_Selections :
    (∃ (s u : State) (x : Issue) (pol : Policy) (n : Nat) (eh : Int), PinDue s 0 x [] ∧ u = Taken s 0 x ∧ pol = u.image.policyOf x.pin.pitch ∧
      x.pin.op = 7 ∧ x.pin.aux = false ∧ n = ceilDiv (2 * x.pin.arg) (csizeBytes x.pin.portq) ∧ u.resBusy (pinRes 0 x.pin) = false ∧
      u.areaFree 0 x.pin.buf x.pin.portq n = true ∧ u.heatExp x.pin.pitch = some eh ∧
      ∀ b ∈ pol.pinBlocks 0 x.pin.chunk x.pin.arg, (u.block 0 (pol.entry b)).complete = true ∧ (u.residual x.pin.pitch b).2 = false) ∧
    (∃ (s u : State) (x : Issue), PinDue s 0 x [] ∧ u = Taken s 0 x ∧ x.pin.op = 7 ∧ x.pin.aux = true ∧ u.resBusy (pinRes 0 x.pin) = false) ∧
    (∃ (s u : State) (x : Issue), PinDue s 0 x [] ∧ u = Taken s 0 x ∧ x.pin.op = 6 ∧ x.pin.wide = true ∧
      u.areaFree 0 x.pin.buf x.pin.portq x.pin.arg = true ∧ 0 < s.slices.length ∧ (s.slice 0).fenced = false) ∧
    (∃ (s u : State) (x : Issue) (pol : Policy) (b : Nat), PinDue s 0 x [] ∧ u = Taken s 0 x ∧ pol = u.image.policyOf x.pin.pitch ∧ x.pin.op = 6 ∧
      x.pin.wide = false ∧ u.resBusy (pinRes 0 x.pin) = false ∧ (u.tensor 0 x.pin.pitch).main.isSome = true ∧ u.needsSettle 0 x.pin.pitch = false ∧
      pol.pinBlocks 0 x.pin.chunk x.pin.arg = [b] ∧ (u.block 0 (pol.entry b)).complete = true ∧ (u.residual x.pin.pitch b).2 = false) :=
  ⟨⟨selecting (pin 7 0 2 2), _, latched (pin 7 0 2 2), _, _, _, ⟨rfl, (fun _ h => nomatch h), rfl, rfl, rfl⟩, rfl, rfl, rfl, rfl, rfl,
      by decide +kernel, by decide +kernel, rfl, by decide +kernel⟩,
    ⟨selecting { pin 7 0 2 0 with aux := true }, _, latched { pin 7 0 2 0 with aux := true }, ⟨rfl, (fun _ h => nomatch h), rfl, rfl, rfl⟩, rfl,
      by decide +kernel⟩,
    ⟨selecting { pin 6 0 2 1 with wide := true }, _, latched { pin 6 0 2 1 with wide := true }, ⟨rfl, (fun _ h => nomatch h), rfl, rfl, rfl⟩, rfl,
      by decide +kernel⟩,
    ⟨selecting (pin 6 0 2 1), _, latched (pin 6 0 2 1), _, 0, ⟨rfl, (fun _ h => nomatch h), rfl, rfl, rfl⟩, rfl, rfl, by decide +kernel⟩⟩

theorem witness_BlockSelection :
    (∃ (s : State) (b : Nat), (s.wideSet 0 0).contains b = false ∧ (s.mainSet 0 0).contains b = false) ∧
    (∃ (s : State) (b : Nat) (xs : List Nat) (pol : Policy), pol = s.image.policyOf 0 ∧ (s.mainSet 0 0).contains b = true ∧ xs.length = 1024 ∧
      (s.block 0 (pol.entry b)).late = false ∧ pol.runMode ≠ 4) :=
  ⟨⟨selecting (pin 6 0 2 1), 4, by decide +kernel⟩, ⟨selecting (pin 6 0 2 1), 3, List.replicate 1024 0, _, rfl, by decide +kernel⟩⟩

/-- The image with a coding context of slice 0, whose pitch map and object map name it. -/
def imageCoding (surveyed : Bool) : Image :=
  { imageMem (pitchOf 1) ⟨4096, 8192, 0, 0⟩ with
    coding := [{ (default : CodingSec) with
      ctxs := [{ (default : CtxEnt) with csize := 1, surveyed := surveyed, tbuf := 7 }], pitchMap := [(0, 0x80)], objectMap := [(0, 0x80)] }] }

theorem witness_Coding :
    (∀ null : Bool, ∃ (s u : State) (x : Issue) (c : Chunk) (i : Nat), PinDue s 0 x [] ∧ u = Taken s 0 x ∧ Holds u 0 x.pin.buf c ∧
      u.resBusy (pinRes 0 x.pin) = false ∧ (u.slice 0).unitsFree x.pin.arg (unitsFor (u.pitchOf x.pin).bytes) = true ∧ x.pin.arg ≠ x.pin.buf ∧
      x.pin.op = 9 ∧ c.null = null ∧ u.image.pitchCtx 0 x.pin.pitch = some i) ∧
    (∃ (s u : State) (x : Issue) (c d : Chunk), PinDue s 0 x [] ∧ u = Taken s 0 x ∧ Holds u 0 x.pin.buf c ∧ u.resBusy (pinRes 0 x.pin) = false ∧
      (u.slice 0).unitsFree x.pin.arg (unitsFor (u.pitchOf x.pin).bytes) = true ∧ x.pin.arg ≠ x.pin.buf ∧ x.pin.op = 10 ∧
      u.decodeHeld 0 x.pin.pitch c = .ok d) ∧
    (∃ (s u : State) (x : Issue) (v : SurveyPin), PinDue s 0 x [] ∧ u = Taken s 0 x ∧ x.pin.op = 8 ∧ v = u.surveyPin 0 x.pin ∧
      u.resBusy (pinRes 0 x.pin) = false ∧ u.surveyed 0 x.pin = true ∧ v.outOfOrder (u.ctx 0 v.ctx).survey x.pin.chunk = false ∧
      0 < s.slices.length ∧ (s.slice 0).fenced = false) ∧
    (∃ (s u : State) (x : Issue) (v : SurveyPin) (ent : CtxEnt), PinDue s 0 x [] ∧ u = Taken s 0 x ∧ x.pin.op = 8 ∧ v = u.surveyPin 0 x.pin ∧
      u.resBusy (pinRes 0 x.pin) = false ∧ u.surveyed 0 x.pin = false ∧ ent = u.image.ctxEnt 0 v.ctx ∧ x.pin.aux = true ∧ u.isRoot ent = true ∧
      (u.ctx 0 v.ctx).disable = false ∧ (u.slice 0).unitsFree ent.tbuf 1 = true) := by
  refine ⟨fun null => ⟨withBuf (latchIn (imageCoding false) 0 (pin 9 0 2 8)) 0 2 { four with null := null }, _, latched (pin 9 0 2 8),
      { four with null := null }, 0, ⟨rfl, (fun _ h => nomatch h), rfl, rfl, rfl⟩, rfl, ⟨⟨_, rfl, rfl, rfl⟩, (fun _ h => nomatch h)⟩, ?_⟩,
    ⟨withBuf (latchIn (imageCoding false) 0 (pin 10 0 2 8)) 0 2 four, _, latched (pin 10 0 2 8), four, _, ⟨rfl, (fun _ h => nomatch h), rfl, rfl, rfl⟩, rfl,
      ⟨⟨_, rfl, rfl, rfl⟩, by decide +kernel⟩, by decide +kernel, by decide +kernel, by decide +kernel, rfl, rfl⟩,
    ⟨latchIn (imageCoding true) 0 (pin 8 0 0 0), _, latched (pin 8 0 0 0), _, ⟨rfl, (fun _ h => nomatch h), rfl, rfl, rfl⟩, rfl, rfl, rfl, by decide +kernel⟩,
    ⟨latchIn (imageCoding false) 0 { pin 8 0 0 0 with aux := true }, _, latched { pin 8 0 0 0 with aux := true }, _, _, ⟨rfl, (fun _ h => nomatch h), rfl, rfl, rfl⟩, rfl, rfl, rfl,
      by decide +kernel, by decide +kernel, rfl, by decide +kernel⟩⟩
  revert null; decide +kernel

/-- The image of a machine of two packages on axis X, whose group 0 spans it. -/
def imagePair (r : Pitch) : Image :=
  { imageOf r with
    config := { image.config with extents := [1, 2, 1, 1] }
    groups := [⟨[default, ⟨true, 0, 1, 1, 0⟩, default, default], []⟩] }

/-- A picot of pitch 0 on slice 0 whose L0 round has landed. -/
def picot : PicotSt := ⟨0, 0, 2, 0, 0, [1, 2], [1, 2], false, [], [], false, false⟩

/-- With that picot. -/
def withPicot (s : State) : State := { s with seq := { s.seq with picots := [picot] } }

theorem witness_PicotRounds :
    (∃ (s u : State) (x : Issue), PinDue s 0 x [] ∧ u = Taken s 0 x ∧ x.pin.op = 11 ∧ x.pin.portq = 36 ∧ (u.slice 0).unitsFree x.pin.buf 1 = true ∧
      u.picot x.pin.pitch = none) ∧
    (∃ (s u : State) (x : Issue) (q : PicotSt), PinDue s 0 x [] ∧ u = Taken s 0 x ∧ x.pin.op = 11 ∧ x.pin.portq ≠ 36 ∧ u.portBusy 0 x = false ∧
      u.picot x.pin.pitch = some q ∧ q.landed + 1 = x.pin.chunk ∧ q.round + 1 = x.pin.chunk ∧ q.void = false ∧ q.dev = false ∧
      u.readable 0 x.pin.buf = true ∧ q.expect = [] ∧
      (u.onPicot x.pin.pitch (fun q => { q with
        round := x.pin.chunk, base := q.vals, expect := (u.picotSources x.pin.pitch x.pin.chunk).map (fun r => (x.pin.chunk, r)) })).picotPackets x.pin ≠ []) :=
  ⟨⟨latchIn (imagePair (pitchOf 2)) 0 (pin 11 36 2 0), _, latched (pin 11 36 2 0), ⟨rfl, (fun _ h => nomatch h), rfl, rfl, rfl⟩, rfl, by decide +kernel⟩,
    ⟨withPicot (withBuf (latchIn (imagePair (pitchOf 2)) 0 { pin 11 0 2 0 with chunk := 1 }) 0 2 four), _, latched { pin 11 0 2 0 with chunk := 1 }, picot, ⟨rfl, (fun _ h => nomatch h), rfl, rfl, rfl⟩, rfl, by decide +kernel⟩⟩

theorem witness_Updates :
    (∀ d ∈ [0, 1, 2], ∃ (s u : State) (x : Issue), PinDue s 8 x [] ∧ u = Taken s 8 x ∧ x.pin.op = 14 ∧ s.srec.decision = some d ∧
      u.resBusy (pinRes 8 x.pin) = false ∧ (s.station x.pin.portq).disable = false) ∧
    (∃ (s u : State) (x : Issue), PinDue s 8 x [] ∧ u = Taken s 8 x ∧ x.pin.op = 14 ∧ s.srec.decision = some 0 ∧
      u.resBusy (pinRes 8 x.pin) = false ∧ (s.station x.pin.portq).disable = true) := by
  refine ⟨fun d hd => ⟨{ latch (pitchOf 0) 8 (pin 14 23 0 2) with srec := { StepRec.reset with decision := some d } }, _, latched (pin 14 23 0 2),
      ⟨rfl, (fun _ h => nomatch h), rfl, rfl, rfl⟩, rfl, rfl, rfl, ?_⟩,
    ⟨{ latch (pitchOf 0) 8 (pin 14 23 0 2) with
        srec := { StepRec.reset with decision := some 0 }, stations := [(23, { Station.reset with disable := true })] }, _,
      latched (pin 14 23 0 2), ⟨rfl, (fun _ h => nomatch h), rfl, rfl, rfl⟩, rfl, by decide +kernel⟩⟩
  revert d; decide +kernel

theorem witness_ExpertSlotsAndMicroBatches :
    (∃ (key cap : Nat) (t : Tab Nat) (cs : List (Option Nat)) (i e : Nat), i < cs.length ∧ nth cs i none = some e ∧ t.get 0 (key + e) = cap) ∧
    (∃ (b n : BlockSt) (mbs mb : Nat), b.accept mbs mb true = some n ∧ b.complete = false ∧ mb = mbs) :=
  ⟨⟨0, 1, [(3, 1)], [none, some 3], 1, 3, by decide +kernel⟩, ⟨default, { (default : BlockSt) with j := 1, complete := true }, 0, 0, by decide +kernel⟩⟩

theorem witness_TokenPins :
    (∃ (s u : State) (x : Issue), PinDue s 0 x [] ∧ u = Taken s 0 x ∧ u.resBusy (pinRes 0 x.pin) = false ∧ x.pin.isDispatch 0 = true) ∧
    (∀ role ∈ [1, 2], ∃ (s u : State) (x : Issue), PinDue s 0 x [] ∧ u = Taken s 0 x ∧ u.resBusy (pinRes 0 x.pin) = false ∧
      x.pin.isDispatch role = true ∧ u.portBusy 0 x = false ∧ u.routed x.pin = true ∧
      (u.slice ((u.image.layerOf x.pin.layer).homeSlice x.pin.mb)).fenced = false) ∧
    (∃ (s u : State) (x : Issue), PinDue s 0 x [] ∧ u = Taken s 0 x ∧ u.resBusy (pinRes 0 x.pin) = false ∧ x.pin.op = 13 ∧
      u.portBusy 0 x = false ∧ u.landed x.pin = true) := by
  refine ⟨⟨latch (pitchOf 3) 0 (pin 12 0 0 0), _, latched (pin 12 0 0 0), ⟨rfl, (fun _ h => nomatch h), rfl, rfl, rfl⟩, rfl, by decide +kernel⟩,
    fun role hr => ⟨{ latch (pitchOf 3) 0 (pin 12 0 0 role) with tok := { (default : TokSt) with done := [⟨0, 0, 0, 0, 0, 999000, false⟩] } }, _,
      latched (pin 12 0 0 role), ⟨rfl, (fun _ h => nomatch h), rfl, rfl, rfl⟩, rfl, ?_⟩,
    ⟨latch (pitchOf 3) 0 (pin 13 0 0 0), _, latched (pin 13 0 0 0), ⟨rfl, (fun _ h => nomatch h), rfl, rfl, rfl⟩, rfl, by decide +kernel⟩⟩
  revert role; decide +kernel

/-! ### Completions, decisions, cutoffs, tiles -/

/-- A pin of a stream in flight, due now. -/
def due (st : Nat) (p : Pin) (upds : List Upd) : Flight := ⟨1000000, st, 0, 0, p, false, 999000, upds⟩

theorem witness_CompletionsAndDecisions :
    (∃ (s : State) (f : Flight), s.dueFlight = some f ∧ f.pin.groupOf = none) ∧
    (∃ (s : State) (f : Flight), Inv s ∧ f ∈ s.seq.flights ∧ ∀ f ∈ s.seq.flights, s.belay.count < f.done) ∧
    (∃ s : State, s.hbm.wf hbmBlank ∧ 0 < s.slices.length) ∧ (∃ (s : State) (b : Buf), s.buf 0 2 = some b) ∧
    (∀ m, 1 ≤ m → m ≤ 8 → m ≠ 4 → ∃ (s : State) (e : MemErr), s.coreUp = true ∧ e.memory = m ∧ e.unit < 8 ∧ s.slices.length = 8 ∧
      ∀ f ∈ s.seq.flights, s.belay.count < f.done) ∧
    (∀ st ∈ [BufSt.filling, .ready], ∃ (s : State) (b : Buf), s.power.st = .running ∧ s.slices.length = 8 ∧ (s.slice 7).fenced = false ∧
      s.buf 7 2 = some b ∧ (∃ x ∈ s.seq.issue.getD 7 [], x.pin.reads 2 = true) ∧ (∀ q ∈ s.seq.picots, q.done = true ∨ q.slice ≠ 7 ∨ q.buf ≠ 2) ∧
      b.st = st ∧ (∃ o ∈ (s.slice 7).opens, o.buf = 2 ∧ o.scatter = false ∧ o.reduced = false ∧ o.step = s.seq.step) ∧ Inv s) := by
  refine ⟨⟨{ running with seq := { running.seq with flights := [due 0 (pin 0 0 0 0) []] } }, due 0 (pin 0 0 0 0) [], by decide +kernel⟩,
    ⟨{ running with seq := { running.seq with flights := [{ due 0 (pin 0 0 0 0) [] with done := 1000001 }] } }.settle,
      { due 0 (pin 0 0 0 0) [] with done := 1000001 }, settle_inv _, by decide +kernel⟩,
    ⟨ready, by decide +kernel⟩, ⟨withBuf ready 0 2 four, _, rfl⟩,
    fun m _ _ _ => ⟨ready, ⟨7, m, 0⟩, rfl, rfl, show 7 < 8 by decide, rfl, (fun _ h => nomatch h)⟩, fun st hst => ?_⟩
  refine ⟨(State.onSlice (latch (pitchOf 1) 7 (pin 5 33 2 0)) 7 (fun x => { x with
      bufs := [(2, ⟨2, st, four, none, 0, false⟩)], opens := [{ opened (pin 2 0 2 0) none with scatter := false }] })).settle,
    ⟨2, st, four, none, 0, false⟩, ?_⟩
  simp only [settle_inv, and_true]
  revert st; decide +kernel

/-- Pitch 0 of a kind, past its cutoffs in the step section. -/
def past (kind : Nat) (p : Pin) : State :=
  let s := latchIn (imageOf { pitchOf kind with cutoff := 10, prusikCutoff := 20, prusikCount := 1 }) 0 p
  { s with
    img := { s.img with run := some { s.image with prickings := s.image.prickings.map (fun k => { k with streams := [[p]] }) } }
    seq := { s.seq with secOrigin := 1000, pos := [1, 0, 0, 0, 0, 0, 0, 0, 0, 0] } }

/-- The same in step gate mode, with a pin of a stream at the front of its section. -/
def gatedAt (at_ : Nat) (p : Pin) : State :=
  let s := latchIn (imageOf (pitchOf 1)) 0 p
  { s with
    img := { s.img with run := some { s.image with
      config := { image.config with gate := true }, prickings := s.image.prickings.map (fun k => { k with streams := [[p]] }) } }
    seq := { s.seq with secOrigin := at_, issue := Seq.reset.issue } }

theorem witness_CutoffsAndGatedPins :
    (∃ (s : State) (o : Opening), s.cutoffDue 0 = true ∧ (s.pricking.pitchAt 0).kind = 1 ∧ o ∈ (s.slice 0).opens ∧ o.pitch = 0 ∧ o.step = s.seq.step ∧
      o.void = false ∧ o.inputs = [] ∧ o.final = false ∧
      s.pricking.prusikAt (s.pricking.pitchAt 0) o.chunk ((s.sources (s.pricking.pitchAt 0) o.chunk).headD 0) = none) ∧
    (∃ s : State, s.prusikDue 0 = true) ∧ (∃ s : State, s.tokenDue 0 false = true) ∧ (∃ s : State, s.tokenDue 0 true = true) ∧
    (∃ (s : State) (x : Issue), s.dueIssue 0 = some x ∧ s.req.replay = false ∧ 0 < s.seq.issue.length ∧ 0 < s.seq.delay.length ∧ s.pinReady 0 x = true ∧
      x.pin.op ≠ 13) ∧
    (∃ (s : State) (x : Issue), s.dueIssue 0 = some x ∧ s.req.replay = false ∧ 0 < s.seq.issue.length ∧ 0 < s.seq.delay.length ∧
      x.at_ + 2 ^ 24 = s.belay.count ∧ x.pin.op ≠ 16) :=
  ⟨⟨withOpen (past 1 (pin 2 0 2 0)) 0 { opened (pin 2 0 2 0) none with scatter := false }, { opened (pin 2 0 2 0) none with scatter := false },
      by decide +kernel⟩,
    ⟨past 1 (pin 2 0 2 0), by decide +kernel⟩, ⟨past 3 (pin 12 0 0 1), by decide +kernel⟩, ⟨past 3 (pin 13 0 0 0), by decide +kernel⟩,
    ⟨gatedAt 1000000 (pin 2 0 2 noBuffer), latched (pin 2 0 2 noBuffer), by decide +kernel⟩,
    ⟨{ gatedAt 1000000 (pin 2 0 2 noBuffer) with belay := { running.belay with count := 1000000 + 2 ^ 24 } }, latched (pin 2 0 2 noBuffer), by decide +kernel⟩⟩

/-- A gradient tile's header: block 0 of tensor 0, 1,024 elements, of a kind, a tag and a micro-batch that ends it. -/
def tileHead (kind tag : Nat) : BitVec 128 := BitVec.ofNat 128 (tag * 2 ^ 96 + 1024 * 2 ^ 64 + kind * 2 ^ 59 + 2 ^ 58)

/-- RUNNING with tensor 0 of the policy table, its blocks accumulated or not, and room for a tile. -/
def taking (acc : Bool) : State :=
  { running with img := { running.img with run := some { imageOf (pitchOf 0) with
      config := { image.config with intake := [1] }
      policy := [(0, { (default : Policy) with mode := 1, hist := 8, unit := 31, slices := 1, elems := 4096, acc := acc })] } } }

/-- A routed layer of one expert, of vectors of four bfloat16. -/
def layer : Routed :=
  { (default : Routed) with valid := true, vfmt := 1, k := 1, x := 1, cap := 2, h := 4, slices := 1, tmax := 2, nb := 1, mbs := 1, qfIn := 8192 }

/-- RUNNING with that layer, and a forward send on pitch 0. -/
def routing : State :=
  { running with
    img := { running.img with run := some { imageOf (pitchOf 3) with
      prickings := [{ (default : Pricking) with pitches := [pitchOf 3], streams := [[pin 12 0 0 1]] }]
      routed := { (default : RoutedSec) with layers := [(0, layer)] } } }
    seq := { running.seq with running := true } }

/-- A vector tile's header: token 0 of layer 0, forward. -/
def tokHead : BitVec 128 := BitVec.ofNat 128 (3 * 2 ^ 64 + 1 * 2 ^ 59 + 1 * 2 ^ 54 + 0x10000)

theorem witness_Tiles :
    (∃ (s : State) (h : TileHead), h = TileHead.parse (tileHead 0 0) ∧ s.slices.length = 8 ∧ s.coreUp = true ∧ s.power.st ≠ .running) ∧
    (∃ (s : State) (h : TileHead) (pol : Policy), h = TileHead.parse (tileHead 2 0) ∧ pol = s.image.policyOf h.tensor ∧ s.slices.length = 8 ∧
      s.power.st = .running ∧ (s.slice 0).fenced = false ∧ s.req.replay = false ∧ s.req.replayWait = [] ∧ h.kind = 2) ∧
    (∃ (s : State) (h : TileHead) (pol : Policy) (blk n : BlockSt), h = TileHead.parse (tileHead 0 0) ∧ pol = s.image.policyOf h.tensor ∧
      s.slices.length = 8 ∧ s.power.st = .running ∧ (s.slice 0).fenced = false ∧ s.req.replay = false ∧ s.req.replayWait = [] ∧ h.kind = 0 ∧
      h.tensor < 65536 ∧ pol.mode ≠ 0 ∧ h.block < pol.n ∧ (pol.home h.block).1 = 0 ∧ h.count = pol.blockElems h.block ∧
      tagOrder h.tag s.seq.step = .same ∧ blk = s.block 0 (pol.entry h.block) ∧ blk.selected = false ∧ pol.acc = true ∧
      blk.accept pol.mbs h.mb h.final = some n) ∧
    (∃ (s : State) (h : TileHead) (pol : Policy) (blk : BlockSt), h = TileHead.parse (tileHead 0 0) ∧ pol = s.image.policyOf h.tensor ∧
      s.slices.length = 8 ∧ s.power.st = .running ∧ (s.slice 0).fenced = false ∧ s.req.replay = false ∧ s.req.replayWait = [] ∧ h.kind = 0 ∧
      h.tensor < 65536 ∧ pol.mode ≠ 0 ∧ h.block < pol.n ∧ (pol.home h.block).1 = 0 ∧ h.count = pol.blockElems h.block ∧
      tagOrder h.tag s.seq.step = .same ∧ blk = s.block 0 (pol.entry h.block) ∧ blk.selected = false ∧ pol.acc = false ∧ h.mb = 0 ∧
      h.final = true ∧ blk.complete = false ∧ h.fmt ≤ 3 ∧ s.intakeFull 0 h.tensor h.block = false) ∧
    (∃ (s : State) (h : TileHead) (k : TokHead) (l : Nat) (d : Routed), h = TileHead.parse tokHead ∧ s.slices.length = 8 ∧ k = TokHead.parse tokHead ∧
      l = (k.stream - 0x10000) / 2 ∧ d = s.image.layerOf l ∧ s.power.st = .running ∧ (s.slice 0).fenced = false ∧ s.req.replay = false ∧ h.kind = 1 ∧
      0x10000 ≤ k.stream ∧ k.stream ≤ 0x10000 + 8191 ∧ d.valid = true ∧ k.sub = 0 ∧ k.fmt = d.vfmt ∧ k.final = false ∧ k.resv = 0 ∧
      0 = d.homeSlice k.mb ∧ k.count = d.h ∧ tagOrder k.tag s.seq.step = .same ∧ k.index < d.tmax ∧ k.batch = 0 ∧
      (∀ y ∈ s.tok.last, y.layer = l → y.mb = k.mb → y.sub ≠ 0) ∧ s.tokLate d l k (k.stream % 2) = false) :=
  ⟨⟨ready, _, rfl, by decide +kernel⟩, ⟨taking true, _, _, rfl, rfl, by decide +kernel⟩,
    ⟨taking true, _, _, default, { (default : BlockSt) with j := 1, complete := true }, rfl, rfl, by decide +kernel⟩,
    ⟨taking false, _, _, default, rfl, rfl, by decide +kernel⟩,
    ⟨routing, _, _, _, _, rfl, by decide +kernel, rfl, rfl, rfl, by decide +kernel⟩⟩

/-! ### Links -/

/-- With the link of a port changed. -/
def withLink (s : State) (p : Nat) (f : Link → Link) : State := s.onPort p (fun q => { q with link := f { q.link with st := .up } })

/-- With a packet waiting at a port. -/
def arriving (s : State) (p : Nat) (pkt : List Byte) : State := s.onPort p (fun q => { q with rx := [pkt] })

/-- An auxiliary port UP in READY. -/
def linked (f : Link → Link) : State := withLink ready 30 f

/-- A link with a flit kept for retry. -/
def keeping (replays : Nat) (l : Link) : Link := { l with kept := [⟨5, zeros 256⟩], replays := replays, ackTick := 999984, txSeq := 6 }

theorem witness_LinkFlits :
    (∃ (s : State) (l : Link) (bs : List Byte) (h : FlitHead), OnLink s 30 l ∧ 30 < s.ports.length ∧ h = FlitHead.parse (bytesAt bs 0 4) ∧ l.st = .up ∧
      ((s.codewords 30 0 0).port 30).link.uncorr.length ≤ 64 ∧ bytesAt bs 252 4 = crc32c (bs.take 252) ∧ h.idle = false ∧ h.seq = l.rxSeq ∧ l.kept = [] ∧
      l.txq = [] ∧ readPackets 32 (l.partialPkt ++ (bs.drop 4).take 248) = ([], [])) ∧
    (∀ e : Bool, ∃ (s : State) (l : Link) (bs : List Byte) (h : FlitHead), OnLink s 30 l ∧ h = FlitHead.parse (bytesAt bs 0 4) ∧
      bytesAt bs 252 4 = crc32c (bs.take 252) ∧ h.idle = false ∧ h.seq ≠ l.rxSeq ∧ seqPast 4096 h.seq l.rxSeq = false ∧ l.errOpen = e) ∧
    (∃ (s : State) (l : Link) (bs : List Byte) (h : FlitHead), OnLink s 30 l ∧ h = FlitHead.parse (bytesAt bs 0 4) ∧
      bytesAt bs 252 4 = crc32c (bs.take 252) ∧ h.idle = false ∧ h.seq ≠ l.rxSeq ∧ seqPast 4096 h.seq l.rxSeq = true) ∧
    (∃ (s : State) (l : Link) (bs : List Byte) (h : FlitHead) (k : KeptUnit), OnLink s 30 l ∧ h = FlitHead.parse (bytesAt bs 0 4) ∧
      bytesAt bs 252 4 = crc32c (bs.take 252) ∧ h.idle = true ∧ h.nak = false ∧ l.txq = [] ∧ l.kept = [k] ∧ seqPast 4096 k.seq h.ack = true) ∧
    (∃ (s : State) (l : Link) (bs : List Byte) (bad : Nat), OnLink s 30 l ∧ 0 < bad ∧ (FlitHead.parse (bytesAt bs 0 4)).idle = false ∧ l.errOpen = false ∧
      ((s.codewords 30 0 bad).port 30).link.uncorr.length = 64) ∧
    (∃ (s : State) (l : Link) (bad : Nat), OnLink s 30 l ∧ l.st = .up ∧ ((s.codewords 30 0 bad).port 30).link.uncorr.length = 65) ∧
    (∃ (s : State) (l : Link), OnLink s 30 l ∧ l.errOpen = true ∧ l.nakTick + 2 * l.hm + 8 = s.belay.count) ∧
    (∃ (s : State) (l : Link), OnLink s 30 l ∧ l.errOpen = true ∧ s.belay.count + 1 = l.nakTick + 2 * l.hm + 8) ∧
    (∀ n ∈ [14, 15], ∃ (s : State) (l : Link) (k : KeptUnit), OnLink s 30 l ∧ l.kept = [k] ∧ l.ackTick + 2 * l.hm + 16 = s.belay.count ∧
      l.replays = n ∧ l.st = .up) ∧
    (∃ s : State, Inv s ∧ s.belay.count < (s.port 30).link.ackTick + 2 * (s.port 30).link.hm + 16) ∧
    (∀ t ∈ [0, 6, 7], ∃ s : State, s.belay.count % 250000 = 0 ∧ s.reg (0x10000C + 0x100 * 30) = t ∧ (s.port 30).corrected = 7) := by
  refine ⟨⟨linked id, _, flitBytes ⟨false, false, 0, 0, false⟩ [], _, ⟨by decide, rfl, rfl⟩, by decide +kernel, rfl, by decide +kernel⟩,
    fun e => ⟨linked (fun l => { l with errOpen := e }), _, flitBytes ⟨false, false, 1, 0, false⟩ [], _, ⟨by decide, rfl, rfl⟩, rfl, ?_⟩,
    ⟨linked (fun l => { l with rxSeq := 2 }), _, flitBytes ⟨false, false, 1, 0, false⟩ [], _, ⟨by decide, rfl, rfl⟩, rfl, by decide +kernel⟩,
    ⟨linked (keeping 0), _, flitBytes ⟨true, false, 0, 6, false⟩ [], _, _, ⟨by decide, rfl, rfl⟩, rfl, by decide +kernel, by decide +kernel,
      by decide +kernel, rfl, rfl, by decide +kernel⟩,
    ⟨linked id, _, zeros 256, 64, ⟨by decide, rfl, rfl⟩, by decide +kernel⟩, ⟨linked id, _, 65, ⟨by decide, rfl, rfl⟩, by decide +kernel⟩,
    ⟨linked (fun l => { l with errOpen := true, nakTick := 999992 }), _, ⟨by decide, rfl, rfl⟩, by decide +kernel⟩,
    ⟨linked (fun l => { l with errOpen := true, nakTick := 999993 }), _, ⟨by decide, rfl, rfl⟩, by decide +kernel⟩,
    fun n hn => ⟨linked (keeping n), _, _, ⟨by decide, rfl, rfl⟩, rfl, rfl, rfl, rfl⟩,
    ⟨(linked (fun l => { l with ackTick := 1000000 })).settle, settle_inv _, by decide +kernel⟩,
    fun t ht => ⟨(ready.setReg (0x10000C + 0x100 * 30) t).onPort 30 (fun q => { q with corrected := 7 }), ?_⟩⟩
  · revert e; decide +kernel
  · revert t; decide +kernel

/-- A VC4 packet of a type. -/
def control (type : Nat) (payload : List Byte) : List Byte := packetBytes { (default : PktHead) with vc := 4, type := type, first := true, last := true } [] payload

/-- A follower of port 0, whose last BELAY packet named the mark 1024 × 977. -/
def following (st : BelaySt) : State :=
  State.onPort { ready with
    belay := { ready.belay with st := st, cand := 0 }
    img := { ready.img with run := some { image with config := { image.config with
      belay := { image.config.belay with role := 0, up := [0, 63, 63, 63] } } } } } 0
    (fun q => { q with link := { q.link with lambda := some 0 }, belayRx := some (1024 * 977, true, false) })

theorem witness_MarkersAndBelay :
    (∃ (s : State) (l : Link), OnLink s 30 l ∧ s.belay.count % 1024 = 0 ∧ (s.port 30).markSent ≠ s.belay.count) ∧
    (∃ s : State, Inv s ∧ s.belay.count % 1024 = 0 ∧ (s.port 30).markSent = s.belay.count) ∧
    (∃ (s : State) (l : Link), OnLink s 30 l ∧ l.st = .up ∧ s.belay.count % 1024 ≠ 0) ∧
    (∃ (s : State) (pkt : List Byte), Waits s 30 pkt 0x13) ∧
    (∀ a ∈ [1024 * 977 * 192 - 96, 1024 * 977 * 192 + 96, 1024 * 977 * 192 + 97, 1024 * 1042 * 192], ∃ (s : State) (lam m : Nat),
      Inv s ∧ s.power.standby = true ∧ (s.port 0).link.lambda = some lam ∧ (s.port 0).belayRx = some (m, true, false) ∧ s.belay.st = .locked ∧
      s.belay.cand = 0 ∧ nearestMark ((a : Int) - lam) = (if a = 1024 * 1042 * 192 then m + 66560 else m)) ∧
    (∃ (s : State) (lam m a : Nat), Inv s ∧ s.power.standby = true ∧ (s.port 0).link.lambda = some lam ∧ (s.port 0).belayRx = some (m, true, false) ∧
      s.belay.st = .locked ∧ s.belay.cand = 0 ∧ m + 66560 < nearestMark ((a : Int) - lam)) ∧
    (∃ (s : State) (lam m : Nat), Inv s ∧ s.power.standby = true ∧ (s.port 0).link.lambda = some lam ∧ (s.port 0).belayRx = some (m, true, false) ∧
      s.belay.st ≠ .locked ∧ 0 ∈ s.candidates) := by
  refine ⟨⟨{ linked id with belay := { ready.belay with count := 1024 } }, _, ⟨by decide, rfl, rfl⟩, by decide +kernel⟩,
    ⟨(State.onPort { ready with belay := { ready.belay with count := 1024 } } 30 (fun q => { q with markSent := 1024 })).settle, settle_inv _, by decide +kernel⟩,
    ⟨linked id, _, ⟨by decide, rfl, rfl⟩, by decide +kernel⟩,
    ⟨arriving ready 30 (control 0x13 (zeros 16)), control 0x13 (zeros 16), by decide +kernel, rfl⟩,
    fun a ha => ⟨(following .locked).settle, 0, 1024 * 977, settle_inv _, ?_⟩,
    ⟨(following .locked).settle, 0, 1024 * 977, 1024 * 1043 * 192, settle_inv _, by decide +kernel⟩,
    ⟨(following .acquire).settle, 0, 1024 * 977, settle_inv _, by decide +kernel⟩⟩
  revert a; decide +kernel

end Sys2Proof.Tests
end

