-- ==== Sys2Proof/Tests/LinkWitnesses.lean ====
section
/-! SUPPORT. The witnesses of the statements about time, packets, ports and brides. -/

namespace Sys2Proof.Tests

open Sys2Proof Sys2Proof.Machine

set_option Elab.async false

/-! ### Time (R391 to R393) -/

/-- A carriage port UP at a root of a kind, LOCKED, whose candidate is that port. -/
def timed (role : Nat) : State :=
  withLink { ready with
    belay := { ready.belay with dreq := some (5, 10), ms := some 100, syncWait := some (5, 1, 2, 3) }
    img := { ready.img with run := some { image with config := { image.config with
      belay := { image.config.belay with role := role, up := [32, 63, 63, 63] } } } } } 32 id

theorem witness_TimeMessages :
    (∃ s : State, Inv s ∧ s.belayBlock.role = 2 ∧ s.belay.st = .locked ∧ s.carriageUp 32 = true ∧ s.power.standby = true) ∧
    (∃ s : State, Inv s ∧ s.belayBlock.role = 1 ∧ 32 ∈ s.candidates ∧ s.carriageUp 32 = true ∧ s.power.standby = true ∧
      s.belay.syncWait = some (5, 1, 2, 3) ∧ s.belay.dreq = some (5, 10) ∧ s.belay.ms = some 100 ∧ 0 = s.coord ∧ s.belayBlock.domain = 0) ∧
    (∃ s : State, Inv s ∧ s.belayBlock.role = 0) :=
  ⟨⟨(timed 2).settle, settle_inv _, by decide +kernel⟩, ⟨(timed 1).settle, settle_inv _, by decide +kernel⟩, ⟨(timed 0).settle, settle_inv _, by decide +kernel⟩⟩

/-! ### Chunks, requests, tokens -/

/-- What an outcome holds, as equality of it. -/
theorem ok_of_toOption {ε α : Type} {e : Except ε α} {a : α} (h : e.toOption = some a) : e = .ok a := by
  cases e with
  | error => exact nomatch h
  | ok b => exact congrArg _ (Option.some.inj h)

/-- A packet of a chunk of pitch 0, whole or not, to a package. -/
def chunkPkt (dst vc : Nat) (last : Bool) (data : List Byte) : List Byte :=
  packetBytes { (default : PktHead) with vc := vc, type := 1, dst := dst, first := true, last := last } [] data

/-- The chunk of four elements with its trailer. -/
def wholeFour : List Byte := four.data ++ trailerBytes four 0 0

/-- The same between two packages. -/
def chunkOn (src dst : Nat) : List Byte :=
  packetBytes { (default : PktHead) with type := 1, src := src, dst := dst, first := true, last := true } [] wholeFour

/-- In its step section on a ring of four packages, a chunk of pitch 0 open on slice 0 as scatter or not, a packet waiting at port 0. -/
def ringing (scatter : Bool) (pkt : List Byte) : State :=
  arriving (withOpen (latchIn { imageOf (pitchOf (if scatter then 0 else 1)) with config := { image.config with extents := [1, 4, 1, 1] } } 9 (pin 0 0 0 0)) 0
    { opened (pin 2 0 2 0) none with scatter := scatter, slots := [⟨0, none, none, none⟩] }) 0 pkt

theorem witness_ChunksReceived :
    (∃ (s u : State) (pkt : List Byte) (h : PktHead) (out : Nat), Arrives s u 0 pkt 1 h ∧ h.dst ≠ u.coord ∧ u.onward 0 h = some out) ∧
    (∃ (s u : State) (pkt : List Byte) (h : PktHead), Arrives s u 0 pkt 1 h ∧ h.dst ≠ u.coord ∧ u.onward 0 h = none) ∧
    (∃ (s u : State) (pkt : List Byte) (h : PktHead), Arrives s u 0 pkt 1 h ∧ h.dst = u.coord ∧ h.vc = 0 ∧ h.first = true ∧ u.seq.asm = [] ∧
      u.chunkOpening 0 h = none) ∧
    (∃ (s u : State) (pkt : List Byte) (h : PktHead), Arrives s u 0 pkt 1 h ∧ h.dst = u.coord ∧ h.vc = 0 ∧ h.first = true ∧ h.last = false ∧
      u.seq.asm = [] ∧ (u.chunkOpening 0 h).isSome = true) ∧
    (∀ scatter : Bool, ∃ (s u : State) (pkt : List Byte) (h : PktHead) (o : Opening) (c : Chunk), Arrives s u 0 pkt 1 h ∧ h.dst = u.coord ∧ h.vc = 0 ∧
      h.first = true ∧ h.last = true ∧ u.seq.asm = [] ∧ u.chunkOpening 0 h = some (0, o) ∧ o.void = false ∧ o.step = u.seq.step ∧
      u.checkChunk 0 o.pitch o.chunk (o.scatter || o.coded) (if o.scatter then u.pitchExp o.pitch o.chunk else none) (packetPayload pkt) = .ok c ∧
      c.prusik = false ∧ c.step = u.seq.step ∧ o.scatter = scatter ∧ o.reduced = false ∧ o.final = false ∧ o.inputs = [] ∧ o.slots ≠ []) ∧
    (∃ (s u : State) (pkt : List Byte) (h : PktHead) (o : Opening) (whole : List Byte), Arrives s u 0 pkt 1 h ∧ h.dst = u.coord ∧ h.vc = 0 ∧
      h.first = true ∧ h.last = true ∧ u.seq.asm = [] ∧ u.chunkOpening 0 h = some (0, o) ∧ o.void = false ∧ o.step = u.seq.step ∧
      whole = packetPayload pkt ∧ 32 ≤ whole.length ∧
      crc32c (whole.take (whole.length - 32) ++ (whole.drop (whole.length - 32)).take 8 ++ (whole.drop (whole.length - 32)).drop 12) ≠
        (Trailer.parse (whole.drop (whole.length - 32))).crc ∧
      o.scatter = true ∧ o.reduced = false ∧ tagOrder (Trailer.parse (whole.drop (whole.length - 32))).tag u.seq.step = .same) ∧
    (∃ (s u : State) (pkt : List Byte) (h : PktHead), Arrives s u 0 pkt 1 h ∧ h.dst = u.coord ∧ h.vc ≠ 0 ∧ h.first = true ∧ h.last = true ∧
      u.seq.asm = [] ∧ (u.picot h.pitch).isSome = true) := by
  refine ⟨⟨ringing true (chunkOn 0x200 0x400), _,
      chunkOn 0x200 0x400, _, 1, ⟨⟨by decide +kernel, rfl⟩, rfl, rfl⟩, by decide +kernel⟩,
    ⟨ringing true (chunkOn 0 0x200), _,
      chunkOn 0 0x200, _,
      ⟨⟨by decide +kernel, rfl⟩, rfl, rfl⟩, by decide +kernel⟩,
    ⟨arriving running 0 (chunkPkt 0 0 true wholeFour), _, chunkPkt 0 0 true wholeFour, _, ⟨⟨by decide +kernel, rfl⟩, rfl, rfl⟩, by decide +kernel⟩,
    ⟨ringing true (chunkPkt 0 0 false wholeFour), _, chunkPkt 0 0 false wholeFour, _, ⟨⟨by decide +kernel, rfl⟩, rfl, rfl⟩, by decide +kernel⟩,
    fun sc => ⟨ringing sc (chunkPkt 0 0 true wholeFour), _, chunkPkt 0 0 true wholeFour, _,
      { opened (pin 2 0 2 0) none with scatter := sc, slots := [⟨0, none, none, none⟩] }, four, ⟨⟨by decide +kernel, rfl⟩, rfl, rfl⟩, ?_, ?_, ?_, ?_, ?_, ?_, ?_,
      ?_, ok_of_toOption ?_, ?_⟩,
    ⟨ringing true (chunkPkt 0 0 true (wholeFour.set 0 2)), _, chunkPkt 0 0 true (wholeFour.set 0 2), _, _, wholeFour.set 0 2,
      ⟨⟨by decide +kernel, rfl⟩, rfl, rfl⟩, by decide +kernel, by decide +kernel, by decide +kernel, by decide +kernel, by decide +kernel, rfl,
      by decide +kernel⟩,
    ⟨arriving (withPicot running) 0 (chunkPkt 0 1 true []), _, chunkPkt 0 1 true [], _, ⟨⟨by decide +kernel, rfl⟩, rfl, rfl⟩, by decide +kernel⟩⟩
  all_goals (revert sc; decide +kernel)

/-- A prusik request for chunk 0 of pitch 0, of a step, between two packages. -/
def requestPkt (src dst step : Nat) : List Byte :=
  packetBytes { (default : PktHead) with vc := 3, type := 3, src := src, dst := dst, seq := step, first := true, last := true } [] (zeros 8)

/-- With that request held at port 0 until a tick, in a window or not, the last request sent at another tick. -/
def requesting (due last : Nat) (windows : List Window) : State :=
  State.onPort (ringing true []) 0 (fun q => { q with link := { q.link with st := .up }, windows := windows, prusik := [(due, requestPkt 0x200 0x400 0)], prusikTick := some last })

/-- A token trailer of a type for the layer of `routing`. -/
def tokens (type tag : Nat) : TokTrailer := { (default : TokTrailer) with type := type, tag := tag, fmt := ofBool (type == 0) }

/-- A packet with a token chunk. -/
def tokenPkt (type tag : Nat) (data : List Byte) : List Byte :=
  packetBytes { (default : PktHead) with type := 2, first := true, last := true } [] (tokenChunk (tokens type tag) data)

/-- A token packet waiting, the forward landing of pitch 0 closed or not. -/
def landing (closed : List Nat) (pkt : List Byte) : State :=
  let s := arriving routing 0 pkt
  { s with
    img := { s.img with run := some { s.image with
      groups := [{ (default : GroupDesc) with axes := [default, default, default, default] }], config := { image.config with extents := [1, 1, 1, 1] } } }
    tok := { s.tok with closed := closed } }

theorem witness_TokenTraffic :
    (∃ (s u : State) (pkt : List Byte) (h : PktHead) (out : Nat), Arrives s u 0 pkt 3 h ∧ h.dst ≠ u.coord ∧ u.onward 0 h = some out) ∧
    (∀ step ∈ [0, 1], ∃ (s u : State) (pkt : List Byte) (h : PktHead), Arrives s u 0 pkt 3 h ∧ h.dst = u.coord ∧ h.seq = step ∧
      u.seq.step % 2 ^ 16 = 0 ∧ (u.slice 7).fenced = false ∧ 7 < u.slices.length) ∧
    (∃ (s : State) (pkt : List Byte), (s.port 0).prusik = [(1000000, pkt)] ∧ 1000000 = s.belay.count ∧
      (s.port 0).prusikTick = some 999936 ∧ (s.port 0).inWindow s.belay.count = none) ∧
    (∃ (s : State) (pkt : List Byte) (w : Window), (s.port 0).prusik = [(1000000, pkt)] ∧ 1000000 = s.belay.count ∧
      (s.port 0).prusikTick = some 999936 ∧ (s.port 0).inWindow s.belay.count = some w ∧ s.upTowards 0 (PktHead.parse pkt).dst = true) ∧
    (∃ (s : State) (pkt : List Byte), Inv s ∧ (s.port 0).prusik = [(1000001, pkt)] ∧ s.belay.count < 1000001) ∧
    (∃ (s : State) (pkt : List Byte), Inv s ∧ (s.port 0).prusik = [(1000000, pkt)] ∧ (s.port 0).prusikTick = some 999937 ∧ s.belay.count < 999937 + 64) ∧
    (∀ x ∈ [(0, 0, [0]), (0, 1, []), (0, 0, []), (2, 0, [])], ∃ (s u : State) (pkt : List Byte) (h : PktHead) (whole data tb : List Byte) (t : TokTrailer)
        (d : Routed), Arrives s u 0 pkt 2 h ∧ h.dst = u.coord ∧ h.first = true ∧ h.last = true ∧ whole = packetPayload pkt ∧ 32 ≤ whole.length ∧
      data = whole.take (whole.length - 32) ∧ tb = whole.drop (whole.length - 32) ∧ t = TokTrailer.parse tb ∧ t.len = data.length ∧
      d = u.image.layerOf t.layer ∧ u.tokenPins h.pitch true = [] ∧ u.tok.closed = x.2.2 ∧ t.tag = x.2.1 ∧ u.seq.step % 2 ^ 16 = 0 ∧
      crc32c (data ++ tb.drop 4) = bytesAt tb 0 4 ∧ tokReservedZero tb = true ∧ (t.layer, t.mb, t.pass) ∈ u.served h.pitch false ∧
      t.drank = (u.image.group d.group).rank u.coord ∧ t.pitch = h.pitch ∧ t.srank < u.image.routedG d ∧ t.type = x.1 ∧ t.coded = false ∧
      u.relaxed = false ∧ u.req.replay = false ∧
      (if t.type = 2 then data.length = 4 * u.image.routedP d
       else t.slot < d.cap ∧ t.expert < u.image.routedP d ∧ t.fmt = d.vfmt ∧ data.length = d.vbytes)) := by
  refine ⟨⟨ringing true (requestPkt 0x200 0x400 0) , _, requestPkt 0x200 0x400 0, _, 1, ⟨⟨by decide +kernel, rfl⟩, rfl, rfl⟩, by decide +kernel⟩,
    fun step hs => ⟨ringing true (requestPkt 0x200 0 step), _, requestPkt 0x200 0 step, _, ⟨⟨?_, ?_⟩, rfl, rfl⟩, ?_⟩,
    ⟨requesting 1000000 999936 [], requestPkt 0x200 0x400 0, by decide +kernel⟩,
    ⟨requesting 1000000 999936 [⟨0, 0, 999000, 999500, 1000500, 1000600⟩], requestPkt 0x200 0x400 0, ⟨0, 0, 999000, 999500, 1000500, 1000600⟩,
      by decide +kernel⟩,
    ⟨(requesting 1000001 999000 []).settle, requestPkt 0x200 0x400 0, settle_inv _, by decide +kernel⟩,
    ⟨(requesting 1000000 999937 []).settle, requestPkt 0x200 0x400 0, settle_inv _, by decide +kernel⟩,
    fun x hx => ⟨landing x.2.2 (tokenPkt x.1 x.2.1 (zeros (if x.1 = 2 then 4 else 8))), _, tokenPkt x.1 x.2.1 (zeros (if x.1 = 2 then 4 else 8)), _, _, _, _, _, _,
      ⟨⟨?_, ?_⟩, rfl, rfl⟩, ?_, ?_, ?_, rfl, ?_, rfl, rfl, rfl, ?_, rfl, ?_⟩⟩
  iterate 3 (revert step; decide +kernel)
  all_goals (revert x; decide +kernel)

/-! ### Training, credits, ground slots -/

/-- A native port in a state of its training, a VC4 packet waiting. -/
def inState (p : Nat) (st : PortSt) (pkt : List Byte) (f : Link → Link) : State :=
  State.onPort { ready with img := { ready.img with run := some { image with config := { image.config with extents := [8, 4, 1, 1] } } } } p
    (fun q => { q with rx := [pkt], link := f { q.link with st := st } })

/-- An IDENT payload. -/
def identPay (c port bridges version : Nat) : List Byte := leBytes 2 c ++ leBytes 1 port ++ leBytes 1 bridges ++ leBytes 1 version ++ zeros 11

theorem witness_TrainingAndPortStates :
    (∀ v ∈ [0, 1], ∃ (s u : State) (pkt : List Byte) (h : PktHead), Arrives s u 29 pkt 0x10 h ∧ 29 < s.ports.length ∧ (u.port 29).link.st = .ident ∧
      bytesAt (packetPayload pkt) 4 1 = v ∧ bytesAt (packetPayload pkt) 0 2 = u.coord) ∧
    (∃ (s u : State) (pkt : List Byte) (h : PktHead), Arrives s u 2 pkt 0x10 h ∧ (u.port 2).link.st = .ident ∧ bytesAt (packetPayload pkt) 4 1 = 1 ∧
      bytesAt (packetPayload pkt) 0 2 ≠ u.coord ∧ bytesAt (packetPayload pkt) 2 1 % 64 = 2 ∧ onlyAxis u.coord (bytesAt (packetPayload pkt) 0 2) 0 = true ∧
      nth (coordAxes (bytesAt (packetPayload pkt) 0 2)) 0 0 = nth (coordAxes u.coord) 0 0 ^^^ (2 / 4 + 1) ∧ bytesAt (packetPayload pkt) 3 1 % 16 = 0) ∧
    (∀ p ∈ [0, 1], ∃ (s u : State) (pkt pay : List Byte) (h : PktHead) (c : Nat), Arrives s u p pkt 0x10 h ∧ (u.port p).link.st = .ident ∧
      pay = packetPayload pkt ∧ c = bytesAt pay 0 2 ∧ bytesAt pay 4 1 = 1 ∧ c ≠ u.coord ∧ bytesAt pay 2 1 % 64 = 1 - p ∧ onlyAxis u.coord c 1 = true ∧
      ringDist (nth u.image.config.extents 1 1) (nth (coordAxes (if p = 1 then c else u.coord)) 1 0) (nth (coordAxes (if p = 1 then u.coord else c)) 1 0) =
        1 + bytesAt pay 3 1 % 16) ∧
    (∃ (s u : State) (pkt : List Byte) (h : PktHead), Arrives s u 2 pkt 0x11 h ∧ (u.port 2).link.live = true) ∧
    (∀ x ∈ [(0, 12), (15, 0), (15, 13)], ∃ (s u : State) (pkt : List Byte) (h : PktHead), Arrives s u 2 pkt 0x12 h ∧ (u.port 2).link.st = .measure ∧
      ((u.port 2).link.probes ++ [x.2 - bytesAt (packetPayload pkt) 0 8 - bytesAt (packetPayload pkt) 8 4]).length = x.1 + 1 ∧
      (x.2 = 0 → maxNat (((u.port 2).link.probes ++ [x.2]).map (fun y => ceilDiv y 12)) ≤ u.pricking.head.portHop 2) ∧
      (x.2 = 13 → u.pricking.head.portHop 2 < maxNat (((u.port 2).link.probes ++ [x.2]).map (fun y => ceilDiv y 12)))) ∧
    (∀ st : PortSt, st ≠ .off → ∃ s : State, Inv s ∧ 2 < s.ports.length ∧ (s.port 2).link.st = st) ∧
    (∃ s : State, Inv s ∧ 35 < s.ports.length ∧ (s.port 35).link.st = .frame ∧ s.paths.length = 128) ∧
    (∀ n ∈ [0, 1], ∃ s : State, Inv s ∧ 2 < s.ports.length ∧ (s.port 2).link.st = .failed ∧ (s.port 2).link.failTick + 25000000 = s.belay.count + n) := by
  refine ⟨fun v hv => ⟨inState 29 .ident (control 0x10 (identPay 0 28 0 v)) id, _, control 0x10 (identPay 0 28 0 v), _, ⟨⟨?_, ?_⟩, rfl, rfl⟩, ?_⟩,
    ⟨inState 2 .ident (control 0x10 (identPay 0x2000 2 0 1)) id, _, control 0x10 (identPay 0x2000 2 0 1), _, ⟨⟨by decide +kernel, rfl⟩, rfl, rfl⟩, by decide +kernel⟩,
    fun p hp => ⟨inState p .ident (control 0x10 (identPay (if p = 1 then 0x600 else 0x200) (1 - p) 0 1)) id, _,
      control 0x10 (identPay (if p = 1 then 0x600 else 0x200) (1 - p) 0 1), _, _, _, ⟨⟨?_, ?_⟩, rfl, rfl⟩, ?_, rfl, rfl, ?_⟩,
    ⟨inState 2 .measure (control 0x11 (zeros 8)) id, _, control 0x11 (zeros 8), _, ⟨⟨by decide +kernel, rfl⟩, rfl, rfl⟩, by decide +kernel⟩,
    fun x hx => ⟨inState 2 .measure (control 0x12 (zeros 12)) (fun l => { l with probes := List.replicate x.1 0 }), _, control 0x12 (zeros 12), _,
      ⟨⟨?_, ?_⟩, rfl, rfl⟩, ?_⟩,
    fun st hst => ⟨(inState 2 st [] id).settle, settle_inv _, ?_⟩,
    ⟨(inState 35 .frame [] id).settle, settle_inv _, by decide +kernel⟩,
    fun n hn => ⟨({ inState 2 .failed [] id with belay := { ready.belay with count := 25000000 - n } } : State).settle, settle_inv _, ?_⟩⟩
  iterate 3 (revert v; decide +kernel)
  iterate 4 (revert p; decide +kernel)
  iterate 3 (revert x; decide +kernel)
  · cases st <;> first | exact absurd rfl hst | decide +kernel
  · revert n; decide +kernel

/-- A ground packet of a WRITE. -/
def writePkt : List Byte := packetBytes { (default : PktHead) with vc := 3, type := 8, dst := 0x2000, first := true, last := true } [] (zeros 16)

/-- A native port UP with credit, and packets waiting in its ground and control queues before the first window that is given. -/
def grounded (g : List GroundPkt) (c : List (List Byte)) (windows : List Window) : State :=
  State.onPort (withLink (ready.setReg 0x101E10 0x0101) 30 (fun l => { l with credits := [256, 256, 64] })) 30
    (fun q => { q with ground := g, control := c, windows := windows })

theorem witness_CreditsAndGroundSlots :
    (∃ (s u : State) (pkt : List Byte) (h : PktHead), Arrives s u 2 pkt 0x14 h ∧ 2 < s.ports.length) ∧
    (∃ (s : State) (l : Link), OnLink s 30 l ∧ l.owed = [16, 0, 0] ∧ l.st = .up ∧ s.belay.count = l.creditTick) ∧
    (∃ (s : State) (l : Link), OnLink s 30 l ∧ l.owed = [0, 1, 0] ∧ l.st = .up ∧ s.belay.count = l.creditTick + 256) ∧
    (∃ s : State, Inv s ∧ OnLink s 30 (s.port 30).link ∧ (s.port 30).link.owed = [15, 0, 0] ∧ s.belay.count + 1 = (s.port 30).link.creditTick + 256) ∧
    (∀ blocked : Bool, ∃ (s : State) (g : GroundPkt), Inv s ∧ (s.port 30).ground = [g] ∧ (s.port 30).control = [] ∧ s.creditFor 30 g.bytes = true ∧
      roundUp g.bytes.length 8 ≤ 4144 ∧ field (s.reg 0x101E10) 7 0 ≠ 0 ∧ s.mayStart 30 g.bytes.length = !blocked) ∧
    (∀ blocked : Bool, ∃ (s : State) (b : List Byte), Inv s ∧ (s.port 30).control = [b] ∧ (s.port 30).ground = [] ∧ s.creditFor 30 b = true ∧
      roundUp b.length 8 ≤ 4144 ∧ bytesAt b 0 1 % 32 ≠ 0x13 ∧ field (s.reg 0x101E10) 15 8 ≠ 0 ∧ s.mayStart 30 b.length = !blocked) ∧
    (∃ s : State, Inv s ∧ (s.port 30).control = [] ∧ (s.port 30).ground = []) := by
  refine ⟨⟨inState 2 .up (control 0x14 (zeros 8)) id, _, control 0x14 (zeros 8), _, ⟨⟨by decide +kernel, rfl⟩, rfl, rfl⟩, by decide +kernel⟩,
    ⟨withLink ready 30 (fun l => { l with owed := [16, 0, 0], creditTick := 1000000 }), _, ⟨by decide, rfl, rfl⟩, by decide +kernel⟩,
    ⟨withLink ready 30 (fun l => { l with owed := [0, 1, 0], creditTick := 999744 }), _, ⟨by decide, rfl, rfl⟩, by decide +kernel⟩,
    ⟨(withLink ready 30 (fun l => { l with owed := [15, 0, 0], creditTick := 999745 })).settle, settle_inv _, ⟨by decide, rfl, by decide +kernel⟩,
      by decide +kernel⟩,
    fun b => ⟨(grounded [⟨2, writePkt⟩] [] (if b then [⟨0, 0, 1000000, 1000500, 1000900, 1001000⟩] else [])).settle, ⟨2, writePkt⟩, settle_inv _, ?_⟩,
    fun b => ⟨(grounded [] [control 0x14 (zeros 8)] (if b then [⟨0, 0, 1000000, 1000500, 1000900, 1001000⟩] else [])).settle, control 0x14 (zeros 8),
      settle_inv _, ?_⟩,
    ⟨(grounded [] [] []).settle, settle_inv _, by decide +kernel⟩⟩
  iterate 2 (revert b; decide +kernel)

end Sys2Proof.Tests
end

