-- ==== Sys2Proof/Tests/PortWitnesses.lean ====
section
/-! SUPPORT. The witnesses of the statements about the carriage, ports, fences, the receiver, groups and doorbells. -/

namespace Sys2Proof.Tests

open Sys2Proof Sys2Proof.Machine

set_option Elab.async false

/-! ### The carriage -/

/-- A frame of path 1 of port 32 to this package: its destination, its EtherType, and the packet it carries. -/
def frameTo (etype : Nat) (da : List Byte) : List Byte := frameBytes da (ready.mac 1 0) none etype (carriageHead false false 0 0 ++ writePkt)

/-- Port 32 UP, its path 1 UP. -/
def carrying (ack : Option Nat) : State :=
  State.onPath { withLink ready 32 id with paths := List.replicate 128 Link.reset } 0 1 (fun l => { l with st := .up, ackOwed := ack })

/-- The same frame with its last byte changed. -/
def badFrame : List Byte := (frameTo 0x88B5 (carrying none |>.mac 0 0)).set 20 7#8

theorem witness_CarriageFrames :
    (∃ (s : State) (n : Nat) (bs : List Byte), n + 4 = bs.length ∧ (s.port 32).link.st = .up ∧ fcs (bs.take n) ≠ bytesAt bs n 4) ∧
    (∃ (s : State) (n : Nat) (bs : List Byte), n + 4 = bs.length ∧ (s.port 32).link.st = .up ∧ fcs (bs.take n) = bytesAt bs n 4 ∧ be16 bs (etherAt bs) = 0x8808) ∧
    (∃ (s : State) (n : Nat) (bs : List Byte), n + 4 = bs.length ∧ (s.port 32).link.st = .up ∧ fcs (bs.take n) = bytesAt bs n 4 ∧
      be16 bs (etherAt bs) ≠ 0x8808 ∧ be16 bs (etherAt bs) ≠ 0x88F7 ∧ bs.take 6 ≠ s.mac s.coord 0) ∧
    (∃ (s : State) (n : Nat) (bs : List Byte), n + 4 = bs.length ∧ (s.port 32).link.st = .up ∧ fcs (bs.take n) = bytesAt bs n 4 ∧
      be16 bs (etherAt bs) ≠ 0x8808 ∧ be16 bs (etherAt bs) ≠ 0x88F7 ∧ bs.take 6 = s.mac s.coord 0 ∧ be16 bs (etherAt bs) ≠ field (s.reg 0x106000) 15 0) ∧
    (∃ (s : State) (n w : Nat) (bs rest pkt : List Byte) (l : Link), n + 4 = bs.length ∧ (s.port 32).link.st = .up ∧ fcs (bs.take n) = bytesAt bs n 4 ∧
      be16 bs (etherAt bs) = field (s.reg 0x106000) 15 0 ∧ be16 bs (etherAt bs) ≠ 0x8808 ∧ be16 bs (etherAt bs) ≠ 0x88F7 ∧ bs.take 6 = s.mac s.coord 0 ∧
      w = be16 bs 8 % 32 ∧ rest = (bs.take n).drop (etherAt bs + 2) ∧ l = s.path 0 w ∧ l.live = true ∧ l.kept = [] ∧ l.txq = [] ∧ w < s.paths.length ∧
      flag (bytesAt rest 0 8) 33 = false ∧ field (bytesAt rest 0 8) 15 0 = l.rxSeq ∧ pkt = (rest.drop 8).take (PktHead.parse (rest.drop 8)).total ∧
      packetGood pkt = true) ∧
    (∃ (s : State) (l : Link), (s.port 32).link.st = .up ∧ l = s.path 0 1 ∧ l.live = true ∧ l.ackOwed = some 999990) :=
  ⟨⟨carrying none, badFrame.length - 4, badFrame, by decide +kernel⟩,
    ⟨carrying none, _, frameTo 0x8808 (zeros 6), rfl, by decide +kernel⟩,
    ⟨carrying none, _, frameTo 0x88B5 (zeros 6), rfl, by decide +kernel⟩,
    ⟨carrying none, _, frameTo 1 (ready.mac 0 0), rfl, by decide +kernel⟩,
    ⟨carrying none, _, 1, frameTo 0x88B5 (ready.mac 0 0), _, _, _, rfl, by decide +kernel, by decide +kernel, by decide +kernel, by decide +kernel, by decide +kernel,
      by decide +kernel, by decide +kernel, rfl, rfl, by decide +kernel, by decide +kernel, by decide +kernel, by decide +kernel, by decide +kernel,
      by decide +kernel, rfl, by decide +kernel⟩,
    ⟨carrying (some 999990), _, by decide +kernel, rfl, by decide +kernel⟩⟩

/-! ### Commands of ports and brides -/

/-- A bride whose conditions of OPEN hold or not, in a state. -/
def briding (st : BrideSt) (at_ : Nat) : State :=
  State.onBride { ready with img := { ready.img with run := some { image with config := { image.config with extents := [1, 4, 1, 1] } } } } 0
    (fun b => { b with st := st, openEn := true, atCount := at_ })

/-- A data flit that begins with an IDENT packet, or does not. -/
def identFlit (first : Nat) : List Byte :=
  let b := leBytes 4 0 ++ leBytes 1 first ++ zeros 247
  b ++ leBytes 4 (crc32c b)

theorem witness_PortCommandsAndBrides :
    (∀ st : PortSt, st ≠ .off → ∃ s : State, (s.port 2).link.st = st ∧ s.power.standby = true ∧ s.coreUp = true ∧
      (∀ m, s.mayCore m true = true) ∧ s.mayCore .host false = true ∧ 2 < s.ports.length) ∧
    (∃ s : State, Inv s ∧ s.power.standby = true ∧ s.coreUp = false ∧ s.mayCore .host false = false ∧ s.mayCore .mgmt true = false) ∧
    (∃ s : State, Inv s ∧ (s.bride 0).st = .closedActive ∧ s.brideMayOpen 0 = true ∧ (s.bride 0).atCount = s.belay.count) ∧
    (∃ s : State, Inv s ∧ (s.bride 0).st = .isOpen ∧ s.brideMayOpen 0 = false ∧ (s.bride 0).atCount = s.belay.count + 1) ∧
    (∀ b ∈ [0x90, 0x91], ∃ (s : State) (bs : List Byte), s.power.standby = true ∧ (s.bride 0).st = .closedActive ∧ flag (bytesAt bs 0 4) 31 = false ∧
      bytesAt bs 4 1 = b ∧ bytesAt bs 252 4 = crc32c (bs.take 252) ∧ s.may .mgmt true = true) := by
  refine ⟨fun st hst => ⟨inState 2 st [] id, ?_⟩, ⟨unpowered.settle, settle_inv _, by decide +kernel⟩,
    ⟨(briding .closedActive 1000000).settle, settle_inv _, by decide +kernel⟩, ⟨(briding .isOpen 1000001).settle, settle_inv _, by decide +kernel⟩,
    fun b hb => ⟨briding .closedActive 0, identFlit b, ?_⟩⟩
  · cases st <;> first | exact absurd rfl hst | exact ⟨by decide +kernel, by decide +kernel, by decide +kernel, fun m => by cases m <;> decide +kernel, by decide +kernel, by decide +kernel⟩
  · revert b; decide +kernel

/-! ### Fences -/

/-- READY with slice 7 fenced, its fence being cleared or not. -/
def fencing (g : GState) (fenced clearing : Bool) : State := (engine g 1000000).onSlice 7 (fun x => { x with fenced := fenced, clearing := clearing })

theorem witness_FencesSetAndCleared :
    (∃ s : State, 7 < s.slices.length ∧ 7 < s.seq.issue.length ∧ s.power.standby = true ∧ (s.slice 7).fenced = false ∧ (∀ m, s.may m true = true)) ∧
    (∃ s : State, Inv s ∧ 7 < s.slices.length ∧ 7 < s.seq.issue.length ∧ s.power.standby = true ∧ (s.slice 7).fenced = true) ∧
    (∀ g ∈ [GState.ready, .held], ∃ s : State, 7 < s.slices.length ∧ s.power.standby = true ∧ s.power.st = g ∧ (s.slice 7).fenced = true ∧
      (s.slice 7).clearing = false) ∧
    (∃ s : State, Inv s ∧ 7 < s.slices.length ∧ s.power.standby = true ∧ s.power.st ≠ .ready ∧ s.power.st ≠ .held) ∧
    (∃ s : State, 7 < s.slices.length ∧ 7 < s.seq.issue.length ∧ (s.slice 7).clearing = true) ∧
    (∃ s : State, 7 < s.slices.length ∧ 7 < s.seq.issue.length ∧ s.coreUp = true ∧ (s.slice 7).fenced = false) := by
  refine ⟨⟨fencing .running false false, by decide +kernel, by decide +kernel, by decide +kernel, by decide +kernel, fun m => by cases m <;> decide +kernel⟩,
    ⟨(fencing .running true false).settle, settle_inv _, by decide +kernel⟩, fun g hg => ⟨fencing g true false, ?_⟩,
    ⟨(fencing .running true false).settle, settle_inv _, by decide +kernel⟩, ⟨fencing .ready true true, by decide +kernel⟩,
    ⟨fencing .running false false, by decide +kernel⟩⟩
  simp only [List.mem_cons, List.not_mem_nil, or_false] at hg
  rcases hg with rfl | rfl <;> decide +kernel

/-! ### The receiver -/

/-- A receiver of a role in a state, with port 0 UP and VALID or not. -/
def receiving (role : Nat) (st : BelaySt) (valid : Bool) (f : Belay → Belay) : State :=
  let s := following st
  State.onPort { s with
    img := { s.img with run := some { image with config := { image.config with
      extents := [1, 4, 1, 1], belay := { image.config.belay with role := role, up := [0, 63, 63, 63] } } } }
    belay := f s.belay } 0 (fun q => { q with link := { q.link with st := .up }, belayRx := some (1024 * 977, valid, false) })

/-- The same in RUNNING. -/
def receivingIn (g : GState) (st : BelaySt) : State :=
  let s := receiving 0 st true id
  { s with power := { s.power with st := g } }

theorem witness_BelayReceiver :
    (∀ n ∈ [0, 1], ∃ s : State, Inv s ∧ s.power.standby = true ∧ s.belay.st = .locked ∧ s.belayBlock.role = 0 ∧ s.firstUsable.isSome = true ∧
      s.belay.badRun < 2 ∧ s.belay.disagree < 2 ∧ s.belay.lastGood + 2304 = s.belay.count + n) ∧
    (∃ s : State, s.power.standby = true ∧ s.belay.st = .locked ∧ s.belayBlock.role = 0 ∧ s.belay.badRun = 2) ∧
    (∃ s : State, s.power.standby = true ∧ s.belay.st = .locked ∧ s.belayBlock.role = 0 ∧ s.usable s.belay.cand = false ∧ s.firstUsable = none) ∧
    (∀ n ∈ [0, 1], ∃ s : State, Inv s ∧ s.power.standby = true ∧ s.belay.st = .holdover ∧ s.belay.hoStart + s.belayBlock.hold = s.belay.count + n) ∧
    (∀ n ∈ [3, 4], ∃ s : State, Inv s ∧ s.power.standby = true ∧ s.belay.st = .acquire ∧ s.img.run.isSome = true ∧ s.belayBlock.role = 0 ∧ s.firstUsable = some 0 ∧
      s.belay.goodRun = n) ∧
    (∃ s : State, s.power.standby = true ∧ s.belay.st = .acquire ∧ s.img.run.isSome = true ∧ s.belayBlock.role = 1 ∧ s.firstUsable = some 0 ∧ s.belay.goodRun = 16) ∧
    (∃ s : State, Inv s ∧ s.power.standby = true ∧ s.belay.st = .stalled ∧ s.belay.holdFor = true) ∧
    (∀ st ∈ [BelaySt.locked, .holdover, .stalled, .acquire], ∃ s : State, s.power.standby = true ∧ s.belayBlock.role = 2 ∧ s.belayBlock.refsel = false ∧
      s.belay.st = st ∧ s.img.run.isSome = true) ∧
    (∀ g ∈ [GState.ready, .running], ∃ s : State, s.power.standby = true ∧ s.belayBlock.role ≠ 2 ∧ 0 ∈ s.candidates ∧ s.usable 0 = true ∧
      s.belay.st = .holdover ∧ s.power.st = g ∧ s.req.launchOn = false) ∧
    (∃ s : State, s.power.standby = true ∧ s.belayBlock.role ≠ 2 ∧ 0 ∈ s.candidates ∧ s.usable 0 = true ∧ s.belay.st = .locked ∧
      s.usable s.belay.cand = false ∧ s.firstUsable = some 0 ∧ s.power.st = .running) ∧
    (∃ s : State, Inv s ∧ s.power.standby = true ∧ s.belayBlock.role ≠ 2 ∧ 0 ∈ s.candidates ∧ s.belay.st = .locked ∧ s.usable s.belay.cand = true) := by
  refine ⟨fun n hn => ⟨(receiving 0 .locked true (fun b => { b with lastGood := 997696 + n })).settle, settle_inv _, ?_⟩,
    ⟨receiving 0 .locked true (fun b => { b with badRun := 2 }), by decide +kernel⟩, ⟨receiving 0 .locked false id, by decide +kernel⟩,
    fun n hn => ⟨(receiving 0 .holdover true (fun b => { b with hoStart := 995904 + n })).settle, settle_inv _, ?_⟩,
    fun n hn => ⟨(receiving 0 .acquire true (fun b => { b with goodRun := n })).settle, settle_inv _, ?_⟩,
    ⟨receiving 1 .acquire true (fun b => { b with goodRun := 16 }), by decide +kernel⟩,
    ⟨(receiving 0 .stalled true (fun b => { b with holdFor := true })).settle, settle_inv _, by decide +kernel⟩,
    fun st hst => ⟨receiving 2 st true id, ?_⟩, fun g hg => ⟨receivingIn g .holdover, ?_⟩,
    ⟨{ receivingIn .running .locked with belay := { (receivingIn .running .locked).belay with cand := 4 } }, by decide +kernel⟩,
    ⟨(receiving 0 .locked true id).settle, settle_inv _, by decide +kernel⟩⟩
  · revert n; decide +kernel
  · revert n; decide +kernel
  · revert n; decide +kernel
  · simp only [List.mem_cons, List.not_mem_nil, or_false] at hst
    rcases hst with rfl | rfl | rfl | rfl <;> decide +kernel
  · simp only [List.mem_cons, List.not_mem_nil, or_false] at hg
    rcases hg with rfl | rfl <;> decide +kernel

/-! ### Groups, doorbells -/

/-- Group 255 in a state, in a global state. -/
def grouped (g : GState) (st tick : Nat) : State := (engine g 2500000).onGroup 255 (fun q => { q with st := st, armTick := tick })

/-- RUNNING with a window on slice 0 whose one entry of the dynamic pin ring is a pin. -/
def dynamicPin (p : Nat) : State :=
  let s := running.hbmWrite 4096 (leBytes 16 p)
  let im := { image with prickings := [{ (default : Pricking) with
    streams := List.replicate 9 [] ++ [[pin 15 0 0 0]], opens := [{ (default : OpenRec) with length := 2000000, slices := 1, maxPins := 1 }] }] }
  State.setReg (State.setReg { s with img := { s.img with run := some im } } (2 ^ 24 + 0xA8) 1) (2 ^ 24 + 0xAC) 2

theorem witness_GroupsAndDoorbells :
    (∃ (s : State) (m : Master), Inv s ∧ s.mayCore m false = true ∧ s.power.st = .ready ∧ (s.groupQ 255).st = 0) ∧
    (∀ st ∈ [2, 3], ∃ (s : State) (m : Master), Inv s ∧ s.mayCore m false = true ∧ s.power.st = .held ∧ (s.groupQ 255).st = st) ∧
    (∀ mx ∈ [([] : List Nat), [0xFFFFFFFF], [0, 0, 0, 0, 0xFFFFFFFF]], ∃ (s : State) (w c : Nat) (v : Nat → Nat), w = s.image.conf ∧
      c = crc32c (s.image.group 255).bytes ∧
      v = (fun i => Nat.max (nth mx i 0) (nth [w % 2 ^ 32, w / 2 ^ 32 % 2 ^ 32, not32 w, not32 (w / 2 ^ 32), c, not32 c] i 0)) ∧
      (s.groupQ 255).st = 1 ∧ s.coreUp = true ∧ (mx = [] → v 0 = not32 (v 2) ∧ v 1 = not32 (v 3) ∧ v 4 = not32 (v 5)) ∧
      (mx.length = 1 → v 0 ≠ not32 (v 2)) ∧ (mx.length = 5 → v 0 = not32 (v 2) ∧ v 1 = not32 (v 3) ∧ v 4 ≠ not32 (v 5))) ∧
    (∀ n ∈ [0, 1], ∃ s : State, Inv s ∧ (s.groupQ 255).st = 1 ∧ s.coreUp = true ∧ (s.groupQ 255).armTick + 2500000 = s.belay.count + n) ∧
    (∀ n ∈ [254, 255], ∃ (s : State) (m : Master), s.mayCore m false = true ∧ s.seq.doorbells = n ∧ s.seq.gateWait = false ∧ s.power.st ≠ .running) ∧
    (∀ e ∈ [(2000000, 2), (1000255, 3), (1000256, 0), (18 * 2 ^ 32, 1)], ∃ (s : State) (m : Master) (bytes : List Byte), s.mayCore m false = true ∧ s.power.st = .running ∧ s.reg 0xB0 = 0 ∧
      bytes = s.hbmRead (s.reg (2 ^ 24 + 0xA8) * 4096) 16 ∧ s.hbmFaulty (s.reg (2 ^ 24 + 0xA8) * 4096) 16 = false ∧
      s.dynReason (Pin.ofNat (leNat bytes)) = e.2) := by
  refine ⟨⟨(grouped .ready 0 0).settle, .host, settle_inv _, by decide +kernel⟩, fun st hst => ⟨(grouped .held st 0).settle, .host, settle_inv _, ?_⟩,
    fun mx hmx => ⟨grouped .ready 1 0, _, _, _, rfl, rfl, rfl, ?_⟩, fun n hn => ⟨(grouped .ready 1 n).settle, settle_inv _, ?_⟩,
    fun n hn => ⟨{ ready with seq := { ready.seq with doorbells := n } }, .host, ?_⟩, fun e he => ⟨dynamicPin e.1, .host, _, ?_, ?_, ?_, rfl, ?_⟩⟩
  · revert st; decide +kernel
  · revert mx; decide +kernel
  · revert n; decide +kernel
  · revert n; decide +kernel
  all_goals (revert e; decide +kernel)

end Sys2Proof.Tests
end

