-- ==== Sys2Proof/Tests/GroundWitnesses.lean ====
section
/-! SUPPORT. The witnesses of the statements about ground queues, remote access, anchors, cairns and images. -/

namespace Sys2Proof.Tests

open Sys2Proof Sys2Proof.Machine

set_option Elab.async false

/-! ### Ground queues -/

/-- An outstanding message of queue 5, its RTO or backoff at a tick, after silent expiries. -/
def outMsg (timer : MsgTimer) (at_ silent first : Nat) : OutMsg := ⟨9, 0, 0, 1, silent, first, timer, at_, 64, false⟩

/-- READY with ground queue 5 in a state, and what else is given of it. -/
def queued (st : QSt) (f : GroundQ → GroundQ) : State := ready.onGround 5 (fun g => f { g with st := st })

/-- An entry of three messages, of which none, one or all have ended, or one failed. -/
def entryRun (started done : Nat) (failed : Option (Nat × Nat × Nat)) : EntryRun := ⟨0, 3, started, done, failed, false, 0⟩

/-- No entry waits, as a check of the table. -/
theorem noWaits_of {s : State} (h : s.gq.all (fun e => e.2.runs.all (fun r => !r.waiting)) = true) : NoWaits s := by
  intro e he r hr
  simpa using List.all_eq_true.mp (List.all_eq_true.mp h e he) r hr

theorem witness_GroundQueues :
    (∀ desc ∈ [0, 1], ∃ (s : State) (m : Master), s.mayCore m false = true ∧ NoWaits s ∧ (s.groundQ 5).st = .idle ∧ s.descError (s.groundQ 5) = desc) ∧
    (∀ st : QSt, ∃ (s : State) (m : Master), Inv s ∧ s.mayCore m false = true ∧ NoWaits s ∧ (s.groundQ 5).st = st) ∧
    (∀ st : QSt, ∃ (s : State) (m : Master) (r : EntryRun), s.mayCore m false = true ∧ NoWaits s ∧ (s.groundQ 5).st = st ∧ (s.groundQ 5).out ≠ [] ∧
      (∀ r ∈ (s.groundQ 5).runs, r.failed = none) ∧ (s.groundQ 5).headRun = some r ∧ r.done ≠ r.total) ∧
    (∀ tail ∈ [0, 1], ∃ (s : State) (m : Master), s.mayCore m false = true ∧ NoWaits s ∧ (s.groundQ 5).st = .suspended ∧ (s.groundQ 5).runs = [] ∧
      (s.groundQ 5).tail = tail ∧ (s.groundQ 5).head = 0) ∧
    (∃ (s : State) (m : Master) (r : EntryRun), s.mayCore m false = true ∧ NoWaits s ∧ (s.groundQ 5).st = .faulted ∧ (s.groundQ 5).out = [] ∧
      (s.groundQ 5).suspPending = true ∧ (s.groundQ 5).headRun = some r ∧ r.failed = some (1, 8, 0)) ∧
    (∀ tail ∈ [16, 17], ∃ (s : State) (m : Master), s.mayCore m false = true ∧ (s.groundQ 5).st = .armed ∧ (s.groundQ 5).head = 0 ∧
      ((tail + 2 ^ 16 - (s.groundQ 5).head) % 2 ^ 16 ≤ (s.groundQ 5).ringSize ↔ tail = 16)) ∧
    (∃ s : State, Inv s ∧ s.mayCore .mgmt false = false) := by
  refine ⟨fun d hd => ⟨queued .idle (fun g => { g with desc := [1, d, 0, 0, 0, 0, 0, 0] }), .host, ?_, noWaits_of ?_, ?_⟩,
    fun st => ⟨(queued st id).settle, .host, settle_inv _, ?_, noWaits_of ?_, ?_⟩,
    fun st => ⟨queued st (fun g => { g with runs := [entryRun 1 0 none], out := [outMsg .rto 0 0 0] }), .host, entryRun 1 0 none, ?_, noWaits_of ?_, ?_⟩,
    fun t ht => ⟨queued .suspended (fun g => { g with tail := t }), .host, ?_, noWaits_of ?_, ?_⟩,
    ⟨queued .faulted (fun g => { g with runs := [entryRun 2 1 (some (1, 8, 0))], suspPending := true }), .host, _, by decide +kernel,
      noWaits_of (by decide +kernel), by decide +kernel, by decide +kernel, by decide +kernel, rfl, rfl⟩,
    fun t ht => ⟨queued .armed id, .host, ?_⟩, ⟨ready.settle, settle_inv _, by decide +kernel⟩⟩
  iterate 3 (revert d; decide +kernel)
  iterate 6 (cases st <;> decide +kernel)
  iterate 3 (revert t; decide +kernel)
  revert t; decide +kernel

/-- READY with a running queue of up to two outstanding messages whose next message is a plain WRITE's. -/
def sending (out : List OutMsg) : State :=
  (ready.hbmWrite 4096 (leBytes 4 (2 ^ 28) ++ zeros 40 ++ leBytes 8 9000 ++ zeros 12)).onGround 5 (fun g =>
    { g with st := .running, desc := [1, 2 ^ 20, 0, 0, 0, 0, 0, 0], tail := 1, runs := [entryRun 0 0 none], out := out })

theorem witness_MessagesOut :
    (∃ (s : State) (g : GroundQ) (i k : Nat) (e : RingEnt) (fl : Bool), s.coreUp = true ∧ g = s.groundQ 5 ∧ g.st = .running ∧ g.nextMessage = some (i, k) ∧
      e = RingEnt.parse (s.hbmRead (g.entryAddr i) 64) ∧ fl = e.flagged (g.messages e) k ∧ s.outstanding < 4096 ∧ g.out.length + 1 = g.maxOut ∧
      (fl = true → g.out = []) ∧ g.out.any (·.flagged) = false) ∧
    (∃ s : State, Inv s ∧ s.coreUp = true ∧ (s.groundQ 5).st = .running ∧ (s.groundQ 5).nextMessage.isSome = true ∧
      (s.groundQ 5).maxOut = (s.groundQ 5).out.length) ∧
    (∃ s : State, Inv s ∧ s.coreUp = true ∧ (s.groundQ 5).st ≠ .running) ∧
    (∀ x ∈ [(6, 999999), (7, 999999), (6, 0)], ∃ (s : State) (m : OutMsg), s.coreUp = true ∧ s.outMsg 5 9 = some m ∧ (s.groundQ 5).st ≠ .draining ∧
      m.timer = .rto ∧ m.timerAt = s.belay.count ∧ m.silent = x.1 ∧ m.first = x.2 ∧ s.reg 0x50008 = 1000000) ∧
    (∀ first ∈ [0, 1], ∃ (s : State) (m : OutMsg), s.coreUp = true ∧ s.outMsg 5 9 = some m ∧ (s.groundQ 5).st ≠ .draining ∧
      m.timer = .backoff ∧ m.timerAt = s.belay.count ∧ m.first + s.reg 0x50008 = s.belay.count + first) ∧
    (∃ (s : State) (m : OutMsg), Inv s ∧ s.coreUp = true ∧ s.outMsg 5 9 = some m ∧ (s.groundQ 5).st ≠ .draining ∧ s.belay.count + 1 = m.timerAt ∧
      s.belay.count < m.first + s.reg 0x50008 ∧ m.silent = 7) := by
  refine ⟨⟨sending [outMsg .rto 1000001 0 1], _, 0, 0, _, _, by decide +kernel, rfl, by decide +kernel, by decide +kernel, rfl, rfl, by decide +kernel⟩,
    ⟨(sending [outMsg .rto 1000001 0 1, outMsg .rto 1000001 0 1]).settle, settle_inv _, by decide +kernel⟩, ⟨ready.settle, settle_inv _, by decide +kernel⟩,
    fun x hx => ⟨(sending [outMsg .rto 1000000 x.1 x.2]).setReg 0x50008 1000000, outMsg .rto 1000000 x.1 x.2, ?_⟩,
    fun f hf => ⟨(sending [outMsg .backoff 1000000 0 f]).setReg 0x50008 1000000, outMsg .backoff 1000000 0 f, ?_⟩,
    ⟨((sending [outMsg .rto 1000001 7 1]).setReg 0x50008 1000000).settle, outMsg .rto 1000001 7 1, settle_inv _, by decide +kernel⟩⟩
  · revert x; decide +kernel
  · revert f; decide +kernel

/-! ### Remote access -/

/-- The code with which a check failed. -/
def failure {α : Type} : Except Nat α → Option Nat
  | .error n => some n
  | .ok _ => none

/-- A check that failed with a code is that failure. -/
theorem error_of_failure {α : Type} {e : Except Nat α} {n : Nat} (h : failure e = some n) : e = .error n := by
  cases e with
  | error => exact congrArg _ (Option.some.inj h)
  | ok => exact nomatch h

/-- Anchor 7 ARMED with tag 3, epoch 2 and every right, 4,096 bytes long, on the page that HBM names. -/
def anchored (f : Anchor → Anchor) : State :=
  (ready.hbmWrite 4096 (leBytes 8 (2 ^ 63 + 2 ^ 21))).onAnchor 7 (fun a => f { a with
    st := .armed, tag := 3, epoch := 2, rightF := true, rightW := true, rightR := true, length := 4096, plBase := 1, bound := true, fsrc := 0, fsq := 0, lastFseq := 5 })

/-- A ground packet with its extension. -/
def groundPkt (type : Nat) (h : PktHead) (e : AncExt) (payload : List Byte) : List Byte :=
  packetBytes { h with vc := 3, type := type, first := true, last := true } e.bytes payload

/-- A header of epoch 2 and a sequence. -/
def headOf (seq : Nat) : PktHead := { (default : PktHead) with epoch := 2, seq := seq }

/-- A packet of a WRITE to that anchor, a flag packet or not. -/
def writeTo (flag_ : Bool) (seq : Nat) : List Byte := groundPkt 8 (headOf seq) ⟨flag_, 0, 0, 0, 3 * 2 ^ 16 + 7⟩ (zeros 16)

/-- A packet of a type that passes by: to the package at 0x400, from another. -/
def passing (type src : Nat) : List Byte := packetBytes { (default : PktHead) with vc := 3, type := type, src := src, dst := 0x400, first := true, last := true } [] (zeros 16)

theorem witness_RemoteWrites :
    (∀ x ∈ [(8, 0, true), (9, 0x200, false), (0x0A, 0x200, false), (0x0B, 0, true)], ∃ (s u : State) (pkt : List Byte) (h : PktHead), Arrives s u 0 pkt x.1 h ∧
      u.passedDest 0 h = x.2.2 ∧ h.dst ≠ u.coord) ∧
    (∃ (s u : State) (pkt : List Byte) (h : PktHead), Reaches s u 2 pkt 8 h ∧ h.ext = false) ∧
    (∀ q ∈ [5, 6], ∃ (s u : State) (pkt : List Byte) (h : PktHead) (e : AncExt), Reaches s u 2 pkt 8 h ∧ e = packetExt pkt ∧ u.auxGood 2 h e = true ∧
      cutGood h e = true ∧ h.ext = true ∧ e.npm1 = 0 ∧ e.flag_ = true ∧ u.checkKey h e .flagWrite = 0 ∧
      (h.seq + 2 ^ 32 - (u.anchor (e.key % 2 ^ 16)).lastFseq) % 2 ^ 32 = q - 5) ∧
    (∃ (s u v : State) (pkt : List Byte) (h : PktHead) (e : AncExt) (segs : List (Nat × Nat)), Reaches s u 2 pkt 8 h ∧ e = packetExt pkt ∧
      u.auxGood 2 h e = true ∧ cutGood h e = true ∧ h.ext = true ∧ e.npm1 = 0 ∧ e.flag_ = false ∧
      u.checkAccess (portSlice 2) h e .write (e.moff + h.offset) (packetPayload pkt).length = (v, .ok segs)) ∧
    (∃ (s u v : State) (pkt : List Byte) (h : PktHead) (e : AncExt), Reaches s u 2 pkt 8 h ∧ e = packetExt pkt ∧
      u.auxGood 2 h e = true ∧ cutGood h e = true ∧ h.ext = true ∧ e.npm1 = 0 ∧ e.flag_ = false ∧
      u.checkAccess (portSlice 2) h e .write (e.moff + h.offset) (packetPayload pkt).length = (v, .error 7)) ∧
    (∃ (s : State) (e : AncExt) (a : Anchor), a = s.anchor (e.key % 2 ^ 16) ∧ a.st = .armed ∧ e.key / 2 ^ 16 + 1 = a.tag) ∧
    (∃ (s : State) (h : PktHead) (e : AncExt) (a : Anchor), a = s.anchor (e.key % 2 ^ 16) ∧ a.st = .armed ∧ e.key / 2 ^ 16 ≠ 0 ∧ e.key / 2 ^ 16 = a.tag ∧
      h.epoch + 1 = a.epoch) ∧
    (∃ (s : State) (h : PktHead) (e : AncExt) (a : Anchor), a = s.anchor (e.key % 2 ^ 16) ∧ a.st = .armed ∧ e.key / 2 ^ 16 ≠ 0 ∧ e.key / 2 ^ 16 = a.tag ∧
      h.epoch = a.epoch ∧ a.bound = true ∧ h.src ≠ a.fsrc) ∧
    (∃ (s : State) (h : PktHead) (e : AncExt) (a : Anchor) (off n : Nat), a = s.anchor (e.key % 2 ^ 16) ∧ a.st = .armed ∧ e.key / 2 ^ 16 ≠ 0 ∧
      e.key / 2 ^ 16 = a.tag ∧ h.epoch = a.epoch ∧ a.rightW = true ∧ a.length + 1 = off + n) := by
  refine ⟨fun x hx => ⟨ringing true (passing x.1 x.2.1), _, passing x.1 x.2.1, _, ⟨⟨?_, ?_⟩, rfl, rfl⟩, ?_⟩,
    ⟨arriving ready 2 (control 8 []), _, control 8 [], _, ⟨⟨⟨by decide +kernel, rfl⟩, rfl, rfl⟩, by decide +kernel⟩, by decide +kernel⟩,
    fun q hq => ⟨arriving (anchored id) 2 (writeTo true q), _, writeTo true q, _, _, ⟨⟨⟨?_, ?_⟩, rfl, rfl⟩, ?_⟩, rfl, ?_⟩,
    ⟨arriving (anchored id) 2 (writeTo false 0), _, _, writeTo false 0, _, _, [(2 ^ 21, 16)], ⟨⟨⟨by decide +kernel, rfl⟩, rfl, rfl⟩, by decide +kernel⟩, rfl,
      by decide +kernel, by decide +kernel, by decide +kernel, by decide +kernel, by decide +kernel, Prod.ext rfl (ok_of_toOption (by decide +kernel))⟩,
    ⟨arriving (anchored (fun a => { a with length := 15 })) 2 (writeTo false 0), _, _, writeTo false 0, _, _, ⟨⟨⟨by decide +kernel, rfl⟩, rfl, rfl⟩, by decide +kernel⟩, rfl,
      by decide +kernel, by decide +kernel, by decide +kernel, by decide +kernel, by decide +kernel, Prod.ext rfl (error_of_failure (by decide +kernel))⟩,
    ⟨anchored id, ⟨false, 0, 0, 0, 2 * 2 ^ 16 + 7⟩, _, rfl, by decide +kernel⟩,
    ⟨anchored id, { headOf 0 with epoch := 1 }, ⟨false, 0, 0, 0, 3 * 2 ^ 16 + 7⟩, _, rfl, by decide +kernel⟩,
    ⟨anchored id, { headOf 0 with src := 1 }, ⟨false, 0, 0, 0, 3 * 2 ^ 16 + 7⟩, _, rfl, by decide +kernel⟩,
    ⟨anchored id, headOf 0, ⟨false, 0, 0, 0, 3 * 2 ^ 16 + 7⟩, _, 4096, 1, rfl, by decide +kernel⟩⟩
  iterate 3 (revert x; decide +kernel)
  all_goals (revert q; decide +kernel)

/-- A READ-REQ of bytes of that anchor. -/
def readFrom (moff n : Nat) : List Byte :=
  packetBytes { headOf 4 with vc := 3, type := 9, first := true, last := true } (AncExt.bytes ⟨false, 0, 0, moff, 3 * 2 ^ 16 + 7⟩) (leBytes 16 ((n - 1) * 2 ^ 72))

/-- With so many requests waiting at the responder of slice 0. -/
def responding (n : Nat) (s : State) : State := { s with anc := { s.anc with jobs := [(0, List.replicate n ⟨1, 0, 4, 3 * 2 ^ 16 + 7, 2, 0, 0, 0, 16, 0⟩)] } }

/-- An ACK with a code for message 9 of queue 5. -/
def ackPkt (code q : Nat) : List Byte :=
  packetBytes { (default : PktHead) with vc := 3, type := 0x0B, group := code, seq := 9, first := true, last := true } [] (leBytes 16 (q * 2 ^ 32))

theorem witness_ReadsAndAnswers :
    (∀ x ∈ [(4095, 63), (4095, 64), (4096, 0)], ∃ (s u : State) (pkt : List Byte) (h : PktHead) (e : AncExt) (n : Nat), Reaches s u 2 pkt 9 h ∧ e = packetExt pkt ∧
      n = field (leNat (packetPayload pkt)) 91 72 + 1 ∧ u.auxGood 2 h e = true ∧ h.ext = true ∧ h.first = true ∧ h.last = true ∧ h.offset = 0 ∧ h.len = 16 ∧
      e.npm1 = 0 ∧ e.flag_ = false ∧ u.checkKey h e .read = 0 ∧ (e.moff + n ≤ (u.anchor (e.key % 2 ^ 16)).length ↔ x.1 = 4095) ∧
      (u.anc.jobs.get [] (portSlice 2)).length = x.2) ∧
    (∃ (s v : State) (j : ReadJob) (segs : List (Nat × Nat)) (bs : List Byte), s.coreUp = true ∧ (s.slice 0).fenced = false ∧ s.anc.jobs.get [] 0 = [j] ∧
      1 ≤ j.rlen ∧ j.rlen ≤ 4096 ∧ State.checkAccess { s with anc := { s.anc with jobs := s.anc.jobs.put 0 [] } } 0
        { (default : PktHead) with src := j.src, seq := j.seq, epoch := j.epoch } ⟨false, 0, j.sq, j.moff, j.key⟩ .read j.moff j.rlen = (v, .ok segs) ∧
      v.readSegs segs = some bs) ∧
    (∃ (s u v : State) (pkt : List Byte) (h : PktHead) (e : AncExt) (segs : List (Nat × Nat)), Reaches s u 2 pkt 0x0A h ∧ e = packetExt pkt ∧ h.ext = true ∧
      cutGood h e = true ∧ e.flag_ = false ∧ e.npm1 = 0 ∧
      u.checkAccess (portSlice 2) h e .write (e.moff + h.offset) (packetPayload pkt).length = (v, .ok segs)) ∧
    (∃ (s u : State) (pkt : List Byte) (h : PktHead), Reaches s u 2 pkt 0x0B h ∧ field (leNat (packetPayload pkt)) 42 32 = 4 ∧ u.outMsg 4 h.seq = none) ∧
    (∀ code ∈ [1, 2, 3, 4, 5, 6, 7], ∃ (s u : State) (pkt : List Byte) (h : PktHead) (x : OutMsg), Reaches s u 2 pkt 0x0B h ∧
      field (leNat (packetPayload pkt)) 42 32 = 5 ∧ u.outMsg 5 h.seq = some x ∧ h.group = code ∧ (u.groundQ 5).st ≠ .draining ∧
      ((RingEnt.parse (u.hbmRead ((u.groundQ 5).entryAddr x.entry) 64)).type = 2 ↔ flag (leNat (packetPayload pkt)) 43 = true)) := by
  refine ⟨fun x hx => ⟨responding x.2 (arriving (anchored id) 2 (readFrom x.1 1)), _, readFrom x.1 1, _, _, _, ⟨⟨⟨?_, ?_⟩, rfl, rfl⟩, ?_⟩, rfl, rfl, ?_⟩,
    ⟨responding 1 (anchored id), _, ⟨1, 0, 4, 3 * 2 ^ 16 + 7, 2, 0, 0, 0, 16, 0⟩, [(2 ^ 21, 16)], _, by decide +kernel, by decide +kernel, by decide +kernel,
      by decide +kernel, by decide +kernel, Prod.ext rfl (ok_of_toOption (by decide +kernel)), rfl⟩,
    ⟨arriving (anchored id) 2 (groundPkt 0x0A (headOf 4) ⟨false, 0, 0, 0, 3 * 2 ^ 16 + 7⟩ (zeros 16)), _, _,
      groundPkt 0x0A (headOf 4) ⟨false, 0, 0, 0, 3 * 2 ^ 16 + 7⟩ (zeros 16), _, _, [(2 ^ 21, 16)], ⟨⟨⟨by decide +kernel, rfl⟩, rfl, rfl⟩, by decide +kernel⟩, rfl,
      by decide +kernel, by decide +kernel, by decide +kernel, by decide +kernel, Prod.ext rfl (ok_of_toOption (by decide +kernel))⟩,
    ⟨arriving ready 2 (ackPkt 1 4), _, ackPkt 1 4, _, ⟨⟨⟨by decide +kernel, rfl⟩, rfl, rfl⟩, by decide +kernel⟩, by decide +kernel⟩,
    fun c hc => ⟨arriving (sending [outMsg .rto 1000001 0 1]) 2 (ackPkt c 5), _, ackPkt c 5, _, outMsg .rto 1000001 0 1, ⟨⟨⟨?_, ?_⟩, rfl, rfl⟩, ?_⟩, ?_⟩⟩
  iterate 4 (revert x; decide +kernel)
  all_goals (revert c; decide +kernel)

/-! ### Anchors -/

/-- Anchor 7 in a state, an operation on it in progress. -/
def operating (st : AnchorSt) (busy : Option (Nat × Nat)) (f : Anchor → Anchor) : State :=
  let s := (anchored id).onAnchor 7 (fun a => f { a with st := st })
  { s with anc := { s.anc with busy := busy, sel := 7 } }

/-- The tracker entry of a message from package 1, its last packet seen or not. -/
def tracked (last : Option Nat) (seen : Nat) : State :=
  let s := anchored id
  State.setReg (State.setReg { s with anc := { s.anc with tracker :=
    [⟨1, 0, 4, false, 7, 3 * 2 ^ 16 + 7, 2, [], none, none, last, seen, none⟩] } } 0x200030 100) 0x200034 200

theorem witness_AnchorEngine :
    (∃ (s : State) (m : Master), s.mayCore m false = true ∧ s.anc.busy = none) ∧ (∃ (s : State) (m : Master), Inv s ∧ s.mayCore m false = true ∧ s.anc.busy.isSome = true) ∧
    (∃ (s : State) (a : Anchor), s.anc.busy = some (1, 7) ∧ a = s.anchor 7 ∧ (∀ t ∈ s.anc.tracker, t.anchor ≠ 7) ∧ NoWaits s ∧ s.anchorRefusal 1 7 = 0) ∧
    (∃ (s : State) (a : Anchor), s.anc.busy = some (2, 7) ∧ a = s.anchor 7 ∧ (∀ t ∈ s.anc.tracker, t.anchor ≠ 7) ∧ NoWaits s ∧ a.st = .armed) ∧
    (∃ (s : State) (a : Anchor), s.anc.busy = some (3, 7) ∧ a = s.anchor 7 ∧ (∀ t ∈ s.anc.tracker, t.anchor ≠ 7) ∧ NoWaits s ∧ a.st = .revoked) ∧
    (∀ x ∈ [(996097, 3, 4096, 1), (0, 0, 4096, 2), (0, 3, 0, 4)], ∃ s : State, s.anc.busy = some (1, 7) ∧ (∀ t ∈ s.anc.tracker, t.anchor ≠ 7) ∧
      s.anchorRefusal 1 7 = x.2.2.2) ∧
    (∀ st : AnchorSt, ∃ (s : State) (m : Master), Inv s ∧ s.mayCore m false = true ∧ s.anc.sel = 7 ∧ (s.anchor 7).st = st) ∧
    (∀ n ∈ [0, 1], ∃ (s : State) (t : TrackEnt), Inv s ∧ s.track 1 0 4 false = some t ∧ t.lastTick = some (999900 + n) ∧ 999900 + s.reg 0x200030 = s.belay.count) ∧
    (∀ n ∈ [0, 1], ∃ (s : State) (t : TrackEnt), Inv s ∧ s.track 1 0 4 false = some t ∧ t.lastTick = none ∧ t.seenTick + s.reg 0x200034 = s.belay.count + n) := by
  refine ⟨⟨operating .free none id, .host, by decide +kernel⟩, ⟨(operating .free (some (1, 7)) id).settle, .host, settle_inv _, by decide +kernel⟩,
    ⟨operating .free (some (1, 7)) (fun a => { a with lastArm := some 995904 }), _, rfl, rfl, by decide +kernel, noWaits_of (by decide +kernel), by decide +kernel⟩,
    ⟨operating .armed (some (2, 7)) id, _, rfl, rfl, by decide +kernel, noWaits_of (by decide +kernel), by decide +kernel⟩,
    ⟨operating .revoked (some (3, 7)) id, _, rfl, rfl, by decide +kernel, noWaits_of (by decide +kernel), by decide +kernel⟩,
    fun x hx => ⟨operating .free (some (1, 7)) (fun a => { a with lastArm := some x.1, tag := x.2.1, length := x.2.2.1 }), rfl, ?_, ?_⟩,
    fun st => ⟨(operating st none id).settle, .host, settle_inv _, ?_⟩,
    fun n hn => ⟨(tracked (some (999900 + n)) 0).settle, ⟨1, 0, 4, false, 7, 3 * 2 ^ 16 + 7, 2, [], none, none, some (999900 + n), 0, none⟩, settle_inv _, ?_⟩,
    fun n hn => ⟨(tracked none (999800 + n)).settle, ⟨1, 0, 4, false, 7, 3 * 2 ^ 16 + 7, 2, [], none, none, none, 999800 + n, none⟩, settle_inv _, ?_⟩⟩
  iterate 2 (revert x; decide +kernel)
  · cases st <;> decide +kernel
  all_goals (revert n; decide +kernel)

/-! ### Cairns -/

/-- A cairn log with so many open windows, and a cairn. -/
def logOf (windows : Nat) : CairnLog :=
  ⟨[], 0, 0, [], (List.range windows).map (fun i => { (default : CairnWin) with cls := 1, source := i }), [], 0, 0, []⟩

/-- READY with a record in the entry queue, so many unread records in the ring. -/
def entering (cls unread : Nat) : State := { ready with cairn := ⟨[], unread, 0, [cls * 2 ^ 128], [{ (default : CairnWin) with cls := 1, opened := 4975000, count := 2 }], [], 0, 0, []⟩ }

theorem witness_Cairns :
    (∀ x ∈ [(0, 5), (128, 127), (128, 128)], ∃ (l : CairnLog) (c : CairnSub), l.windows.length = x.1 ∧ c.source = x.2 ∧
      ((l.windows.find? (fun w => w.cls = c.cls ∧ w.source = c.source)).isSome = true ↔ x = (128, 127)) ∧ l.queue.length < 256) ∧
    (∃ l : CairnLog, l.queue.length = 256) ∧
    (∀ x ∈ [(1, 4031), (3, 4032), (3, 4095)], ∃ (s : State) (r : Nat), s.power.standby = true ∧ s.cairn.queue = [r] ∧ s.cairn.unread = x.2 ∧ s.cairn.unread < 4096 ∧
      (s.cairn.unread < 4032 ∨ reservedClass (recordClass r) = true)) ∧
    (∀ x ∈ [(1, 4032), (3, 4096)], ∃ (s : State) (r : Nat), s.power.standby = true ∧ s.cairn.queue = [r] ∧ s.cairn.unread = x.2 ∧
      (4096 ≤ s.cairn.unread ∨ (4032 ≤ s.cairn.unread ∧ reservedClass (recordClass r) = false))) ∧
    (∃ s : State, Inv s ∧ s.power.standby = true ∧ s.cairn.queue = []) ∧
    (∃ (s : State) (w : CairnWin), s.power.standby = true ∧ s.cairn.windows.find? (fun w => w.cls = 1 ∧ w.source = 0) = some w ∧ w.opened + 25000 = s.power.cycles ∧
      1 < w.count) ∧
    (∀ v ∈ [4, 5], ∃ (s : State) (m : Master), s.may m true = true ∧ s.coreUp = true ∧ s.cairn.badParity = [] ∧
      ((v % 8192 + 8192 - s.cairn.rd) % 8192 ≤ s.cairn.unread ↔ v = 4)) ∧
    (∃ s : State, Inv s ∧ s.power.standby = true ∧ (∀ m, s.may m true = true) ∧ s.coreUp = false) ∧ (∃ (s : State) (m : Master), Inv s ∧ s.may m true = false) ∧
    (∃ (s : State) (skip : Nat), s.power.standby = true ∧ skip = (4 + 8192 - s.cairn.rd) % 8192 ∧ skip = s.cairn.unread ∧ s.cairn.badParity = [] ∧ s.cairn.rd < 8192) ∧
    (∃ (s : State) (skip : Nat), s.power.standby = true ∧ skip = (5 + 8192 - s.cairn.rd) % 8192 ∧ s.cairn.unread < skip) := by
  refine ⟨fun x hx => ⟨logOf x.1, ⟨1, x.2, 0, 0, 0⟩, ?_⟩, ⟨{ logOf 0 with queue := List.replicate 256 0 }, by decide +kernel⟩,
    fun x hx => ⟨entering x.1 x.2, x.1 * 2 ^ 128, ?_⟩, fun x hx => ⟨entering x.1 x.2, x.1 * 2 ^ 128, ?_⟩, ⟨ready.settle, settle_inv _, by decide +kernel⟩,
    ⟨entering 1 0, _, rfl, rfl, by decide +kernel⟩, fun v hv => ⟨entering 1 4, .mgmt, ?_⟩,
    ⟨unpowered.settle, settle_inv _, by decide +kernel, fun m => by cases m <;> decide +kernel, by decide +kernel⟩,
    ⟨(owned .mgmt 0 0).settle, .host, settle_inv _, by decide +kernel⟩, ⟨entering 1 4, _, rfl, rfl, by decide +kernel⟩, ⟨entering 1 4, _, rfl, rfl, by decide +kernel⟩⟩
  iterate 3 (revert x; decide +kernel)
  revert v; decide +kernel

/-! ### Images -/

/-- A staging of a copy, by a master, in a state, in a global state. -/
def stagingIn (g : GState) (st : Nat) (byMgmt : Bool) : State :=
  let s := engine g 1000000
  { s with img := { s.img with staging := ⟨st, byMgmt, true, 8192, 0, true⟩ } }

/-- The copies' room, and a copy that reads back as a VALID one would, are taken as given: the store's size and its signatures are not known. -/
theorem witness_StagingOfImages :
    (4096 + 4096 ≤ copyRoom → ∃ s : State, s.power.standby = true ∧ s.stages = false ∧ s.power.st ≠ .loading ∧ roundUp 4096 4096 + 4096 ≤ copyRoom) ∧
    (∀ g ∈ [GState.loading, .ready], ∃ s : State, s.power.standby = true ∧ (s.stages = true ∨ s.power.st = .loading) ∧ s.power.st = g) ∧
    (∃ s : State, s.power.standby = true ∧ s.stages = false ∧ s.power.st ≠ .loading) ∧
    (∃ (s : State) (g : Staging), s.power.standby = true ∧ g = s.img.staging ∧ g.st = 1 ∧ g.byMgmt = true ∧ 4192 + 4000 = roundUp g.len 4096) ∧
    (∀ h, headGood h = false → ∃ (s : State) (g : Staging), s.power.standby = true ∧ g = s.img.staging ∧ g.st = 1 ∧ g.byMgmt = true ∧
      (s.img.loaded = false ∨ s.img.seq < headSeq h)) ∧
    (∃ (s : State) (g : Staging), s.power.standby = true ∧ g = s.img.staging ∧ g.st ≠ 1) ∧
    (∃ (s : State) (m : Master), s.may m false = true ∧ s.stages = false ∧ s.power.st = .ready ∧ s.img.loaded = false) ∧
    (∀ g ∈ [GState.off, .bivouac], ∃ (s : State) (m : Master), s.may m false = true ∧ s.stages = false ∧ s.power.st = g) ∧
    (∀ b : Bool, ∃ (s : State) (m : Master), s.may m false = true ∧ s.img.staging.st = 1 ∧ s.img.staging.byMgmt = b) ∧
    (∃ (s : State) (m : Master), Inv s ∧ s.may m false = true ∧ s.img.staging.st ≠ 1) := by
  refine ⟨fun h => ⟨ready, by decide +kernel, by decide +kernel, by decide +kernel, h⟩,
    fun g hg => ⟨stagingIn g 1 true, ?_⟩, ⟨ready, by decide +kernel⟩, ⟨stagingIn .ready 1 true, _, by decide +kernel, rfl, by decide +kernel⟩,
    fun h _ => ⟨{ stagingIn .ready 1 true with img := { (stagingIn .ready 1 true).img with loaded := false } }, _, rfl, rfl, rfl, rfl, Or.inl rfl⟩,
    ⟨stagingIn .ready 4 true, _, by decide +kernel, rfl, by decide +kernel⟩,
    ⟨{ ready with img := { ready.img with loaded := false } }, .host, by decide +kernel⟩, fun g hg => ⟨stagingIn g 0 false, .host, ?_⟩,
    fun b => ⟨stagingIn .ready 1 b, .host, ?_⟩, ⟨ready.settle, .host, settle_inv _, by decide +kernel⟩⟩
  · simp only [List.mem_cons, List.not_mem_nil, or_false] at hg
    rcases hg with rfl | rfl <;> decide +kernel
  · simp only [List.mem_cons, List.not_mem_nil, or_false] at hg
    rcases hg with rfl | rfl <;> decide +kernel
  · cases b <;> decide +kernel

/-- HELD with a cause and a kept image. -/
def heldWith (cause : Nat) : State :=
  let s := engine .held 1000000
  { s with power := { s.power with cause := cause, hbmReady := false } }

/-- RUNNING, an image prepared or not, re-threaded or not at a step whose origin lies so far ahead. -/
def preparing (prepared : Option Image) (rethread ahead : Nat) : State :=
  { running with
    seq := { running.seq with origin := 1000000 + ahead }
    img := { running.img with prepared := prepared, rethread := rethread } }

theorem witness_StoreCommands :
    (∃ s : State, s.power.standby = true ∧ s.stages = false ∧ s.power.st = .held ∧ s.power.phase1 = true ∧ s.power.birth.isSome = true ∧ s.power.storeMode ≠ 3 ∧
      s.power.hbmReady = false ∧ s.may .host false = true) ∧
    (∃ s : State, s.power.standby = true ∧ s.mgmt.owner ≠ .mgmt) ∧ (∃ s : State, s.power.standby = true ∧ s.mgmt.owner = .mgmt ∧ s.stages = false ∧ s.power.st = .running) ∧
    (∃ s : State, s.power.standby = true ∧ s.mgmt.owner = .mgmt ∧ s.stages = true ∧ s.power.st = .ready) ∧
    (∀ cause ∈ [6, 7], ∃ (s : State) (m : Master), s.power.standby = true ∧ s.may m false = true ∧ s.power.st = .held ∧ s.power.cause = cause ∧
      s.groups.any (fun e => e.2.st = 3) = false ∧ s.fencedSlices.length < 2 ∧ s.belay.st = .locked) ∧
    (∃ (s : State) (rec_ : List Byte), s.power.standby = true ∧ rec_.length ≠ 4096) ∧
    (∃ (s : State) (m : Master), s.may m false = true ∧ s.power.st = .running ∧ s.img.rethread ≠ 1 ∧ s.stages = false ∧ s.img.prep ≠ 1) ∧
    (∀ n ∈ [0, 1], ∃ (s : State) (m : Master) (im : Image), s.may m false = true ∧ s.power.st = .running ∧ s.img.prepared = some im ∧ im.conf = s.image.conf ∧
      im.layoutKey = s.image.layoutKey ∧ s.belay.count + 62500 = s.originOf (s.reg48 0x20018) + n) ∧
    (∀ n ∈ [0, 1], ∃ (s : State) (m : Master), s.may m false = true ∧ s.img.rethread = 1 ∧ s.originOf s.img.rethreadStep = s.belay.count + 64 + n) ∧
    (∃ s : State, s.img.prep = 1) ∧ (∃ s : State, Inv s ∧ s.img.prep ≠ 1) := by
  refine ⟨⟨heldWith 4, by decide +kernel⟩, ⟨ready, by decide +kernel⟩,
    ⟨{ running with mgmt := { running.mgmt with owner := .mgmt } }, by decide +kernel⟩,
    ⟨{ stagingIn .ready 1 true with mgmt := { ready.mgmt with owner := .mgmt } }, by decide +kernel⟩,
    fun c hc => ⟨heldWith c, .host, ?_⟩, ⟨ready, [], by decide +kernel⟩, ⟨running, .host, by decide +kernel⟩,
    fun n hn => ⟨preparing (some image) 0 (62500 - n), .host, image, rfl, rfl, rfl, rfl, rfl, ?_⟩, fun n hn => ⟨preparing none 1 (64 + n), .host, ?_⟩,
    ⟨{ running with img := { running.img with prep := 1 } }, rfl⟩, ⟨ready.settle, settle_inv _, by decide +kernel⟩⟩
  · revert c; decide +kernel
  all_goals (revert n; decide +kernel)

end Sys2Proof.Tests
end

