-- ==== Sys2Proof/Tests/Slice0.lean ====
section
/-! SUPPORT. Smoke tests of well-formedness, one ill-formed command for each check, and the spec's worked examples of
formats and arithmetic. -/

namespace Sys2Proof.Tests

open Sys2Proof Sys2Proof.Machine

set_option Elab.async false

/-! ### Well-formedness: commands that each check refuses -/

/-- An IEEE 1588 message at a carriage port. -/
def ptpAt (p : Nat) : PtpMsg := ⟨p, 0, 0, 0, 0, 0, false, 0⟩

/-- Commands at the last value each check admits. -/
def wellFormed : List Instr :=
  [ .coreRailWarningDip 7 4095, .supplyWarningClear 7, .loadPhaseTimeout 1, .loadPhaseTimeout 7, .nop 9,
    .pinCompletion none, .pinCompletion (some ⟨23, 11, 0⟩), .decisionTick 7 6143, .pitchCutoff 65535,
    .gradientTile 7 0 (List.replicate 64 0), .tokenTile 7 0 [], .flit 31 (List.replicate 256 0) 0 0, .syncSend 35,
    .chunk 35 (List.replicate 32 0), .carriageFrame 32 (List.replicate 60 0), .ackonlySend 35 31, .sync (ptpAt 35),
    .brideOpen 7, .belayRelock 35 0, .formationExchangeDone 255 [0, 0, 0, 0, 0, 0], .formationTimeout 255,
    .readResponderServe 7, .messageSend 1023, .fenceClearReinitDone 7 true, .coalescingWindowClose 22 65535,
    .registerWrite .host 0xFFFFFC 4 0, .registerRead .mgmt 0 4, .gqCtlArm .host 255, .grqCtlArm .host 1023,
    .grqDb .host 1023 65535, .grqDescWrite .host 1023 8 0, .slcCodeCtlDisable .host 7 127 true, .prtCtlRetrain .host 35,
    .prtBrideCtlWrite .host 7 0 0, .ancEWrite .host 7 0, .upsCtlDisable .host 23 true, .imgCtlLoad .host 2, .load 2,
    .regRead 0 16, .regWrite 0xFFFFFC 0, .glbFenceWrite .host 255, .fence 255, .unfence 255, .bride 7 true 0,
    .logRead 0 120, .stageData 0 [0], .enrollKey (List.replicate 4096 0), .reset (.port 35), .launchCountReached ]

/-- Commands with one operand out of range each. -/
def illFormed : List Instr :=
  [ .coreRailWarningDip 8 0, .coreRailWarningDip 0 4096, .coreRailResetLevel 8 0, .coreRailResetLevel 0 4096,
    .supplyWarningClear 8, .loadPhaseTimeout 0, .loadPhaseTimeout 8, .nop 10, .seal 10, .gatedPinReady 10,
    .pinCompletion (some ⟨24, 0, 0⟩), .pinCompletion (some ⟨0, 12, 0⟩), .decisionTick 8 0, .decisionTick 0 6144,
    .pitchCutoff 65536, .prusikCutoff 65536, .gradientTile 8 0 [], .gradientTile 0 0 [0], .tokenTile 0 0 [0],
    .flit 32 (List.replicate 256 0) 0 0, .flit 0 [] 0 0, .syncSend 36, .belayMarker 36 0,
    .chunk 36 (List.replicate 32 0), .chunk 0 (List.replicate 31 0), .ack 0 [], .carriageFrame 31 (List.replicate 60 0),
    .carriageFrame 36 (List.replicate 60 0), .carriageFrame 32 (List.replicate 59 0), .ackonlySend 36 0,
    .ackonlySend 0 32, .portFailedRetry 0 32, .sync (ptpAt 31), .delayResp (ptpAt 36), .brideClose 8,
    .bridePassFlit 8 true [], .belayRelock 36 0, .formationExchangeDone 256 [0, 0, 0, 0, 0, 0],
    .formationExchangeDone 0 [], .formationTimeout 256, .readResponderServe 8, .messageSend 1024, .rtoExpiry 1024 0,
    .fenceClearReinitDone 8 true, .dieToDieLinkDown 8 0, .coalescingWindowClose 0 0, .coalescingWindowClose 23 0,
    .coalescingWindowClose 1 65536, .registerWrite .host 2 4 0, .registerWrite .host (2 ^ 24) 4 0,
    .registerRead .host 0 3, .gqCtlArm .host 256, .grqCtlSkip .host 1024, .grqDb .host 1024 0, .grqDb .host 0 65536,
    .grqDescWrite .host 0 9 0, .slcCodeCtlDisable .host 8 0 true, .slcCodeCtlDisable .host 0 128 true,
    .prtCtlRetrain .host 36, .prtBrideCtlWrite .host 8 0 0, .ancEWrite .host 8 0, .upsCtlDisable .host 24 true,
    .imgCtlLoad .host 3, .load 3, .regRead 0 0, .regRead 0 17, .regRead 1 1, .regWrite 2 0, .glbFenceWrite .host 256,
    .mgtUnfence .mgmt 256, .fence 256, .unfence 256, .bride 8 true 0, .logRead 0 0, .logRead 0 121, .stageData 0 [],
    .stageData 0 (List.replicate 4001 0), .enrollKey [], .reset (.port 36) ]

theorem test_wellFormed : wellFormed.all Instr.wf = true := by decide +kernel

theorem test_illFormed : illFormed.all (fun c => !c.wf) = true := by decide +kernel

/-! ### Formats (the spec's examples and check values) -/

/-- The packed coordinate of the scope's example. -/
theorem test_coordinate : packCoord [3, 10, 0, 17] = 0x7411 ∧ coordAxes 0x7411 = [3, 10, 0, 17] := by decide +kernel

/-- The ASCII string "123456789" of R142 and R209. -/
def digits : List Byte := [0x31, 0x32, 0x33, 0x34, 0x35, 0x36, 0x37, 0x38, 0x39]

/-- R142. -/
theorem test_crc32c : crc32c digits = 0xE3069283 := by decide +kernel

/-- R209. -/
theorem test_crc8 : crc8 digits = 0xF4 := by decide +kernel

/-- A chunk's trailer is 32 bytes, and so is a token chunk's (Table 7-8). -/
theorem test_trailer_lengths :
    (trailerBytes default 0 0).length = 32 ∧ (tokenChunk default []).length = 32 := by decide +kernel

/-- The table gives no row bits, so no word spells a command. -/
theorem test_no_word (n w : Nat) : decodeTableWord n w = none := rfl

/-! ### Arithmetic (worked examples of chapters 2, 3, 4 and 6) -/

/-- Chapter 2, one Q8 scaling unit: the exponents before and after. -/
theorem test_scale : ceilLog2F32 0x3D180000 = -4 ∧ scaleExp 0x3D180000 1 8 = -10 ∧ scaleExp 0x3E200000 1 8 = -8 := by
  decide +kernel

/-- Table 2-4: 52.25, -31.625, 160 and 1 times 2^-10. -/
theorem test_quantise :
    quantise 0x3D510000 (-10) 8 = (52, false) ∧ quantise 0xBCFD0000 (-10) 8 = (-31, false)
    ∧ quantise 0x3E200000 (-10) 8 = (127, true) ∧ quantise 0x3A800000 (-10) 8 = (1, false) := by decide +kernel

/-- Table 2-4: the residuals 2^-12, -0.625 · 2^-10, 33 · 2^-10 and 0. -/
theorem test_residual :
    residualOf 0x3D510000 52 (-10) = (0x39800000, false) ∧ residualOf 0xBCFD0000 (-31) (-10) = (0xBA200000, false)
    ∧ residualOf 0x3E200000 127 (-10) = (0x3D040000, false) ∧ residualOf 0x3A800000 1 (-10) = (0, false) := by
  decide +kernel

/-- Chapter 2, widths through the levels of EX-A: the shift, the code sent, the level residual. -/
theorem test_requant : levelShift 3000000 0 = 15 ∧ requantise 1002345 15 = (30, 19305, false) := by decide +kernel

/-- R58: truncation is toward zero, and a code saturates at 127. -/
theorem test_requant_edges : requantise (-5) 1 = (-2, -1, false) ∧ requantise 300 1 = (127, 46, true) := by
  decide +kernel

/-- Chapter 3, one TOPB tensor of EX-A: codes and the global heats they stand for. -/
theorem test_heat :
    heatCode 3145728 = 0x5C00 ∧ heatValue 0x5C00 = 3145728 ∧ heatValue 0x50A0 = 1130496
    ∧ heatValue 0x3C40 = 200704 := by decide +kernel

/-- Table 4-7: an element rescaled by one place, either sign. -/
theorem test_rescale : rescale 37 (-1) = (18, false, true) ∧ rescale (-37) (-1) = (-18, false, true) := by decide +kernel

/-- Chapter 6, one Q8 chunk: the weight of the code's lengths, within 2^15. -/
theorem test_kraft :
    kraft ([2, 2, 3, 3] ++ List.replicate 4 5 ++ List.replicate 8 7 ++ List.replicate 16 11 ++ List.replicate 224 13)
      = 31872 := by decide +kernel

/-! ### Steps -/

/-- On an empty queue from reset a step is a cycle of the standby reference. -/
theorem test_empty_queue : step State.reset = .next (standbyCycle State.reset) := rfl

/-- From reset, a launch (R400) leaves the global state and takes the command off the queue. -/
theorem test_launch_off :
    (match step { State.reset with pending := [.glbCtlLaunch .host false] } with
     | .next t => t.power.st == State.reset.power.st && t.pending == []
     | _ => false) = true := by decide +kernel

end Sys2Proof.Tests
end

/-! Registers and the masters that may write them (R8 to R13, R481 to R483). -/

namespace Sys2Proof.Machine

/-! ### The right to write -/

/-- A register that is not open to management is its owner's alone (R9). -/
theorem State.may_of_not_owner {s : State} {m : Master} (h : s.owns m = false) : s.may m false = false := by
  simp [State.may, h]

/-- A host that does not own the control plane writes nothing, open to management or not (R10). -/
theorem State.may_host_of_not_owner {s : State} (h : s.mgmt.owner ≠ .host) (o : Bool) : s.may .host o = false := by
  simp [State.may, State.owns, h]

/-- Who may not write a register of the other domains may not write one of the core domain. -/
theorem State.mayCore_of_may {s : State} {m : Master} {o : Bool} (h : s.may m o = false) : s.mayCore m o = false := by
  simp [State.mayCore, h]

/-- In OFF and BIVOUAC the core domain ignores writes (R482). -/
theorem State.mayCore_of_down {s : State} (h : s.power.st = .off ∨ s.power.st = .bivouac) (m : Master) (o : Bool) :
    s.mayCore m o = false := by
  have hc : s.coreUp = false := by obtain h | h := h <;> simp [State.coreUp, h]
  simp [State.mayCore, hc]

/-- Who may write has the standby supply. -/
theorem State.standby_of_may {s : State} {m : Master} {o : Bool} (h : s.may m o = true) : s.power.standby = true :=
  ((s.may_iff m o).1 h).1

/-- Who may write a register of the core domain may write. -/
theorem State.may_of_mayCore {s : State} {m : Master} {o : Bool} (h : s.mayCore m o = true) : s.may m o = true :=
  ((s.mayCore_iff m o).1 h).1

/-! ### Rows that a master's right guards -/

/-- The effect of a row whose guard fails. -/
theorem answer_unless {s t : State} {g : Bool} (h : g = false) : answer s (if g then t else s) = answer s s := by simp [h]

/-- The same, where the row has a further condition. -/
theorem answer_unless_and {s t : State} {g : Bool} {q : Prop} [Decidable q] (h : g = false) :
    answer s (if g = true ∧ q then t else s) = answer s s := by simp [h]

/-- The rows of the owner's registers outside the core domain. -/
def ownerRows (m : Master) (b : Bool) (n : Nat) (v : Word) : List Instr :=
  [.glbCtlLaunch m b, .glbCtlCancel m, .glbCtlStop m, .glbIrqStatClear m v, .glbIrqEnWrite m v, .imgCtlLoad m n, .imgCtlRecover m,
    .imgCtlStage m, .imgCtlAbort m, .imgCtlPrepare m, .imgCtlRethread m, .imgCtlCancel m]

/-- The rows of the owner's registers in the core domain. -/
def ownerCoreRows (m : Master) (b : Bool) (n : Nat) (v : Word) : List Instr :=
  [.glbStepDb m, .glbDpqDb m v, .glbDpqCtlDisable m b, .gqCtlArm m n, .gqCtlDisarm m n, .prtCtlDisable m n b, .ancCtlArm m,
    .ancCtlRevoke m, .ancCtlDisarm m, .ancEWrite m n v]

/-- The rows of the owner's registers that the core domain has once for each ground queue, slice or station. -/
def ownerUnitRows (m : Master) (b : Bool) (n k : Nat) (v : Word) : List Instr :=
  [.grqCtlArm m n, .grqCtlDisable m n, .grqCtlSuspend m n, .grqCtlResume m n, .grqCtlRetry m n, .grqCtlSkip m n, .grqCtlReset m n,
    .grqDb m n k, .grqDescWrite m n k v, .slcCodeCtlDisable m n k b, .upsCtlDisable m n b]

/-- The rows of the registers open to management, outside the core domain. -/
def openRows (m : Master) (n k : Nat) (v : Word) : List Instr :=
  [.glbCtlBivouac m, .glbCtlWake m, .glbCtlResetCore m, .glbFenceWrite m n, .prtBrideCtlWrite m n k v, .crnRdWrite m v, .crnCtlOvfClr m,
    .crnCtlClear m, .crnCtlCntClr m, .crnFecClr m v]

/-- Outside the core domain a master that may not write has no effect (R9). -/
theorem exec_ownerRows_denied {s : State} {m : Master} (h : s.may m false = false) (b : Bool) (n : Nat) (v : Word) :
    ∀ c ∈ ownerRows m b n v, exec c s = answer s s := by
  have off {t : State} : answer s (if s.may m false then t else s) = answer s s := answer_unless h
  simp only [ownerRows, List.forall_mem_cons, List.not_mem_nil, false_imp_iff, implies_true, and_true]
  exact ⟨off, off, off, off, off, off, off, off, off, off, off, off⟩

/-- Nor has one that may not write the core domain (R9, R482). -/
theorem exec_ownerCoreRows_denied {s : State} {m : Master} (h : s.mayCore m false = false) (b : Bool) (n : Nat) (v : Word) :
    ∀ c ∈ ownerCoreRows m b n v, exec c s = answer s s := by
  have off {t : State} : answer s (if s.mayCore m false then t else s) = answer s s := answer_unless h
  simp only [ownerCoreRows, List.forall_mem_cons, List.not_mem_nil, false_imp_iff, implies_true, and_true]
  exact ⟨off, off, off, off, off, off, off, off, off, off⟩

/-- The same of the units of the core domain. -/
theorem exec_ownerUnitRows_denied {s : State} {m : Master} (h : s.mayCore m false = false) (b : Bool) (n k : Nat) (v : Word) :
    ∀ c ∈ ownerUnitRows m b n k v, exec c s = answer s s := by
  have off {t : State} {q : Prop} [Decidable q] : answer s (if s.mayCore m false = true ∧ q then t else s) = answer s s :=
    answer_unless_and h
  simp only [ownerUnitRows, List.forall_mem_cons, List.not_mem_nil, false_imp_iff, implies_true, and_true]
  exact ⟨off, off, off, off, off, off, off, off, off, off, off⟩

/-- A master to which not even the open registers are open has no effect (R10). -/
theorem exec_openRows_denied {s : State} {m : Master} (h : s.may m true = false) (n k : Nat) (v : Word) :
    ∀ c ∈ openRows m n k v, exec c s = answer s s := by
  have off {t : State} : answer s (if s.may m true then t else s) = answer s s := answer_unless h
  simp only [openRows, List.forall_mem_cons, List.not_mem_nil, false_imp_iff, implies_true, and_true]
  exact ⟨off, off, off, off, off, off, off, off, off, off⟩

/-- RETRAIN, open to management in the core domain. -/
theorem exec_prtCtlRetrain_denied {s : State} {m : Master} (h : s.mayCore m true = false) (p : Nat) :
    exec (.prtCtlRetrain m p) s = answer s s := answer_unless h

/-! ### Answers -/

/-- A register set changes nothing that the conditions of every step read. -/
theorem answer_setReg {s : State} (h : Inv s) (off v : Nat) : answer s (s.setReg off v) = .next (s.setReg off v) := answer_of_eq h

/-- A reply changes nothing that the conditions of every step read. -/
theorem answer_reply {s : State} (h : Inv s) (ws : List Nat) : answer s (s.answerWith ws) = .next (s.answerWith ws) := answer_of_eq h

/-- A command of Igvaelo while the standby supply is there. -/
theorem State.onBus_powered {s : State} (hs : s.power.standby = true) (f : State → State) : s.onBus f = answer s (f s) :=
  congrArg (answer s) (if_pos hs)

/-! ### Registers written -/

/-- A write that is not aligned has no effect (R8). -/
theorem State.writeReg_misaligned (s : State) (m : Master) {off : Nat} (h : off % 4 ≠ 0) (v : Nat) : s.writeReg m off v = s := by
  simp [State.writeReg, h]

/-- A plain register other than a seed, written by a master that may, takes the bits of its mask. -/
theorem State.writeReg_plain {s : State} {m : Master} {off mask : Nat} {o : Bool} (hp : plainMask off = some (mask, o)) (h4 : off % 4 = 0)
    (hs : s.power.standby = true) (hseed : isSeed off = false) (hm : (if coreOffset off then s.mayCore m o else s.may m o) = true) (v : Nat) :
    s.writeReg m off v = s.setReg off (v &&& mask) := by
  have hw : s.writeReg m off v = s.writePlain m off mask o v := by simp [State.writeReg, hs, h4, hp]
  rw [hw, State.writePlain]
  simp [hm, hseed]

/-- The row REGISTER_WRITE of such a register changes that register alone. -/
theorem exec_registerWrite_plain {s : State} (hi : Inv s) {m : Master} {off mask : Nat} {o : Bool} (hp : plainMask off = some (mask, o))
    (h4 : off % 4 = 0) (hs : s.power.standby = true) (hseed : isSeed off = false)
    (hm : (if coreOffset off then s.mayCore m o else s.may m o) = true) (v : Word) :
    exec (.registerWrite m off 4 v) s = .next (s.setReg off (v.toNat &&& mask)) :=
  (congrArg (answer s) (State.writeReg_plain hp h4 hs hseed hm v.toNat)).trans (answer_setReg hi _ _)

/-- REG-WRITE writes it as management, and answers SUCCESS. -/
theorem exec_regWrite_plain {s : State} (hi : Inv s) {off mask : Nat} {o : Bool} (hp : plainMask off = some (mask, o)) (h4 : off % 4 = 0)
    (hs : s.power.standby = true) (hseed : isSeed off = false) (hm : (if coreOffset off then s.mayCore .mgmt o else s.may .mgmt o) = true)
    (v : Word) : exec (.regWrite off v) s = .next ((s.setReg off (v.toNat &&& mask)).answerWith [0]) := by
  have hexec : exec (.regWrite off v) s = answer s ((s.writeReg .mgmt off v.toNat).answerWith [0]) :=
    State.onBus_powered hs (fun s => (s.writeReg .mgmt off v.toNat).answerWith [0])
  rw [hexec, State.writeReg_plain hp h4 hs hseed hm]
  exact answer_of_eq hi

/-- The registers of the management-only block are none of the plain ones. -/
theorem plainMask_mgmt {off : Nat} (h : 0x500000 ≤ off) : plainMask off = none := by
  have hseed : isSeed off = false := by simp [isSeed]; omega
  have hlist (l : List Nat) (hl : ∀ x ∈ l, x < 0x500000) : l.contains off = false := by
    simpa using fun hx => absurd (hl off hx) (by omega)
  rw [plainMask, hlist _ (by decide), hlist _ (by decide), hlist _ (by decide)]
  rw [if_neg (by simp [hseed]), if_neg (by simp), if_neg (by simp), if_neg (by omega), if_neg (by omega), if_neg (by omega)]

/-- The host's writes of the management-only block have no effect (R11). -/
theorem State.writeReg_host_mgmt (s : State) {off : Nat} (h : 0x500000 ≤ off) (v : Nat) : s.writeReg .host off v = s := by
  have hlow (n : Nat) (hn : n ≤ 0x500000) : ¬off < n := by omega
  simp [State.writeReg, plainMask_mgmt h, hlow]

/-! ### Registers read -/

/-- A read that is not aligned returns 0 and changes nothing (R8). -/
theorem State.readReg_misaligned (s : State) (m : Master) {off : Nat} (h : off % 4 ≠ 0) : s.readReg m off = (s, 0) := by
  simp [State.readReg, h]

/-- The host's reads of the management-only block return 0 and change nothing (R11). -/
theorem State.readReg_host_mgmt (s : State) {off : Nat} (h : 0x500000 ≤ off) (h6 : off < 0x600000) : s.readReg .host off = (s, 0) := by
  simp [State.readReg, h, h6]

/-- A register of the global block that captures nothing, read while no half is kept. -/
theorem State.readReg_global {s : State} (hs : s.power.standby = true) (hh : s.hiCap = []) (m : Master) {off : Nat} (h4 : off % 4 = 0)
    (hg : off < 0x10000) (hc : capturing.contains off = false) : s.readReg m off = (s, s.peek off) := by
  have hslot : cairnSlot off = none := by
    rw [cairnSlot, if_neg (by omega), if_neg (by omega)]
  have hpar : s.countParity off = s := by simp [State.countParity, hslot]
  have hmg : ¬(0x500000 ≤ off ∧ off < 0x600000) := by omega
  have hpop : off ≠ 0x200040 ∧ off ≠ 0x50010 := by omega
  have hhi : (s.hiCap.find (hiKey m off)).isSome = false := by rw [hh]; rfl
  rw [State.readReg, if_neg (by simp [hs, h4]), if_neg (fun h => hmg ⟨h.1, h.2.1⟩), if_neg hpop.1, if_neg hpop.2, hc, if_neg (by simp), hhi,
    if_neg (by simp), if_neg hmg, hpar]

/-- A read of the low half of the belay count captures the high half (R483). -/
theorem State.readReg_belayCount {s : State} (hs : s.power.standby = true) (m : Master) :
    s.readReg m 0x10004 = ({ s with hiCap := s.hiCap.put (hiKey m 0x10008) (s.belay.count / 2 ^ 32 % 2 ^ 32) }, s.belay.count % 2 ^ 32) := by
  have hlo : s.peek 0x10004 = s.belay.count % 2 ^ 32 := rfl
  have hhi : s.peek 0x10008 = s.belay.count / 2 ^ 32 % 2 ^ 32 := rfl
  have hc : capturing.contains 0x10004 = true := rfl
  rw [State.readReg, if_neg (by simp [hs]), if_neg (by simp), if_neg (by decide), if_neg (by decide), if_pos hc, hlo, hhi]

/-- A word read by a master: the value, and what reading changes. -/
theorem exec_registerRead_word {s t : State} {m : Master} {off v : Nat} (hs : s.power.standby = true) (h : s.readReg m off = (t, v)) :
    exec (.registerRead m off 4) s = answer s (t.answerWith [v]) := by
  change answer s (if !s.power.standby then s else if 4 ≠ 4 then _ else _) = _
  simp [hs, h]

/-- An access that is not an aligned 32-bit one (R8). -/
theorem exec_register_misaligned {s : State} (hi : Inv s) (m : Master) {off size : Nat} (h : size ≠ 4 ∨ off % 4 ≠ 0) (v : Word) :
    exec (.registerWrite m off size v) s = .next s ∧
      (s.power.standby = true → exec (.registerRead m off size) s = .next (s.answerWith [0])) := by
  obtain hsz | ⟨rfl, h4⟩ : size ≠ 4 ∨ (size = 4 ∧ off % 4 ≠ 0) := by omega
  · constructor
    · exact (congrArg (answer s) (if_pos hsz)).trans (answer_self s hi)
    · intro hs
      refine Eq.trans (congrArg (answer s) ?_) (answer_reply hi [0])
      rw [hs, if_neg (by simp), if_pos hsz]
  · constructor
    · exact (congrArg (answer s) (State.writeReg_misaligned s m h4 v.toNat)).trans (answer_self s hi)
    · intro hs
      rw [exec_registerRead_word hs (State.readReg_misaligned s m h4), answer_reply hi]

/-- The reads of registers that the engine updates, while no half is kept. -/
theorem exec_registerRead_global {s : State} (hi : Inv s) (hs : s.power.standby = true) (hh : s.hiCap = []) (m : Master) :
    exec (.registerRead m 0x04 4) s = .next (s.answerWith [s.globalStat]) ∧ exec (.registerRead m 0x10 4) s = .next (s.answerWith [s.ownStat]) ∧
      exec (.registerRead m 0x18 4) s = .next (s.answerWith [s.fenceStat]) := by
  have read (off : Nat) (h4 : off % 4 = 0) (hg : off < 0x10000) (hc : capturing.contains off = false) :
      exec (.registerRead m off 4) s = .next (s.answerWith [s.peek off]) := by
    rw [exec_registerRead_word hs (State.readReg_global hs hh m h4 hg hc), answer_reply hi]
  have hfence : s.peek 0x18 = s.fenceStat := by simp [State.peek, coreOffset, coreRegister, State.readGlobal]
  exact ⟨read 0x04 rfl (by decide) rfl, read 0x10 rfl (by decide) rfl, hfence ▸ read 0x18 rfl (by decide) rfl⟩

/-- REG-READ of GLB_STATE: SUCCESS and the value. -/
theorem exec_regRead_globalStat {s : State} (hi : Inv s) (hs : s.power.standby = true) (hh : s.hiCap = []) :
    exec (.regRead 0x04 1) s = .next (s.answerWith [0, s.globalStat]) := by
  have hread : s.readReg .mgmt (4 + 4 * 0) = (s, s.globalStat) := State.readReg_global hs hh .mgmt rfl (by decide) rfl
  have hrun : s.regRead 0x04 1 = s.answerWith [0, s.globalStat] := by
    simp [State.regRead, List.range_succ, hread]
  have hexec : exec (.regRead 0x04 1) s = answer s (s.regRead 0x04 1) := State.onBus_powered hs (·.regRead 0x04 1)
  rw [hexec, hrun, answer_reply hi]

/-! ### The statements on registers -/

/-- Settles O11: an aligned write is `writeReg_plain`, an access that is not aligned leaves the state, and each read is one line of
`readReg`. -/
theorem registerAccesses : Obligations.RegisterAccesses := by
  refine ⟨fun s m off mask o v hi hp h4 => ⟨fun hc hseed => ⟨fun hm => ?_, fun hm => ?_⟩, fun hc hseed hm => ?_⟩,
    fun s m off size v hi h => exec_register_misaligned hi m h v, fun s m hi hs hh => ?_⟩
  · exact exec_registerWrite_plain hi hp h4 (State.standby_of_may hm) hseed (by simpa [hc] using hm) v
  · exact exec_regWrite_plain hi hp h4 (State.standby_of_may hm) hseed (by simpa [hc] using hm) v
  · exact exec_registerWrite_plain hi hp h4 (State.standby_of_may (State.may_of_mayCore hm)) hseed (by simpa [hc] using hm) v
  · obtain ⟨hstate, hown, hfence⟩ := exec_registerRead_global hi hs hh m
    refine ⟨hstate, hown, hfence, fun _ => ?_, exec_regRead_globalStat hi hs hh, ?_⟩
    · rw [exec_registerRead_word hs (State.readReg_belayCount hs m), hh]
      exact answer_of_eq hi
    · rw [exec_registerRead_word hs (State.readReg_host_mgmt s (by decide) (by decide)), answer_reply hi]

/-- Settles O12: every row named is one of a list of rows with one guard, and the guard fails; the management-only block is closed to the
host in `writeReg` and `readReg`. -/
theorem whoMayWrite : Obligations.WhoMayWrite := by
  refine ⟨fun s m b n k v hi ho c hc => ?_, fun s n k v hi ho c hc => ?_, fun s m b n k v hi hd c hc => ?_,
    fun s off size v hi h5 h6 => ⟨?_, fun hs => ?_⟩⟩
  · have hm := State.may_of_not_owner ho
    have hrow : c ∈ ownerRows m b n v ∨ c ∈ ownerCoreRows m b n v ∨ c ∈ ownerUnitRows m b n k v := by
      simp only [ownerRows, ownerCoreRows, ownerUnitRows, List.mem_cons, List.not_mem_nil, or_false] at hc ⊢
      grind only
    obtain hrow | hrow | hrow := hrow
    · rw [exec_ownerRows_denied hm b n v c hrow, answer_self s hi]
    · rw [exec_ownerCoreRows_denied (State.mayCore_of_may hm) b n v c hrow, answer_self s hi]
    · rw [exec_ownerUnitRows_denied (State.mayCore_of_may hm) b n k v c hrow, answer_self s hi]
  · have hm := State.may_host_of_not_owner ho true
    have hrow : c ∈ openRows .host n k v ∨ c = .prtCtlRetrain .host n := by
      simp only [openRows, List.mem_cons, List.not_mem_nil, or_false] at hc ⊢
      grind only
    obtain hrow | rfl := hrow
    · rw [exec_openRows_denied hm n k v c hrow, answer_self s hi]
    · rw [exec_prtCtlRetrain_denied (State.mayCore_of_may hm), answer_self s hi]
  · have hrow : c ∈ ownerCoreRows m b n v ∨ c ∈ ownerUnitRows m b n k v ∨ c = .prtCtlRetrain m n := by
      simp only [ownerCoreRows, ownerUnitRows, List.mem_cons, List.not_mem_nil, or_false] at hc ⊢
      grind only
    obtain hrow | hrow | rfl := hrow
    · rw [exec_ownerCoreRows_denied (State.mayCore_of_down hd m false) b n v c hrow, answer_self s hi]
    · rw [exec_ownerUnitRows_denied (State.mayCore_of_down hd m false) b n k v c hrow, answer_self s hi]
    · rw [exec_prtCtlRetrain_denied (State.mayCore_of_down hd m true), answer_self s hi]
  · have hw : (if size ≠ 4 then s else s.writeReg .host off v.toNat) = s := by rw [State.writeReg_host_mgmt s h5, ite_self]
    exact (congrArg (answer s) hw).trans (answer_self s hi)
  · have hr : (if !s.power.standby then s else if size ≠ 4 then s.answerWith [0]
        else (s.readReg .host off).1.answerWith [(s.readReg .host off).2]) = s.answerWith [0] := by
      simp [hs, State.readReg_host_mgmt s h5 h6]
    exact (congrArg (answer s) hr).trans (answer_reply hi [0])

end Sys2Proof.Machine

/-! Commands of ports and brides (R336 to R342, R460, R477, Tables 9-9 and 9-11). -/

namespace Sys2Proof.Machine

/-! ### Retraining and disabling a port -/

/-- A port that is not UP goes back without a count or a cairn (R309). -/
theorem State.leaveUp_down {s : State} {p : Nat} (h : (s.port p).link.st ≠ .up) (st : PortSt) (cause : Nat) :
    s.leaveUp p st cause = PortTo s p st := if_pos h

/-- A port that leaves UP by command is counted, with no cairn (R460). -/
theorem State.leaveUp_commanded {s : State} {p : Nat} (h : (s.port p).link.st = .up) (st : PortSt) :
    s.leaveUp p st 0 = State.bump (PortTo s p st) (portCounter p 6) noUnit 1 := if_neg (fun k => k h)

/-- A commanded retrain of a FAILED port (Table 9-9). -/
theorem State.retrain_failed {s : State} {p : Nat} (h : (s.port p).link.st = .failed) : s.retrain p = PortTo s p .pmd := by
  simp only [State.retrain, h]; rfl

/-- A commanded retrain of a port that is UP. -/
theorem State.retrain_up {s : State} {p : Nat} (h : (s.port p).link.st = .up) :
    s.retrain p = State.bump (PortTo s p .frame) (portCounter p 6) noUnit 1 := by
  simp only [State.retrain, h]; exact State.leaveUp_commanded h .frame

/-- A commanded retrain of a port in training. -/
theorem State.retrain_training {s : State} {p : Nat}
    (h : (s.port p).link.st = .ident ∨ (s.port p).link.st = .measure ∨ (s.port p).link.st = .frame) : s.retrain p = PortTo s p .frame := by
  obtain h | h | h := h <;> simp only [State.retrain, h] <;> exact State.leaveUp_down (by simp [h]) .frame 0

/-- RETRAIN by a master that may reset ports. -/
theorem exec_prtCtlRetrain {s : State} {m : Master} (h : s.mayCore m true = true) (p : Nat) :
    exec (.prtCtlRetrain m p) s = nextOf s (s.retrain p) := congrArg (nextOf s) (if_pos h)

/-- DISABLE by the owner (R477). -/
theorem exec_prtCtlDisable {s : State} {m : Master} (h : s.mayCore m false = true) (p : Nat) (d : Bool) :
    exec (.prtCtlDisable m p d) s = nextOf s (s.disablePort p d) := congrArg (nextOf s) (if_pos h)

/-- DISABLE is not open to management. -/
theorem exec_prtCtlDisable_denied {s : State} {m : Master} (h : s.mayCore m false = false) (p : Nat) (d : Bool) :
    exec (.prtCtlDisable m p d) s = answer s s := answer_unless h

/-- The port reset of Igvaelo: SUCCESS, INVALID where there is no such port, UNAVAILABLE without the core. -/
theorem exec_resetPort {s : State} (hs : s.power.standby = true) (p : Nat) :
    exec (.reset (.port p)) s = nextOf s (if p ≥ 36 then s.answerWith [3] else if !s.coreUp then s.answerWith [5]
      else (s.retrain p).answerWith [0]) := congrArg (nextOf s) (if_pos hs)

/-- A port reset is a commanded retrain (Table 12-13). -/
theorem exec_resetPort_retrains {s : State} (hs : s.power.standby = true) (hc : s.coreUp = true) {p : Nat} (hp : p < 36) :
    exec (.reset (.port p)) s = nextOf s ((s.retrain p).answerWith [0]) := by
  rw [exec_resetPort hs, if_neg (by omega), hc, if_neg (by simp)]

/-! ### Brides -/

/-- A bride may open where every condition of Table 9-11 holds. -/
theorem State.brideMayOpen_iff (s : State) (r : Nat) : s.brideMayOpen r = true ↔
    s.power.standby = true ∧ (s.power.st = .ready ∨ s.power.st = .running ∨ s.req.waking = true) ∧ (s.slice r).fenced = false ∧
      (s.bride r).openEn = true ∧ (s.bride r).atCount ≤ s.belay.count ∧ 1 < nth s.image.config.extents (if r < 4 then 1 else 2) 1 := by
  change s.brideMayOpen r = true ↔ _ ∧ _ ∧ _ ∧ _ ∧ (s.bride r).atCount ≤ s.count ∧ _
  simp [State.brideMayOpen, and_assoc, or_assoc]

/-- A bride opens when every condition holds (R341). -/
theorem exec_brideOpen {s : State} {r : Nat} (hr : r < 8) (hst : (s.bride r).st = .closedActive) (h : s.brideMayOpen r = true) :
    exec (.brideOpen r) s = nextOf s (s.onBride r (fun b => { b with st := .isOpen })) := congrArg (nextOf s) (if_pos ⟨hr, h, hst⟩)

/-- A bride does not open while a condition fails. -/
theorem exec_brideOpen_stays {s : State} (hi : Inv s) {r : Nat} (h : s.brideMayOpen r = false) : exec (.brideOpen r) s = .next s :=
  (congrArg (answer s) (if_neg (fun k => by simp [h] at k))).trans (answer_self s hi)

/-- A bride closes when a condition fails (R341). -/
theorem exec_brideClose {s : State} {r : Nat} (hst : (s.bride r).st = .isOpen) (h : s.brideMayOpen r = false) :
    exec (.brideClose r) s = nextOf s (s.onBride r (fun b => { b with st := .closedActive })) :=
  congrArg (nextOf s) (if_pos ⟨hst, by simp [h]⟩)

/-- A bride does not close while every condition holds. -/
theorem exec_brideClose_stays {s : State} (hi : Inv s) {r : Nat} (h : s.brideMayOpen r = true) : exec (.brideClose r) s = .next s :=
  (congrArg (answer s) (if_neg (fun k => by simp [h] at k))).trans (answer_self s hi)

/-- A bad or idle flit, or one without an IDENT at byte 0 of its body, passes unchanged (R342). -/
theorem passedFlit_other {bs : List Byte}
    (h : flag (bytesAt bs 0 4) 31 = true ∨ bytesAt bs 4 1 ≠ 0x90 ∨ bytesAt bs 252 4 ≠ crc32c (bs.take 252)) : passedFlit bs = bs := by
  refine if_neg (fun ⟨hcrc, hidle, hid⟩ => ?_)
  obtain h | h | h := h
  · simp [FlitHead.parse, h] at hidle
  · exact h hid
  · exact h hcrc

/-- An IDENT in a good data flit has one more in BRIDGES, up to 15, and its LCRC computed again (R342). -/
theorem passedFlit_ident {bs b : List Byte} (hdata : flag (bytesAt bs 0 4) 31 = false) (hid : bytesAt bs 4 1 = 0x90)
    (hcrc : bytesAt bs 252 4 = crc32c (bs.take 252))
    (hb : b = bs.take 39 ++ leBytes 1 (bytesAt bs 39 1 / 16 * 16 + Nat.min 15 (bytesAt bs 39 1 % 16 + 1)) ++ (bs.take 252).drop 40) :
    passedFlit bs = b ++ leBytes 4 (crc32c b) := by
  have hhead : (bs.take 252).take 39 = bs.take 39 := by simp [List.take_take]
  subst hb
  rw [← hhead]
  exact if_pos ⟨hcrc, by simp [FlitHead.parse, hdata], hid⟩

/-- A CLOSED-ACTIVE bride passes a flit (R342). -/
theorem exec_bridePassFlit {s : State} {r : Nat} (hs : s.power.standby = true) (hst : (s.bride r).st = .closedActive) (odd : Bool)
    (bs : List Byte) :
    exec (.bridePassFlit r odd bs) s = nextOf s (s.onBride r (fun b => { b with wire := b.wire ++ [(odd, passedFlit bs)] })) :=
  congrArg (nextOf s) (if_pos ⟨hs, hst⟩)

/-- The registers of a bride are open to management (R341). -/
theorem exec_prtBrideCtlWrite {s : State} {m : Master} (h : s.may m true = true) (r reg : Nat) (v : Word) :
    exec (.prtBrideCtlWrite m r reg v) s = nextOf s (s.writeBride r reg v.toNat) := congrArg (nextOf s) (if_pos h)

/-- The command BRIDE writes the enable bit and the count. -/
theorem exec_bride {s : State} {r : Nat} (hr : r < 8) (hs : s.power.standby = true) (op : Bool) {n : Nat} (hn : n < 2 ^ 64) :
    exec (.bride r op n) s = nextOf s ((s.onBride r (fun b => { b with openEn := op, atCount := n })).answerWith [0]) := by
  refine congrArg (nextOf s) ?_
  rw [if_pos hs, State.brideCommand, if_neg (by omega), Nat.mod_eq_of_lt hn]

/-- Settles O49: each row's effect is one guarded operation; a retrain splits on the port's state, a passed flit on whether it holds an
IDENT. -/
theorem portCommandsAndBrides : Obligations.PortCommandsAndBrides := by
  refine ⟨fun s m p hp _ => ⟨fun hm => ⟨fun h => ?_, fun h => ?_, fun h => ?_⟩,
      fun hs => ⟨fun hc h => ?_, fun hc h => ?_, fun hc => ?_, fun q hq => ?_⟩, fun h => ?_, fun h hi d => ?_, fun h hi => ?_⟩,
    fun s r hr => ⟨exec_brideOpen hr, exec_brideClose, (exec_brideClose_stays · ·), (exec_brideOpen_stays · ·), s.brideMayOpen_iff r,
      fun odd bs hs hst => ⟨fun h => ?_, fun b hdata hid hcrc hb => ?_⟩, fun m v h => ?_, fun op n hs hn => exec_bride hr hs op hn⟩⟩
  · rw [exec_prtCtlRetrain hm, State.retrain_failed h]
  · rw [exec_prtCtlRetrain hm, State.retrain_up h]
  · rw [exec_prtCtlRetrain hm, State.retrain_training h]
  · rw [exec_resetPort_retrains hs hc hp, State.retrain_failed h]
  · rw [exec_resetPort_retrains hs hc hp, State.retrain_up h]
  · rw [exec_resetPort hs, if_neg (by omega), hc]; rfl
  · rw [exec_resetPort hs, if_pos hq]
  · exact ⟨exec_prtCtlDisable h p true, exec_prtCtlDisable h p false⟩
  · rw [exec_prtCtlDisable_denied h, answer_self s hi]
  · rw [exec_prtCtlRetrain_denied h, answer_self s hi]
  · rw [exec_bridePassFlit hs hst, passedFlit_other h]
  · rw [exec_bridePassFlit hs hst, passedFlit_ident hdata hid hcrc hb]
  · have hv : v.toNat % 2 ^ 32 = v.toNat := Nat.mod_eq_of_lt v.isLt
    simp only [exec_prtBrideCtlWrite h, State.writeBride, hv, and_self]

end Sys2Proof.Machine

/-! What starting a run or a step leaves as it was, said once for every operation on the way (R164, R196, R400). -/

namespace Sys2Proof.Machine

/-! ### The run under way -/

/-- The parts of the state that say which run is under way: none of the operations on tables, contexts, logs and cairns changes them. -/
structure RunState where
  st : GState
  belay : Belay
  req : Requests
  img : ImgSt
  /-- The sequencers, but for what their latches take from the streams. -/
  seq : Seq
  sealing : List StepRec
  recStep : Nat
  fenced : List Bool

/-- The run that a state is in. -/
def State.runState (s : State) : RunState :=
  ⟨s.power.st, s.belay, s.req, s.img, { s.seq with issue := [], pos := [], dyn := [] }, s.sealing, s.srec.step, s.slices.map (·.fenced)⟩

section
variable {s t : State}

/-! Equal runs agree in every part. -/

theorem State.st_of_run (h : t.runState = s.runState) : t.power.st = s.power.st := congrArg RunState.st h
theorem State.belay_of_run (h : t.runState = s.runState) : t.belay = s.belay := congrArg RunState.belay h
theorem State.req_of_run (h : t.runState = s.runState) : t.req = s.req := congrArg RunState.req h
theorem State.img_of_run (h : t.runState = s.runState) : t.img = s.img := congrArg RunState.img h
theorem State.image_of_run (h : t.runState = s.runState) : t.image = s.image := by
  rw [State.image, State.image, State.img_of_run h]

end

/-- The fences of a state in its run. -/
theorem State.slice_fenced (s : State) (i : Nat) : (s.slice i).fenced = s.runState.fenced.getD i false := by
  simp only [State.slice, State.runState, List.getD_eq_getElem?_getD, List.getElem?_map]
  cases s.slices[i]? <;> rfl

/-- The fenced slices are those of the run. -/
theorem State.fencedSlices_of_run {s t : State} (h : t.runState = s.runState) : t.fencedSlices = s.fencedSlices := by
  simp only [State.fencedSlices, State.slice_fenced, h]

/-- A change of slices that leaves the fences. -/
theorem State.onSlice_runState (s : State) (i : Nat) {f : Slice → Slice} (hf : ∀ x, (f x).fenced = x.fenced) :
    (s.onSlice i f).runState = s.runState := by
  have h : (s.slices.modify i f).map (·.fenced) = s.slices.map (·.fenced) := by
    refine List.ext_getElem? fun j => ?_
    simp only [List.getElem?_map, List.getElem?_modify]
    cases s.slices[j]? <;> simp [apply_ite, hf]
  simp only [State.runState, State.onSlice, h]

@[simp] theorem State.setReg_runState (s : State) (off v : Nat) : (s.setReg off v).runState = s.runState := rfl
@[simp] theorem State.hbmWrite_runState (s : State) (a : Nat) (bs : List Byte) : (s.hbmWrite a bs).runState = s.runState := rfl

@[simp] theorem State.raise_recStep (s : State) (c src q a b : Nat) : (s.raise c src q a b).srec.step = s.srec.step := by
  simp [State.raise, State.onRec]

@[simp] theorem State.bump_recStep (s : State) (off u n : Nat) : (s.bump off u n).srec.step = s.srec.step :=
  (congrArg StepRec.step (bump_steady s off u n) :)

@[simp] theorem State.dev_recStep (s : State) (d : Dev) : (s.dev d).srec.step = s.srec.step :=
  s.bump_recStep (0x200 + 4 * d.cause) noUnit 1

@[simp] theorem State.raise_runState (s : State) (c src q a b : Nat) : (s.raise c src q a b).runState = s.runState := by
  simp [State.runState]

@[simp] theorem State.bump_runState (s : State) (off u n : Nat) : (s.bump off u n).runState = s.runState := by
  simp [State.runState]

@[simp] theorem State.dev_runState (s : State) (d : Dev) : (s.dev d).runState = s.runState := by
  simp [State.runState]

@[simp] theorem State.onCtx_runState (s : State) (sl i : Nat) (f : CtxSt → CtxSt) : (s.onCtx sl i f).runState = s.runState :=
  s.onSlice_runState sl fun _ => rfl

/-! ### Installs, carried contexts, the step decision, the replay log -/

@[simp] theorem State.takeInstall_runState (s : State) (sl i : Nat) : (s.takeInstall sl i).runState = s.runState := by
  unfold State.takeInstall
  dsimp only
  split
  · split <;> simp [State.refuseInstall]
  · split <;> simp

@[simp] theorem State.takeInstalls_runState (s : State) : s.takeInstalls.runState = s.runState :=
  foldl_keeps State.runState _ (fun _ _ => foldl_keeps State.runState _ (fun _ _ => State.takeInstall_runState _ _ _) _ _) _ _

@[simp] theorem State.launchCtx_runState (s : State) : s.launchCtx.runState = s.runState :=
  foldl_keeps State.runState _ (fun _ _ => foldl_keeps State.runState _ (fun _ _ => State.onCtx_runState _ _ _ _) _ _) _ _

@[simp] theorem State.writeLog_runState (s : State) (step : Nat) (r : List Byte) : (s.writeLog step r).1.runState = s.runState := by
  simp only [State.writeLog, apply_ite Prod.fst, apply_ite State.runState, State.setReg_runState, State.hbmWrite_runState, ite_self]

@[simp] theorem State.takeDecision_runState (s : State) (d : Decision) : (s.takeDecision d).runState = s.runState := by
  have hrec {r : StepRec → StepRec} (hr : (r s.srec).step = s.srec.step) : (s.onRec r).runState = s.runState := by
    simp [State.runState, State.onRec, hr]
  have hspikes (u : State) (l : List Nat) : ({ u with spikes := l } : State).runState = u.runState := rfl
  simp only [State.takeDecision, apply_ite State.runState, State.raise_runState, State.dev_runState, State.bump_runState,
    State.setReg_runState, hspikes, hrec, ite_self]

/-- What a step keeps for itself alone goes; the run stays. -/
@[simp] theorem State.freshStep_runState (s : State) : s.freshStep.runState = s.runState :=
  (State.takeInstalls_runState _).trans (by simp [State.runState])

/-- Supply windows are marked at the start of a step. -/
@[simp] theorem State.markSuspects_runState (s : State) : s.markSuspects.runState = s.runState :=
  foldl_keeps State.runState _ (fun _ _ => State.dev_runState _ _) _ _

/-! ### Latches -/

/-- What the streams have ready goes to the latches. -/
@[simp] theorem State.latchDue_runState (s : State) (st fuel : Nat) : (s.latchDue st fuel).runState = s.runState := by
  induction fuel generalizing s with
  | zero => rfl
  | succ fuel ih =>
    unfold State.latchDue
    split
    · split
      · exact ih _
      · rfl
    · rfl

@[simp] theorem State.latchTick_runState (s : State) : s.latchTick.runState = s.runState :=
  foldl_keeps State.runState _ (fun _ _ => State.latchDue_runState _ _ _) _ _

/-- Outside RUNNING nothing is latched (R432). -/
theorem State.latchDue_idle {s : State} (h : s.isRunning = false) (st fuel : Nat) : s.latchDue st fuel = s := by
  have hstream : s.streamRuns st = false := by simp [State.streamRuns, h]
  cases fuel with
  | zero => rfl
  | succ fuel =>
    unfold State.latchDue
    split
    · simp [hstream]
    · rfl

theorem State.latchTick_idle {s : State} (h : s.isRunning = false) : s.latchTick = s := by
  simp [State.latchTick, List.range_succ, State.latchDue_idle h]

/-! ### After a command -/

@[simp] theorem State.settle_runState (s : State) : s.settle.runState = s.runState := by
  have hstep : s.settle.srec.step = s.srec.step := (after_settle s).srec_step
  have hfenced : s.settle.slices.map (·.fenced) = s.slices.map (·.fenced) := by
    simp only [State.settle_slices, List.map_map]
    exact List.map_congr_left fun sl _ => by by_cases h : sl.fenced <;> simp [h]
  simp [State.runState, State.settle_seq, hstep, hfenced]

/-- The queue of commands is no part of the run. -/
theorem State.pending_runState (s : State) (q : List Instr) : ({ s with pending := q } : State).runState = s.runState := rfl

/-- The run that a command leads to is the one that its effect leads to. -/
theorem next_runState {c : Instr} {s e : State} {P : RunState → Prop} (h : exec c s = answer s e) (k : P e.runState) :
    ∃ t, exec c s = .next t ∧ P t.runState :=
  ⟨_, h, by rwa [State.pending_runState, State.settle_runState]⟩

/-! ### The start of a step (R164, R196) -/

/-- Step `t` starts at count `o`, out of state `s`. -/
structure StepStarts (s : State) (t o : Nat) (r : RunState) : Prop where
  st : r.st = s.power.st
  belay : r.belay = s.belay
  running : r.seq.running = true
  step : r.seq.step = t
  next : r.seq.next = t + 1
  sec : r.seq.sec = 0
  variant : r.seq.variant = s.variantNow
  origin : r.seq.origin = o
  secOrigin : r.seq.secOrigin = o
  nextOrigin : r.seq.nextOrigin = (s.image.pricking s.variantNow).head.originAfter t o (t + 1)
  recStep : r.recStep = t

/-- The variant is that of the run's fences. -/
theorem State.variantNow_of_run {s t : State} (h : t.runState = s.runState) : t.variantNow = s.variantNow := by
  simp only [State.variantNow, State.fencedSlices_of_run h]

/-- Outside replay no pins are recorded ones. -/
theorem State.recordedPins_live {s : State} (h : s.req.replay = false) : s.recordedPins = s := by simp [State.recordedPins, h]

/-- What `startStep` does to the run. -/
theorem State.startStep_starts {s : State} (h : s.req.replay = false) (t o : Nat) : StepStarts s t o (s.startStep t o).runState := by
  have hfresh := s.freshStep_runState
  unfold State.startStep
  generalize s.freshStep = u at hfresh ⊢
  have hv := State.variantNow_of_run hfresh
  have hi := State.image_of_run hfresh
  have hst := State.st_of_run hfresh
  have hbelay := State.belay_of_run hfresh
  have hlive : u.req.replay = false := by rw [State.req_of_run hfresh, h]
  simp only [hv, hi, apply_ite State.runState, State.latchTick_runState, State.takeDecision_runState, State.markSuspects_runState, ite_self]
  rw [State.recordedPins_live]
  · exact ⟨hst, hbelay, rfl, rfl, rfl, rfl, rfl, rfl, rfl, rfl, rfl⟩
  · exact hlive

/-! ### An origin (R164, R196) -/

/-- A step that has ended already is not closed again. -/
theorem State.closeStep_closed {s : State} (h : s.seq.next ≤ s.seq.step) : s.closeStep = s := if_neg (Nat.not_lt.2 h)

/-- Outside replay no fence is recorded for an origin. -/
theorem State.earlyFences_live {s : State} (h : s.req.replay = false) (t : Nat) : s.earlyFences t = s := by
  simp [State.earlyFences, h]

/-- Without a re-thread in force none is made. -/
theorem State.rethreadAt_none {s : State} (h : s.req.replay = false) (hr : s.img.rethread ≠ 1) (t : Nat) : s.rethreadAt t = s := by
  simp [State.rethreadAt, State.rethreadDue, h, hr]

/-- An origin at which nothing else is due starts the step. -/
theorem State.originAt_starts {s : State} (hn : s.seq.next ≤ s.seq.step) (hf : s.fencedSlices = []) (hp : s.req.replay = false)
    (hr : s.img.rethread ≠ 1) (hs : s.req.stopOn = false) (hb : s.req.bivOn = false) (t o : Nat) :
    s.originAt t o = s.startStep t o := by
  simp [State.originAt, State.closeStep_closed hn, State.earlyFences_live hp, hf, hp, State.rethreadAt_none hp hr, hs, hb]

/-- An origin with two fences holds the engine (R196). -/
theorem State.originAt_holds {s : State} (hn : s.seq.next ≤ s.seq.step) (hf : 2 ≤ s.fencedSlices.length) (hp : s.req.replay = false)
    (t o : Nat) : s.originAt t o = ((s.raise 0x16 (source 3 0) 0 3 0).hold 8).dropRequests := by
  simp [State.originAt, State.closeStep_closed hn, State.earlyFences_live hp, hf]

/-- The row STEP_ORIGIN at an origin that is due, under a locked receiver. -/
theorem exec_stepOrigin {s : State} (hd : s.originDue = true) (hl : s.belay.st = .locked) :
    exec .stepOrigin s = answer s (s.originAt s.seq.next (Nat.max s.seq.nextOrigin s.belay.count)) :=
  congrArg (answer s) (if_pos ⟨hd, .inl hl⟩)

/-- An origin is due in RUNNING only. -/
theorem State.running_of_originDue {s : State} (h : s.originDue = true) : s.power.st = .running := by
  simp only [State.originDue, State.isRunning, Bool.and_eq_true, decide_eq_true_eq] at h
  obtain ⟨⟨⟨hrun, -⟩, -⟩, -⟩ := h
  exact hrun

/-! ### A launch (R400) -/

/-- The run that begins at the launch count, out of state `s`. -/
structure RunBegins (s : State) (r : RunState) : Prop where
  st : r.st = .running
  belay : r.belay = s.belay
  launchOn : r.req.launchOn = false
  launch : r.req.launch = 2
  running : r.seq.running = false
  next : r.seq.next = s.req.launchStep
  nextOrigin : r.seq.nextOrigin = s.req.launchAt
  recStep : r.recStep = s.req.launchStep
  sealing : r.sealing = []
  run : r.img.run = s.img.run

/-- What `beginRun` does to the run, where the image has been launched before. -/
theorem State.beginRun_begins {s : State} (h : s.img.launched = true) : RunBegins s s.beginRun.runState := by
  simp only [State.beginRun, h, true_or, if_true, State.writeLog_runState, State.setReg_runState, State.launchCtx_runState]
  exact ⟨rfl, rfl, rfl, rfl, rfl, rfl, rfl, rfl, rfl, rfl⟩

/-- A group that is no longer ARMED refuses the launch (R122). -/
theorem State.launchNow_refused {s : State} (h : s.launchDue = true) (hg : ∃ g ∈ s.image.namedGroups, (s.groupQ g).st ≠ 2) :
    s.launchNow = { s with req := { s.req with launchOn := false, launch := 3, launchReason := 2 } } := by
  have hany : s.image.namedGroups.any (fun g => (s.groupQ g).st ≠ 2) = true := by simpa using hg
  rw [State.launchNow, h, hany]
  rfl

/-- Else the run begins. -/
theorem State.launchNow_begins {s : State} (h : s.launchDue = true) (hg : ∀ g ∈ s.image.namedGroups, (s.groupQ g).st = 2) :
    s.launchNow = s.beginRun := by
  have hany : s.image.namedGroups.any (fun g => (s.groupQ g).st ≠ 2) = false := by simpa using hg
  rw [State.launchNow, h, hany]
  rfl

/-! ### A tick (R20) -/

/-- Without ground queues there is nothing to settle. -/
theorem State.settleQueues_nil {s : State} (h : s.gq = []) : s.settleQueues = s := by
  simp [State.settleQueues, h, State.releaseWaits]

/-- Without a running section none ends. -/
theorem State.endSection_idle {s : State} (h : s.seq.running = false) : s.endSection = s := by simp [State.endSection, h]

/-- The state with the count advanced: the span of the reduction arrays begun again, releases that waited made. -/
def State.counted (s : State) : State :=
  State.freeDue { s with
    belay := { s.belay with count := s.belay.count + 1 }
    seq := { s.seq with adds := if (s.belay.count + 1) % 64 = 0 then [0, 0, 0, 0, 0, 0, 0, 0] else s.seq.adds } }

/-- Where no section runs and no queue exists, the count advances alone. -/
theorem State.advance_idle {s : State} (hs : s.seq.running = false) (hg : s.gq = []) : s.advance = s.counted := by
  have hq : s.counted.settleQueues = s.counted := State.settleQueues_nil hg
  have he : s.counted.endSection = s.counted := State.endSection_idle hs
  exact (congrArg State.endSection hq).trans he

/-- A tick where no section runs, no queue exists and no pin is latched. -/
theorem State.tick_idle {s : State} (hc : s.countRuns = true) (hw : s.workDue = false) (hs : s.seq.running = false) (hg : s.gq = [])
    (hr : s.relaxed = true ∨ s.isRunning = false) : s.tick = s.counted := by
  simp only [State.tick, hc, hw, State.advance_idle hs hg, Bool.not_false, Bool.and_self, if_true]
  obtain hr | hr := hr
  · exact if_pos hr
  · rw [State.latchTick_idle (s := s.counted) hr, ite_self]

/-- A tick that cannot pass. -/
theorem State.tick_waits {s : State} (h : s.countRuns = false ∨ s.workDue = true) : s.tick = s := by
  obtain h | h := h <;> simp [State.tick, h]

/-- Where the sensors are reported already, settling sets no register. -/
theorem State.settle_regs {s : State} (h : SensorsConform s) : s.settle.regs = s.regs := by
  simp [State.settle, State.report_of s h]

/-- The count runs in every receiver state but STALLED (Table 11-3). -/
theorem State.countRuns_iff (s : State) : s.countRuns = true ↔ s.power.standby = true ∧ s.belay.st ≠ .stalled := by
  simp [State.countRuns]

/-- Settles O21: a tick with nothing due only counts; a launch and an origin are followed through the run that they leave. -/
theorem ticksAndOrigins : Obligations.TicksAndOrigins := by
  refine ⟨fun s hi => ⟨fun hc hw hs hg hr => ?_, fun h => ?_, fun h => ?_, fun hs hb => ?_⟩, fun s => ⟨fun hd hg hl => ?_, fun hd hg => ?_,
    fun hd hl hn hf hp hr hs hb => ?_, fun hd hl hn hf hp => ?_⟩⟩
  · have hexec : exec .belayTick s = answer s s.tick := rfl
    rw [State.tick_idle hc hw hs hg hr] at hexec
    refine next_of _ s _ _ hexec ?_
    have hregs : s.counted.settle.regs = s.regs := State.settle_regs (s := s.counted) hi.sensors
    simp only [State.settle_belay, State.settle_power, State.settle_req, State.settle_hbm, State.settle_cairn, State.settle_img,
      State.settle_groups, State.settle_anc, State.settle_store]
    exact ⟨rfl, rfl, rfl, rfl, rfl, hregs, rfl, rfl, rfl, rfl⟩
  · exact (congrArg (answer s) (State.tick_waits h)).trans (answer_self s hi)
  · simp [State.countRuns, h]
  · exact s.countRuns_iff.2 ⟨hs, hb⟩
  · have hexec : exec .launchCountReached s = answer s s.launchNow := rfl
    rw [State.launchNow_begins hd hg] at hexec
    obtain ⟨t, ht, hrun⟩ := next_runState (P := RunBegins s) hexec (State.beginRun_begins hl)
    exact ⟨t, ht, hrun.st, hrun.launchOn, hrun.launch, hrun.running, hrun.next, hrun.nextOrigin, hrun.recStep, hrun.sealing, hrun.run, hrun.belay⟩
  · exact next_settle _ s _ (congrArg (answer s) (State.launchNow_refused hd hg)) rfl
  · have hexec := exec_stepOrigin hd hl
    rw [State.originAt_starts hn hf hp hr hs hb] at hexec
    obtain ⟨t, ht, hstep⟩ := next_runState (P := StepStarts s _ _) hexec (State.startStep_starts hp _ _)
    have hv : s.variantNow = 0 := by simp [State.variantNow, hf]
    exact ⟨t, ht, hstep.st.trans (State.running_of_originDue hd), hstep.running, hstep.step, hstep.next, hstep.sec, hstep.variant.trans hv,
      hstep.origin, hstep.secOrigin, hstep.recStep, hstep.belay, hv ▸ hstep.nextOrigin⟩
  · have hexec := exec_stepOrigin hd hl
    rw [State.originAt_holds hn hf hp] at hexec
    refine next_after _ s _ _ hexec fun x hx => ?_
    refine ⟨by rw [hx.power]; rfl, by rw [hx.power]; rfl, by rw [hx.seq]; rfl, ?_⟩
    rw [hx.cairn]
    exact s.raise_cairn ..

end Sys2Proof.Machine

/-! Pins of the engine stream and the seal (R165, R187, R192, R405, R407). -/

namespace Sys2Proof.Machine

/-! ### The state once a pin has left the latch -/

section
variable (s : State) (st : Nat) (x : Issue)

/-- A pin leaves the latch, and its slice notes it; nothing else changes. -/
theorem taken_eq : Taken s st x =
    { s with seq := { s.seq with issue := s.seq.issue.modify st List.tail }, slices := (Taken s st x).slices } := by
  unfold Taken State.noteLast
  split <;> rfl

@[simp] theorem taken_seq : (Taken s st x).seq = { s.seq with issue := s.seq.issue.modify st List.tail } := by rw [taken_eq]
@[simp] theorem taken_belay : (Taken s st x).belay = s.belay := by rw [taken_eq]
@[simp] theorem taken_req : (Taken s st x).req = s.req := by rw [taken_eq]
@[simp] theorem taken_img : (Taken s st x).img = s.img := by rw [taken_eq]
@[simp] theorem taken_srec : (Taken s st x).srec = s.srec := by rw [taken_eq]
@[simp] theorem taken_sealing : (Taken s st x).sealing = s.sealing := by rw [taken_eq]
@[simp] theorem taken_pending : (Taken s st x).pending = s.pending := by rw [taken_eq]

@[simp] theorem taken_count : (Taken s st x).count = s.belay.count := by simp [State.count]
@[simp] theorem taken_relaxed : (Taken s st x).relaxed = s.relaxed := by simp [State.relaxed, State.image]
@[simp] theorem taken_pricking : (Taken s st x).pricking = s.pricking := by simp [State.pricking, State.image]

end

/-! ### The row of a pin that is due -/

section
variable {s : State} {st : Nat} {x : Issue} {rest : List Issue}

/-- A pin that is due is the front pin of its stream. -/
theorem frontPin_of_pinDue (h : PinDue s st x rest) {kind : Pin → Bool} (hk : kind x.pin = true) : s.frontPin st kind = some x := by
  obtain ⟨hrun, hflights, hissue, -, -⟩ := h
  have hdone : s.seq.flights.any (fun f => f.done ≤ s.count) = false :=
    List.any_eq_false.2 fun f hf hd => Nat.not_le.2 (hflights f hf) (of_decide_eq_true hd)
  exact (s.frontPin_some st kind x).2 ⟨by simp [State.isRunning, hrun], hdone, hk, rest, hissue⟩

/-- The row of its kind executes it. -/
theorem runPin_of_pinDue (h : PinDue s st x rest) {kind : Pin → Bool} (hk : kind x.pin = true) (run : Issue → State → State) :
    s.runPin st kind run = run x (Taken s st x) :=
  s.runPin_some st kind run x (frontPin_of_pinDue h hk)

/-- Outside replay no OVERRUN is forced. -/
theorem State.forcedOverrun_live {u : State} (h : u.req.replay = false) (st : Nat) (x : Issue) : u.forcedOverrun st x = none := by
  simp [State.forcedOverrun, h]

/-- Outside replay, a pin that is not discharged and breaches nothing runs whole (R201). -/
theorem State.issuePin_whole {u : State} (h : u.req.replay = false) {x : Issue} (hx : x.gone = false) (st : Nat)
    (run : State → Bool → State) : u.issuePin st x 0 run = run u false := by
  simp [State.issuePin, hx, State.forcedStall, State.forcedOverrun_live h, h]

/-! ### NOP, OPEN and GATE -/

theorem exec_nop (h : PinDue s st x rest) (hop : x.pin.op = 0) : exec (.nop st) s = answer s (Taken s st x) :=
  congrArg (answer s) (runPin_of_pinDue h (by simp [hop]) _)

theorem exec_openPin (h : PinDue s st x rest) (hop : x.pin.op = 15) : exec (.openPin st) s = answer s { Taken s st x with
    seq := { (Taken s st x).seq with windows := s.seq.windows ++ [(x.sec, x.pin.pitch, x.pin.tick, false)] } } := by
  refine congrArg (answer s) ((runPin_of_pinDue h (by simp [hop]) _).trans ?_)
  obtain ⟨-, -, -, hgone, hlive⟩ := h
  rw [State.openPin, State.issuePin_whole (by simp [hlive]) hgone]
  simp

theorem exec_gate (h : PinDue s st x rest) (hop : x.pin.op = 16) : exec (.gate st) s = answer s (Taken s st x).gatePin :=
  congrArg (answer s) (runPin_of_pinDue h (by simp [hop]) _)

/-- In locked mode GATE is a NOP (R169). -/
theorem State.gatePin_locked {u : State} (h : u.relaxed = false) : u.gatePin = u := by simp [State.gatePin, h]

/-- In step gate mode GATE waits where no doorbell has come (R192). -/
theorem State.gatePin_waits {u : State} (h : u.relaxed = true) (hp : u.req.replay = false) (hd : u.seq.doorbells = 0) :
    u.gatePin = { u with seq := { u.seq with gateWait := true } } := by
  simp [State.gatePin, State.forcedDoorbell, h, hp, hd]

/-- Else it takes one. -/
theorem State.gatePin_takes {u : State} (h : u.relaxed = true) (hp : u.req.replay = false) (hd : 0 < u.seq.doorbells) :
    u.gatePin = u.takeDoorbell := by
  simp [State.gatePin, State.forcedDoorbell, h, hp, Nat.ne_of_gt hd]

/-! ### SEAL (R405) -/

/-- Without a hold the seal unit is free. -/
theorem State.resBusy_seal {u : State} (h : ∀ d ∈ u.seq.holds, d.res ≠ .seal) : u.resBusy [.seal] = false := by
  simp only [State.resBusy, List.any_eq_false]
  intro d hd
  simp [h d hd]

/-- A free seal unit seals from now on. -/
theorem State.sealFrom_free {u : State} (h : ∀ d ∈ u.seq.holds, d.res ≠ .seal) : u.sealFrom = u.count := by
  have hnone : u.seq.holds.filter (fun d => d.res == .seal) = [] := by simpa using h
  rw [State.sealFrom, hnone]
  rfl

/-- Where the step is decided there is no clip picot to judge. -/
theorem State.settleClips_decided {u : State} (h : u.srec.decision.isSome = true) (all : Bool) : u.settleClips all = u := if_pos h

/-- Outside replay, what the close of the step's record leaves. -/
theorem State.closeRecord_live {u : State} (h : u.req.replay = false) : u.closeRecord = { u with
    sealing := u.sealing ++ [{ u.srec with digest := sha256 (u.sealMessage u.srec) }]
    srec := { StepRec.reset with step := u.srec.step + 1, variant := u.srec.variant, lstatus := 0 }
    tok := { u.tok with lateLayers := [] } } := by
  simp [State.closeRecord, h]

/-- A SEAL whose unit is free, in a step that is decided and had nothing late (R37, R405). -/
theorem State.sealPin_free {u : State} (hp : u.req.replay = false) (hd : u.srec.decision.isSome = true) (hl : u.lateCairns = u)
    (hh : ∀ d ∈ u.seq.holds, d.res ≠ .seal) (st : Nat) (x : Issue) :
    u.sealPin st x = (u.closeRecord.occupy [.seal] u.count (u.count + 2048)).fly st x 2048 false [] := by
  have hc : (u.closeRecord.occupy [.seal] u.count (u.count + 2048)).count = u.count := by
    rw [State.closeRecord_live hp]
    rfl
  simp [hc, State.sealPin, State.settleClips_decided hd, hl, State.forcedOverrun_live hp, State.resBusy_seal hh, State.sealFrom_free hh]

theorem exec_seal (h : PinDue s st x rest) (hop : x.pin.op = 17) : exec (.seal st) s = answer s ((Taken s st x).sealPin st x) :=
  congrArg (answer s) (runPin_of_pinDue h (by simp [hop]) _)

end

/-! ### The completion of a seal (R407) -/

/-- Registers set one after another. -/
theorem State.reg_setRegs (s : State) (a : Nat) (f : Nat → Nat) {n i : Nat} (hi : i < n) :
    ((List.range n).foldl (fun s j => s.setReg (a + 4 * j) (f j)) s).reg (a + 4 * i) = f i % 2 ^ 32 := by
  induction n with
  | zero => omega
  | succ n ih =>
    rw [List.range_succ, List.foldl_append, List.foldl_cons, List.foldl_nil, State.reg_setReg]
    obtain rfl | hin : i = n ∨ i < n := by omega
    · simp
    · rw [if_neg (by omega), ih hin]

/-- The digest shown. -/
theorem State.showSeal_digest (s : State) (r : StepRec) (lost : Bool) {i : Nat} (hi : i < 8) :
    (s.showSeal r lost).reg (0x40 + 4 * i) = bytesAt r.digest (4 * i) 4 % 2 ^ 32 := by
  simp only [State.showSeal, State.reg_setReg]
  rw [if_neg (by omega), if_neg (by omega), if_neg (by omega)]
  exact s.reg_setRegs 0x40 (fun i => bytesAt r.digest (4 * i) 4) hi

/-- The step number shown. -/
theorem State.showSeal_step (s : State) (r : StepRec) (lost : Bool) :
    (s.showSeal r lost).reg 0x28 = r.step % 2 ^ 32 ∧ (s.showSeal r lost).reg 0x2C = r.step / 2 ^ 32 % 2 ^ 16 := by
  constructor
  · simp [State.showSeal, State.reg_setReg]
  · simp only [State.showSeal, State.reg_setReg]
    simp only [Nat.reduceEqDiff, if_false, if_true]
    omega

@[simp] theorem State.showSeal_runState (s : State) (r : StepRec) (lost : Bool) : (s.showSeal r lost).runState = s.runState := by
  have hdigest := foldl_keeps State.runState (fun u i => u.setReg (0x40 + 4 * i) (bytesAt r.digest (4 * i) 4))
    (fun u _ => u.setReg_runState _ _) (List.range 8) s
  rw [State.showSeal, State.setReg_runState, State.setReg_runState, State.setReg_runState, hdigest]

@[simp] theorem State.irq_runState (s : State) (n : Nat) : (s.irq n).runState = s.runState := by simp [State.runState]

section
variable {s : State} {r : StepRec} {more : List StepRec}

/-- The record of the oldest seal goes to the log, and the seal is shown. -/
theorem State.completeSeal_cons (h : s.sealing = r :: more) : s.completeSeal =
    (State.showSeal { (s.writeLog r.step r.record).1 with sealing := more } r (!(s.writeLog r.step r.record).2)).irq 1 := by
  simp only [State.completeSeal, h]

/-- What the completion of a seal leaves of the run: its record goes. -/
theorem State.completeSeal_runState (h : s.sealing = r :: more) : s.completeSeal.runState = { s.runState with sealing := more } := by
  rw [State.completeSeal_cons h, State.irq_runState, State.showSeal_runState]
  exact congrArg (fun q : RunState => { q with sealing := more }) (s.writeLog_runState r.step r.record)

/-- What the registers show then. -/
theorem State.completeSeal_reg (h : s.sealing = r :: more) : s.completeSeal.reg 0x28 = r.step % 2 ^ 32 ∧
    s.completeSeal.reg 0x2C = r.step / 2 ^ 32 % 2 ^ 16 ∧
    ∀ i < 8, s.completeSeal.reg (0x40 + 4 * i) = bytesAt r.digest (4 * i) 4 % 2 ^ 32 := by
  rw [State.completeSeal_cons h, State.irq_reg _ _ _ (by decide), State.irq_reg _ _ _ (by decide)]
  obtain ⟨hlo, hhi⟩ := State.showSeal_step _ r _
  exact ⟨hlo, hhi, fun i hi => (State.irq_reg _ _ _ (by omega)).trans (State.showSeal_digest _ r _ hi)⟩

end

theorem exec_sealCompletion {s : State} {f : Flight} (h : s.dueSeal = some f) :
    exec .sealCompletion s = answer s (State.completeSeal { s with seq := { s.seq with flights := s.seq.flights.erase f } }) := by
  refine congrArg (answer s) ?_
  simp only [State.sealDone, h]

/-- Settles O23: each row executes the pin that is due; a SEAL closes the record, and its completion shows the oldest one. -/
theorem enginePinsAndSeals : Obligations.EnginePinsAndSeals := by
  refine ⟨fun s st x rest h => ⟨fun hop => ?_, fun hop => ?_, fun hop hl => ?_, fun hop hr hd => ?_, fun hop hr hd => ?_⟩,
    fun s st x rest => ⟨fun h hop hd hl hh => ?_, fun f r more hf hs => ?_⟩⟩
  · exact next_settle _ s _ (exec_nop h hop) (by simp)
  · exact next_settle _ s _ (exec_openPin h hop) (by simp)
  · have hexec := exec_gate h hop
    rw [State.gatePin_locked (by simp [hl])] at hexec
    exact next_settle _ s _ hexec (by simp)
  · have hexec := exec_gate h hop
    obtain ⟨-, -, -, -, hlive⟩ := h
    rw [State.gatePin_waits (by simp [hr]) (by simp [hlive]) (by simp [hd])] at hexec
    exact next_settle _ s _ hexec (by simp)
  · have hexec := exec_gate h hop
    obtain ⟨-, -, -, -, hlive⟩ := h
    rw [State.gatePin_takes (by simp [hr]) (by simp [hlive]) (by simp [hd])] at hexec
    refine next_after _ s _ _ hexec fun t ht => ?_
    rw [ht.seq, ht.srec_host]
    simp [State.takeDoorbell, State.onRec, State.pricking, State.image, State.count]
  · have hexec := exec_seal h hop
    obtain ⟨-, -, -, -, hlive⟩ := h
    rw [State.sealPin_free (by simp [hlive]) (by simp [hd]) hl (by simpa using hh), State.closeRecord_live (by simp [hlive])] at hexec
    refine next_after _ s _ _ hexec fun t ht => ?_
    rw [ht.seq, ht.sealing, ht.srec_step, ht.srec_entries, ht.srec_status, ht.srec_decision]
    refine ⟨?_, by rw [taken_srec]; rfl, rfl, rfl, rfl, ?_⟩
    · simp only [State.fly, State.occupy, taken_srec, taken_sealing]
    · simp only [State.fly, State.occupy, State.count, taken_seq, taken_belay]
  · have hexec := exec_sealCompletion hf
    have hu : ({ s with seq := { s.seq with flights := s.seq.flights.erase f } } : State).sealing = r :: more := hs
    have hrun := State.completeSeal_runState hu
    obtain ⟨hlo, hhi, hdigest⟩ := State.completeSeal_reg hu
    refine next_after _ s _ _ hexec fun t ht => ?_
    generalize State.completeSeal _ = e at hrun hlo hhi hdigest ht
    refine ⟨?_, ?_, ?_, ?_, fun i hi => ?_, ?_⟩
    · exact ht.sealing.trans (congrArg RunState.sealing hrun)
    · rw [ht.seq]
      exact congrArg (fun q : RunState => q.seq.flights) hrun
    · exact (ht.reg _ (by decide)).trans hlo
    · exact (ht.reg _ (by decide)).trans hhi
    · exact (ht.reg _ (by omega)).trans (hdigest i hi)
    · exact ht.srec_step.trans (congrArg RunState.recStep hrun)

end Sys2Proof.Machine

/-! Fences (R25, R474 to R476): what setting one leaves, and how one is cleared. -/

namespace Sys2Proof.Machine

/-! ### Slices -/

/-- A slice after a slice is changed. -/
theorem State.onSlice_slice (s : State) {i : Nat} (hi : i < s.slices.length) (f : Slice → Slice) (j : Nat) :
    (s.onSlice i f).slice j = if j = i then f (s.slice j) else s.slice j := by
  simp only [State.slice, State.onSlice, List.getD_eq_getElem?_getD, List.getElem?_modify]
  by_cases hj : j = i
  · simp [hj, hi]
  · simp [hj, Ne.symm hj]

/-- A slice after a command: a fenced one holds no staging buffer (R475). -/
def Slice.settled (sl : Slice) : Slice := if sl.fenced then { sl with bufs := [] } else sl

@[simp] theorem Slice.settled_fenced (sl : Slice) : sl.settled.fenced = sl.fenced := by unfold Slice.settled; split <;> rfl

@[simp] theorem Slice.settled_clearing (sl : Slice) : sl.settled.clearing = sl.clearing := by unfold Slice.settled; split <;> rfl

theorem State.settle_slice_eq (s : State) (i : Nat) : s.settle.slice i = (s.slice i).settled := by
  simp only [State.slice, State.settle_slices, List.getD_eq_getElem?_getD, List.getElem?_map]
  cases s.slices[i]? <;> rfl

/-- The queue of commands is no part of a slice. -/
theorem State.slice_pending (s : State) (q : List Instr) (i : Nat) : ({ s with pending := q } : State).slice i = s.slice i := rfl

/-- A property of the next state, from what it holds, its slices among it. -/
theorem next_slices {c : Instr} {s e : State} {P : State → Prop} (h : exec c s = answer s e)
    (k : ∀ x, After e x → (∀ i, x.slice i = (e.slice i).settled) → P x) : ∃ t, exec c s = .next t ∧ P t :=
  ⟨_, h, k _ (after_pending e e.settle s.pending (after_settle e)) fun i => (State.slice_pending _ _ i).trans (e.settle_slice_eq i)⟩

/-- Equal slices. -/
theorem State.slice_congr {s t : State} (h : t.slices = s.slices) (i : Nat) : t.slice i = s.slice i := by rw [State.slice, State.slice, h]

/-- A latch that is empty stays empty. -/
theorem getD_mapIdx_nil {α : Type} {f : Nat → List α → List α} {i : Nat} {l : List (List α)} (hf : f i [] = []) (h : l.getD i [] = []) :
    (l.mapIdx f).getD i [] = [] := by
  simp only [List.getD_eq_getElem?_getD, List.getElem?_mapIdx] at h ⊢
  cases hl : l[i]? with
  | none => rfl
  | some q => rw [hl] at h; obtain rfl : q = [] := h; exact hf

/-! ### Ground queues -/

/-- A ground queue after one is changed. -/
theorem State.onGround_groundQ (s : State) (k : Nat) (f : GroundQ → GroundQ) (q : Nat) :
    (s.onGround k f).groundQ q = if q = k then f (s.groundQ q) else s.groundQ q := by
  simp only [State.groundQ, State.onGround, Tab.get_put]
  split
  · next h => rw [h]
  · rfl

/-- The first queues of slice `i` changed. -/
theorem State.groundQ_foldl_onGround (s : State) (i : Nat) (f : GroundQ → GroundQ) (n q : Nat) :
    ((List.range n).foldl (fun s k => s.onGround (128 * i + k) f) s).groundQ q =
      if 128 * i ≤ q ∧ q < 128 * i + n then f (s.groundQ q) else s.groundQ q := by
  induction n with
  | zero => rw [if_neg (by omega)]; rfl
  | succ n ih =>
    rw [List.range_succ, List.foldl_append, List.foldl_cons, List.foldl_nil, State.onGround_groundQ, ih]
    by_cases hq : q = 128 * i + n
    · rw [if_pos hq, if_neg (by omega), if_pos (by omega)]
    · have hiff : (128 * i ≤ q ∧ q < 128 * i + (n + 1)) ↔ (128 * i ≤ q ∧ q < 128 * i + n) := by omega
      simp only [hq, if_false, hiff]

/-! ### The effect of a fence (R475, R477) -/

/-- A slice that a fence has taken. -/
def Slice.fenceOff (sl : Slice) : Slice :=
  { sl with
    fenced := true, bufs := [], opens := [], tiles := [], prusik := []
    tensors := sl.tensors.map (fun e => (e.1, { e.2 with main := none, side := none })) }

/-- Pins counted as abandoned in their group queues. -/
def State.countLost (s : State) (gs : List Nat) : State :=
  gs.foldl (fun s g => s.onGroup g (fun q => { q with done := (q.done + 1) % 2 ^ 32, last := 9 })) s

/-- The pins and the staging of slice `i` are lost, and its stream goes to `pos`. -/
def State.loseSlice (s : State) (i : Nat) (pos : List Nat) : State :=
  State.onSlice { s with seq := { s.seq with
    flights := s.seq.flights.filter (fun f => f.stream ≠ i), issue := s.seq.issue.set i [], pos := pos
    dyn := s.seq.dyn.filter (fun p => p.slice ≠ i) } } i Slice.fenceOff

/-- The ground queues of slice `i` are disabled. -/
def State.stopQueues (s : State) (i : Nat) : State := (List.range 128).foldl (fun s k => s.onGround (128 * i + k) GroundQ.fenceOff) s

/-- A fence is the three of them in turn. -/
theorem State.fenceEffect_eq (s : State) (i : Nat) : ∃ gs pos, s.fenceEffect i = ((s.countLost gs).loseSlice i pos).stopQueues i :=
  ⟨_, _, rfl⟩

/-- The count touches the group queues alone. -/
theorem State.countLost_eq (s : State) (gs : List Nat) : ∃ g, s.countLost gs = { s with groups := g } := by
  induction gs generalizing s with
  | nil => exact ⟨s.groups, rfl⟩
  | cons g gs ih => exact ih (s.onGroup g _)

/-- The end of the queues touches the ground queues alone. -/
theorem State.stopQueues_eq (s : State) (i : Nat) : ∃ q, s.stopQueues i = { s with gq := q } := by
  unfold State.stopQueues
  induction List.range 128 generalizing s with
  | nil => exact ⟨s.gq, rfl⟩
  | cons k ks ih => exact ih (s.onGround (128 * i + k) _)

/-- What a fence leaves, but for the queues. -/
theorem State.fenceEffect_frame (s : State) (i : Nat) : ∃ g q pos, s.fenceEffect i = { s.loseSlice i pos with groups := g, gq := q } := by
  obtain ⟨gs, pos, h⟩ := s.fenceEffect_eq i
  obtain ⟨g, hg⟩ := s.countLost_eq gs
  obtain ⟨q, hq⟩ := ((s.countLost gs).loseSlice i pos).stopQueues_eq i
  exact ⟨g, q, pos, by rw [h, hq, hg]; rfl⟩

/-- A fence disables the ground queues of its slice (R379). -/
theorem State.fenceEffect_groundQ (s : State) (i q : Nat) :
    (s.fenceEffect i).groundQ q = if q / 128 = i then (s.groundQ q).fenceOff else s.groundQ q := by
  have hq : (128 * i ≤ q ∧ q < 128 * i + 128) ↔ q / 128 = i := by omega
  obtain ⟨gs, pos, h⟩ := s.fenceEffect_eq i
  obtain ⟨g, hg⟩ := s.countLost_eq gs
  rw [h, hg, State.stopQueues, State.groundQ_foldl_onGround]
  simp only [hq]
  rfl

/-! ### A fence set (R25, R474) -/

/-- The state once a fence has been recorded: its cairn, and its item of the HOST section. -/
def State.fenceRecorded (s : State) (i who cause : Nat) : State :=
  (s.raise 0x16 (sliceSource 0 i) 0 who cause).onRec (fun r => { r with host := r.host ++ [leBytes 16
    (2 + (who - 1) * 2 ^ 8 + i * 2 ^ 16 + s.seq.pos.getD i 0 % 2 ^ 32 * 2 ^ 32 + s.belay.count * 2 ^ 64)] })

section
variable {s : State} {i who cause : Nat}

/-- A fence of a slice that has none. -/
theorem State.fence_unfenced (hi : i < 8) (hf : (s.slice i).fenced = false) : s.fence i who cause = (s.fenceRecorded i who cause).fenceEffect i := by
  have hno : ¬(i ≥ 8 ∨ (s.slice i).fenced = true) := by simp [hf, hi]
  rw [State.fence, if_neg hno]
  simp [State.fenceRecorded]

/-- A slice that is fenced stays as it is. -/
theorem State.fence_fenced (hf : (s.slice i).fenced = true) : s.fence i who cause = s := if_pos (.inr hf)

theorem State.fenceRecorded_cairn : (s.fenceRecorded i who cause).cairn =
    s.cairn.submit s.power.cycles ⟨0x16, sliceSource 0 i, 0, who, cause⟩ s.stamp :=
  s.raise_cairn 0x16 (sliceSource 0 i) 0 who cause

theorem State.fenceRecorded_host : (s.fenceRecorded i who cause).srec.host = s.srec.host ++ [leBytes 16
    (2 + (who - 1) * 2 ^ 8 + i * 2 ^ 16 + s.seq.pos.getD i 0 % 2 ^ 32 * 2 ^ 32 + s.belay.count * 2 ^ 64)] := by
  have hraise : (s.raise 0x16 (sliceSource 0 i) 0 who cause).srec.host = s.srec.host := by simp [State.raise, State.onRec]
  exact congrArg (· ++ _) hraise

/-- The record touches no slice, queue, pin or power state. -/
theorem State.fenceRecorded_eq : (s.fenceRecorded i who cause).slices = s.slices ∧ (s.fenceRecorded i who cause).gq = s.gq ∧
    (s.fenceRecorded i who cause).seq = s.seq ∧ (s.fenceRecorded i who cause).hbm = s.hbm ∧
    (s.fenceRecorded i who cause).power = s.power ∧ (s.fenceRecorded i who cause).mgmt = s.mgmt := by
  simp [State.fenceRecorded]

/-- The slices after a fence. -/
theorem State.fence_slice (hi : i < 8) (hl : i < s.slices.length) (hf : (s.slice i).fenced = false) (j : Nat) :
    (s.fence i who cause).slice j = if j = i then (s.slice j).fenceOff else s.slice j := by
  rw [State.fence_unfenced hi hf]
  obtain ⟨hslices, -⟩ := State.fenceRecorded_eq (s := s) (i := i) (who := who) (cause := cause)
  generalize s.fenceRecorded i who cause = u at hslices ⊢
  obtain ⟨g, q, pos, h⟩ := u.fenceEffect_frame i
  rw [h, ← State.slice_congr hslices j]
  exact State.onSlice_slice _ (hslices.symm ▸ hl) _ j

/-- What a fence leaves. -/
theorem fenced_fence (hi : i < 8) (hl : i < s.slices.length) (hf : (s.slice i).fenced = false) : Fenced s i who cause (s.fence i who cause) := by
  have hslice := State.fence_slice (who := who) (cause := cause) hi hl hf
  rw [State.fence_unfenced hi hf] at hslice ⊢
  have hcairn := State.fenceRecorded_cairn (s := s) (i := i) (who := who) (cause := cause)
  have hhost := State.fenceRecorded_host (s := s) (i := i) (who := who) (cause := cause)
  obtain ⟨-, hgq, hseq, hhbm, hpower, hmgmt⟩ := State.fenceRecorded_eq (s := s) (i := i) (who := who) (cause := cause)
  generalize s.fenceRecorded i who cause = u at *
  have hqueues := u.fenceEffect_groundQ i
  obtain ⟨g, q, pos, h⟩ := u.fenceEffect_frame i
  have hself : (u.fenceEffect i).slice i = (s.slice i).fenceOff := (hslice i).trans (if_pos rfl)
  have hground (q : Nat) : u.groundQ q = s.groundQ q := by rw [State.groundQ, State.groundQ, hgq]
  refine ⟨by rw [hself]; rfl, by rw [hself]; rfl, by rw [hself]; rfl, by rw [hself]; rfl, by rw [hself]; rfl, ?_, ?_, fun q => ?_,
    by rw [h]; exact hcairn, by rw [h]; exact hhost, by rw [h]; exact hhbm, by rw [h]; exact hpower,
    by rw [h]; exact congrArg Mgmt.owner hmgmt, fun j hj _ => (hslice j).trans (if_neg hj)⟩
  · have hissue : (u.fenceEffect i).seq.issue = u.seq.issue.set i [] := by rw [h]; rfl
    rw [hissue, List.getD_eq_getElem?_getD, List.getElem?_set_self']
    cases u.seq.issue[i]? <;> rfl
  · have hflights : (u.fenceEffect i).seq.flights = u.seq.flights.filter (fun f => f.stream ≠ i) := by rw [h]; rfl
    rw [hflights, hseq]
  · rw [hqueues, hground]

/-- A reply changes none of it. -/
theorem fenced_answerWith {t : State} (h : Fenced s i who cause t) (ws : List Nat) : Fenced s i who cause (t.answerWith ws) := h

/-- Nor does the queue of commands. -/
theorem fenced_pending {t : State} (h : Fenced s i who cause t) (q : List Instr) : Fenced s i who cause { t with pending := q } := h

/-- Nor does what follows a command. -/
theorem fenced_settle {t : State} (h : Fenced s i who cause t) : Fenced s i who cause t.settle := by
  obtain ⟨hf, -, hopens, htiles, hprusik, hissue, hflights, hqueues, hcairn, hhost, hhbm, hpower, howner, hothers⟩ := h
  have hslice : t.settle.slice i = { t.slice i with bufs := [] } := (t.settle_slice_eq i).trans (if_pos hf)
  have hafter := after_settle t
  have hseq := t.settle_seq
  have hmgmt := t.settle_mgmt
  have hkept (j : Nat) (hj : (t.slice j).fenced = false) := t.settle_slice j hj
  generalize t.settle = x at *
  refine ⟨by rw [hslice]; exact hf, by rw [hslice], by rw [hslice]; exact hopens, by rw [hslice]; exact htiles, by rw [hslice]; exact hprusik,
    ?_, by rw [hseq]; exact hflights, fun q => ?_, hafter.cairn.trans hcairn, hafter.srec_host.trans hhost, hafter.hbm.trans hhbm,
    hafter.power.trans hpower, by rw [hmgmt]; exact howner, fun j hj hfj => ?_⟩
  · rw [hseq]
    exact getD_mapIdx_nil (ite_self _) hissue
  · rw [← hqueues q, State.groundQ, State.groundQ, hafter.gq]
  · have hsame := hothers j hj hfj
    exact (hkept j (by rw [hsame, hfj])).trans hsame

/-- From a fence to the next state. -/
theorem next_fenced {c : Instr} {u e : State} {P : State → Prop} (h : exec c u = answer u e) (hf : Fenced s i who cause e)
    (k : ∀ t, Fenced s i who cause t → After e t → P t) : ∃ t, exec c u = .next t ∧ P t :=
  ⟨_, h, k _ (fenced_pending (fenced_settle hf) u.pending) (after_pending e e.settle u.pending (after_settle e))⟩

/-- A stamp is the same after a cairn. -/
theorem State.raise_stamp (c src q a b : Nat) : (s.raise c src q a b).stamp = s.stamp :=
  State.stamp_congr _ _ (by simp) (by simp) (by simp)

end

/-! ### The rows that set one -/

/-- The mask of one slice. -/
theorem maskBits_two_pow : ∀ i < 8, maskBits (2 ^ i) = [i] := by decide

section
variable {s : State} {i : Nat}

theorem State.fenceMask_one (hi : i < 8) (who : Nat) : s.fenceMask (2 ^ i) who = s.fence i who 0 := by
  rw [State.fenceMask, maskBits_two_pow i hi]; rfl

theorem exec_glbFenceWrite {m : Master} (h : s.may m true = true) (hi : i < 8) :
    exec (.glbFenceWrite m (2 ^ i)) s = answer s (s.fence i (originator m) 0) := by
  rw [← State.fenceMask_one hi]; exact congrArg (answer s) (if_pos h)

theorem exec_fence (hs : s.power.standby = true) (hi : i < 8) :
    exec (.fence (2 ^ i)) s = answer s ((s.fence i 2 0).answerWith [0]) := by
  rw [← State.fenceMask_one hi]; exact congrArg (answer s) (if_pos hs)

theorem exec_fenceEffecter (hs : s.power.standby = true) (hi : i < 8) :
    exec (.setStateEffecterStates (.fence i) true) s = answer s ((s.fence i 2 0).answerWith [0]) := by
  refine (State.onBus_powered hs (·.effect (.fence i) true)).trans (congrArg (answer s) ?_)
  rw [State.effect, if_neg (by omega)]
  rfl

/-! ### A fence cleared (R476) -/

theorem State.unfenceMask_refused (hr : s.power.st ≠ .ready) (hh : s.power.st ≠ .held) (hi : i < 8) :
    s.unfenceMask (2 ^ i) = s.bump 0x38C noUnit 1 := by
  simp [State.unfenceMask, State.mayUnfence, hr, hh, maskBits_two_pow i hi]

theorem State.unfenceMask_taken (h : s.power.st = .ready ∨ s.power.st = .held) (hf : (s.slice i).fenced = true)
    (hc : (s.slice i).clearing = false) (hi : i < 8) : s.unfenceMask (2 ^ i) = s.onSlice i (fun sl => { sl with clearing := true }) := by
  simp [State.unfenceMask, State.mayUnfence, h, maskBits_two_pow i hi, State.clearFence, hf, hc]

/-- The rows by which management clears the fence of slice `i`. -/
def unfenceRows (i : Nat) : List Instr := [.mgtUnfence .mgmt (2 ^ i), .unfence (2 ^ i), .setStateEffecterStates (.fence i) false]

/-- Each of them clears the mask; those of Igvaelo answer. -/
theorem exec_unfenceRows (hs : s.power.standby = true) (hi : i < 8) {c : Instr} (hc : c ∈ unfenceRows i) :
    ∃ e, exec c s = answer s e ∧ e.slices = (s.unfenceMask (2 ^ i)).slices ∧ e.power = (s.unfenceMask (2 ^ i)).power ∧
      e.cairn = (s.unfenceMask (2 ^ i)).cairn ∧ (c ≠ .mgtUnfence .mgmt (2 ^ i) → e.out.reply = [if s.mayUnfence then 0 else 1]) := by
  simp only [unfenceRows, List.mem_cons, List.not_mem_nil, or_false] at hc
  obtain rfl | rfl | rfl := hc
  · exact ⟨s.unfenceMask (2 ^ i), congrArg (answer s) (if_pos (by simp [hs])), rfl, rfl, rfl, fun h => absurd rfl h⟩
  · exact ⟨(s.unfenceMask (2 ^ i)).answerWith [if s.mayUnfence then 0 else 1], congrArg (answer s) (if_pos hs), rfl, rfl, rfl, fun _ => rfl⟩
  · refine ⟨(s.unfenceMask (2 ^ i)).answerWith [if s.mayUnfence then 0 else 1],
      (State.onBus_powered hs (·.effect (.fence i) false)).trans (congrArg (answer s) ?_), rfl, rfl, rfl, fun _ => rfl⟩
    rw [State.effect, if_neg (by omega)]
    rfl

theorem exec_mgtUnfence_host (mask : Nat) : exec (.mgtUnfence .host mask) s = answer s s := answer_unless (by simp)

/-- A fence of a slice that has one changes nothing. -/
theorem exec_glbFenceWrite_fenced (hinv : Inv s) (hf : (s.slice i).fenced = true) (hi : i < 8) (m : Master) :
    exec (.glbFenceWrite m (2 ^ i)) s = .next s := by
  have hsame : (if s.may m true = true then s.fenceMask (2 ^ i) (originator m) else s) = s := by
    rw [State.fenceMask_one hi, State.fence_fenced hf, ite_self]
  exact (congrArg (answer s) hsame).trans (answer_self s hinv)

/-! ### The end of a reinitialisation, and the loss of a die-to-die link -/

theorem State.reinit_slice (hl : i < s.slices.length) : (s.reinit i).slice i = { s.slice i with
    fenced := false, clearing := false, bufs := [], opens := [], tiles := [], held := [], heat := [], prusik := [] } :=
  (State.onSlice_slice s hl _ i).trans (if_pos rfl)

/-- A reinitialisation that ends well frees the slice. -/
theorem exec_fenceClearReinitDone_clean (hc : (s.slice i).clearing = true) :
    exec (.fenceClearReinitDone i true) s = answer s (s.reinit i) := by
  refine congrArg (answer s) ?_
  simp [State.reinitDone, hc]

/-- The state in which an uncorrectable error has ended the reinitialisation of slice `i`, before the engine fences it again. -/
def State.reinitFailed (s : State) (i mem addr : Nat) : State :=
  (State.raise { s with free := s.free + 1 + 1 } 0x08 (sliceSource 0 i) 0 mem addr).onSlice i
    (fun sl => { sl with clearing := false, fenced := false })

/-- The engine fences it again, whatever the error's place. -/
theorem exec_fenceClearReinitDone_failed (hc : (s.slice i).clearing = true) : ∃ mem addr,
    exec (.fenceClearReinitDone i false) s = answer s ((s.reinitFailed i mem addr).fence i 3 0x08) := by
  refine ⟨s.fresh.1 % 8 + 1, s.fresh.2.fresh.1, congrArg (answer s) ?_⟩
  simp [State.reinitDone, hc]
  rfl

section
variable (s i) (mem addr : Nat)

theorem State.reinitFailed_slice (hl : i < s.slices.length) :
    (s.reinitFailed i mem addr).slice i = { s.slice i with clearing := false, fenced := false } := by
  have hraise := State.slice_congr (State.raise_slices { s with free := s.free + 1 + 1 } 0x08 (sliceSource 0 i) 0 mem addr) i
  refine (State.onSlice_slice _ (by simpa using hl) _ i).trans ((if_pos rfl).trans ?_)
  rw [hraise]
  rfl

theorem State.reinitFailed_power : (s.reinitFailed i mem addr).power = s.power := by simp [State.reinitFailed]

theorem State.reinitFailed_cairn : (s.reinitFailed i mem addr).cairn =
    s.cairn.submit s.power.cycles ⟨0x08, sliceSource 0 i, 0, mem, addr⟩ s.stamp := by
  simp [State.reinitFailed, State.raise_cairn, State.stamp, State.isRunning]

theorem State.reinitFailed_stamp : (s.reinitFailed i mem addr).stamp = s.stamp :=
  State.stamp_congr _ _ (s.reinitFailed_power i mem addr) (by simp [State.reinitFailed]) (by simp [State.reinitFailed])

end

theorem exec_dieToDieLinkDown (hup : s.coreUp = true) (hi : i < 8) (cause : Nat) :
    exec (.dieToDieLinkDown i cause) s = answer s ((s.raise 0x03 (source 0xA i) 0 cause 0).fence i 3 0x03) :=
  congrArg (answer s) (if_pos ⟨hup, hi⟩)

end

/-- Settles O50: every row that fences is one use of `fenced_fence`; a clear only marks the slice, and its end frees it or fences it again. -/
theorem fencesSetAndCleared : Obligations.FencesSetAndCleared := by
  refine ⟨fun s i hi hl _ hs => ⟨fun hf => ⟨fun m hm => ?_, ?_, ?_⟩, fun hf hinv m => exec_glbFenceWrite_fenced hinv hf hi m⟩,
    fun s i hi hl _ => ⟨fun c hs hc => ?_, fun hinv => ?_, fun hc => ⟨?_, ?_⟩, fun cause hup hf => ?_⟩⟩
  · exact next_fenced (exec_glbFenceWrite hm hi) (fenced_fence hi hl hf) fun t ht _ => ht
  · exact next_fenced (exec_fence hs hi) (fenced_answerWith (fenced_fence hi hl hf) [0]) fun t ht hafter =>
      ⟨ht, congrArg Outputs.reply hafter.out⟩
  · exact next_fenced (exec_fenceEffecter hs hi) (fenced_answerWith (fenced_fence hi hl hf) [0]) fun t ht hafter =>
      ⟨ht, congrArg Outputs.reply hafter.out⟩
  · obtain ⟨e, hexec, hslices, hpower, hcairn, hreply⟩ := exec_unfenceRows hs hi (c := c) (by simpa [unfenceRows] using hc)
    have hslice := State.slice_congr hslices i
    refine ⟨fun hst hf hcl => ?_, fun hr hh => ?_⟩
    · rw [State.unfenceMask_taken hst hf hcl hi] at hslice hpower hcairn
      rw [State.onSlice_slice s hl, if_pos rfl] at hslice
      refine next_slices hexec fun t ht hsettled => ?_
      rw [hsettled, ht.power, ht.cairn, hpower, hcairn, Slice.settled_clearing, Slice.settled_fenced, hslice]
      exact ⟨rfl, hf, rfl, rfl⟩
    · have hmay : s.mayUnfence = false := by simp [State.mayUnfence, hr, hh]
      have hsame := State.slice_congr (s.bump_slices 0x38C noUnit 1) i
      rw [State.unfenceMask_refused hr hh hi, hsame] at hslice
      refine next_slices hexec fun t ht hsettled => ?_
      rw [hsettled, Slice.settled_clearing, Slice.settled_fenced, hslice]
      exact ⟨rfl, rfl, fun hne => (congrArg Outputs.reply ht.out).trans ((hreply hne).trans (by rw [hmay]; rfl))⟩
  · exact (exec_mgtUnfence_host _).trans (answer_self s hinv)
  · refine next_after _ s _ _ (exec_fenceClearReinitDone_clean hc) fun t ht => ?_
    have hfree := State.reinit_slice hl
    have hslice := (ht.slice i (by rw [hfree])).trans hfree
    simp only [hslice, ht.cairn, ht.anc, true_and]
    exact ⟨(Tab.get_put [] [] s.anc.trans i i).trans (if_pos rfl), rfl⟩
  · obtain ⟨mem, addr, hexec⟩ := exec_fenceClearReinitDone_failed hc
    have hslice := s.reinitFailed_slice i mem addr hl
    have hl' : i < (s.reinitFailed i mem addr).slices.length := by simpa [State.reinitFailed, State.onSlice] using hl
    have hf : ((s.reinitFailed i mem addr).slice i).fenced = false := by rw [hslice]
    have hclearing : (((s.reinitFailed i mem addr).fence i 3 0x08).slice i).clearing = false := by
      rw [State.fence_slice hi hl' hf, if_pos rfl, hslice]
      rfl
    obtain ⟨hfenced, -, -, -, -, -, -, -, hcairn, -⟩ := fenced_fence (who := 3) (cause := 0x08) hi hl' hf
    rw [State.reinitFailed_cairn, State.reinitFailed_stamp, State.reinitFailed_power] at hcairn
    refine (next_slices hexec fun t ht hsettled => ?_).imp fun t ht => ⟨mem, addr, ht⟩
    rw [hsettled, ht.cairn, Slice.settled_clearing, Slice.settled_fenced]
    exact ⟨hfenced, hclearing, hcairn⟩
  · have hl' : i < (s.raise 0x03 (source 0xA i) 0 cause 0).slices.length := by simpa using hl
    have hf' := (congrArg Slice.fenced (State.slice_congr (s.raise_slices 0x03 (source 0xA i) 0 cause 0) i)).trans hf
    refine next_fenced (exec_dieToDieLinkDown hup hi cause) (fenced_fence hi hl' hf') fun t ht _ => ?_
    obtain ⟨hfenced, -, -, -, -, -, -, -, hcairn, -⟩ := ht
    exact ⟨hfenced, by rw [hcairn, State.raise_cairn, State.raise_power, State.raise_stamp]⟩

end Sys2Proof.Machine

/-! Numbers as bytes and elements as bytes: what is packed is read back (R5, R40, R42). -/

namespace Sys2Proof.Machine

/-! ### Numbers -/

@[simp] theorem leBytes_length (n v : Nat) : (leBytes n v).length = n := by
  induction n generalizing v with
  | zero => rfl
  | succ n ih => simp [leBytes, ih]

/-- The bytes of a number are those of its residue. -/
theorem leNat_leBytes (n v : Nat) : leNat (leBytes n v) = v % 256 ^ n := by
  induction n generalizing v with
  | zero => simp [leBytes, leNat, Nat.mod_one]
  | succ n ih =>
    have hpow : 256 ^ (n + 1) = 256 * 256 ^ n := Nat.pow_succ'
    rw [leBytes, leNat, ih, BitVec.toNat_ofNat, hpow]
    exact (Nat.mod_mul (a := 256)).symm

/-- A power of two, as an integer. -/
theorem two_pow_int (n : Nat) : (2 : Int) ^ n = ((2 ^ n : Nat) : Int) := by rw [Int.natCast_pow]; rfl

theorem twos_lt (bits : Nat) (v : Int) : twos bits v < 2 ^ bits := by
  have hpos : 0 < 2 ^ bits := Nat.two_pow_pos bits
  rw [twos, two_pow_int]
  generalize 2 ^ bits = p at hpos ⊢
  have hlt : v % (p : Int) < p := Int.emod_lt_of_pos v (by omega)
  omega

/-- A number that `bits` bits of two's complement hold is read back from them (R5). -/
theorem sext_twos {bits : Nat} (hb : 0 < bits) {v : Int} (h : v.natAbs < 2 ^ (bits - 1)) : sext bits (twos bits v) = v := by
  obtain ⟨k, rfl⟩ : ∃ k, bits = k + 1 := ⟨bits - 1, by omega⟩
  simp only [sext, Nat.mod_eq_of_lt (twos_lt _ v)]
  simp only [twos, Nat.add_sub_cancel, Int.pow_succ, two_pow_int] at h ⊢
  generalize 2 ^ k = p at h ⊢
  obtain hv | hv : v < 0 ∨ 0 ≤ v := by omega
  · have hmod : v % ((p : Int) * 2) = v + p * 2 := by
      rw [← Int.add_emod_right]; exact Int.emod_eq_of_lt (by omega) (by omega)
    split <;> omega
  · have hmod : v % ((p : Int) * 2) = v := Int.emod_eq_of_lt hv (by omega)
    split <;> omega

/-! ### Lists cut into pieces -/

theorem piecesFuel_succ {α : Type} (n fuel : Nat) {xs : List α} (h : xs ≠ []) :
    piecesFuel n (fuel + 1) xs = xs.take n :: piecesFuel n fuel (xs.drop n) := by
  cases xs with
  | nil => exact absurd rfl h
  | cons x xs => rfl

/-- Items of one length, laid one after another, are the pieces of that length. -/
theorem piecesFuel_flatMap {α β : Type} {n : Nat} (hn : 0 < n) {f : α → List β} (hf : ∀ x, (f x).length = n) {fuel : Nat} (xs : List α)
    (h : xs.length ≤ fuel) : piecesFuel n fuel (xs.flatMap f) = xs.map f := by
  induction xs generalizing fuel with
  | nil => cases fuel <;> rfl
  | cons x xs ih =>
    obtain ⟨fuel, rfl⟩ : ∃ k, fuel = k + 1 := ⟨fuel - 1, by simp at h; omega⟩
    have hne : f x ++ xs.flatMap f ≠ [] := List.append_ne_nil_of_left_ne_nil (List.length_pos_iff.1 (hf x ▸ hn)) _
    rw [List.flatMap_cons, piecesFuel_succ n fuel hne, List.take_left' (hf x), List.drop_left' (hf x), ih (by simpa using h), List.map_cons]

theorem pieces_flatMap {α β : Type} {n : Nat} (hn : 0 < n) {f : α → List β} (hf : ∀ x, (f x).length = n) (xs : List α) :
    pieces n (xs.flatMap f) = xs.map f := by
  refine piecesFuel_flatMap hn hf xs ?_
  simp only [List.length_flatMap, hf, List.map_const', List.sum_replicate_nat]
  exact Nat.le_mul_of_pos_right _ hn

/-! ### Elements -/

/-- Elements of whole bytes are read back from the bytes they are packed in. -/
theorem unpackElems_packElems {fmt w : Nat} (hw : 0 < w) (hfmt : formatBits fmt = 8 * w) {xs : List Int}
    (hx : ∀ v ∈ xs, v.natAbs < 2 ^ (formatBits fmt - 1)) : unpackElems fmt (packElems fmt xs) xs.length = xs := by
  have hsign : fmt ≠ 3 := by rintro rfl; simp [formatBits] at hfmt; omega
  have hwidth : formatBits fmt / 8 = w := by omega
  simp only [unpackElems, packElems, hsign, if_false, hwidth]
  rw [pieces_flatMap hw (fun _ => leBytes_length _ _), List.take_of_length_le (by simp), List.map_map]
  refine (List.map_congr_left fun v hv => ?_).trans (List.map_id xs)
  have hlt : twos (8 * w) v < 256 ^ w := Nat.lt_of_lt_of_eq (twos_lt _ v) (Nat.pow_mul 2 8 w)
  simp only [Function.comp_apply, leNat_leBytes, Nat.mod_eq_of_lt hlt]
  exact sext_twos (by omega) (hfmt ▸ hx v hv)

end Sys2Proof.Machine

/-! The sum of a reduction (R55, R56, R133, R144). -/

namespace Sys2Proof.Machine

/-! ### Lists of integers added -/

@[simp] theorem addInts_nil_left (xs : List Int) : addInts [] xs = xs := rfl

@[simp] theorem addInts_nil_right (xs : List Int) : addInts xs [] = xs := by cases xs <;> rfl

@[simp] theorem length_addInts (xs ys : List Int) : (addInts xs ys).length = max xs.length ys.length := by
  induction xs generalizing ys with
  | nil => simp
  | cons x xs ih =>
    cases ys with
    | nil => simp
    | cons y ys => simp [addInts, ih, Nat.succ_max_succ]

/-- Element by element, where an absent one counts 0. -/
@[simp] theorem nth_addInts (xs ys : List Int) (i : Nat) : nth (addInts xs ys) i 0 = nth xs i 0 + nth ys i 0 := by
  induction xs generalizing ys i with
  | nil => simp [nth]
  | cons x xs ih =>
    cases ys with
    | nil => simp [nth]
    | cons y ys =>
      cases i with
      | zero => simp [addInts, nth]
      | succ i => simpa [addInts, nth] using ih ys i

/-- Lists of one length with the same elements. -/
theorem ext_nth {xs ys : List Int} (hl : xs.length = ys.length) (h : ∀ i, nth xs i 0 = nth ys i 0) : xs = ys := by
  refine List.ext_getElem hl fun i hx hy => ?_
  simpa [nth, hx, hy] using h i

/-- The order of two lists added does not matter. -/
theorem addInts_right_comm (xs ys zs : List Int) : addInts (addInts xs ys) zs = addInts (addInts xs zs) ys :=
  ext_nth (by simp only [length_addInts]; omega) fun i => by simp only [nth_addInts]; omega

theorem sumNat_perm {xs ys : List Nat} (h : xs.Perm ys) : sumNat xs = sumNat ys :=
  h.foldl_eq' (fun _ _ _ _ _ => Nat.add_right_comm ..) 0

/-! ### Chunks added -/

/-- The elements of chunks added to `acc`. -/
theorem nth_foldl_addInts (cs : List Chunk) (acc : List Int) (i : Nat) :
    nth (cs.foldl (fun a c => addInts a c.ints) acc) i 0 = nth acc i 0 + (cs.map (fun c => nth c.ints i 0)).sum := by
  induction cs generalizing acc with
  | nil => simp
  | cons c cs ih => rw [List.foldl_cons, ih, nth_addInts, List.map_cons, List.sum_cons, Int.add_assoc]

theorem length_foldl_addInts {cs : List Chunk} {acc : List Int} {n : Nat} (ha : acc.length = n) (h : ∀ c ∈ cs, c.ints.length = n) :
    (cs.foldl (fun a c => addInts a c.ints) acc).length = n := by
  induction cs generalizing acc with
  | nil => exact ha
  | cons c cs ih =>
    obtain ⟨hc, hcs⟩ := List.forall_mem_cons.1 h
    exact ih (by simp [ha, hc]) hcs

/-- Chunks of one length have the sums of their elements. -/
theorem foldl_addInts {cs : List Chunk} {n : Nat} (hne : cs ≠ []) (h : ∀ c ∈ cs, c.ints.length = n) :
    cs.foldl (fun a c => addInts a c.ints) [] = (List.range n).map (fun i => (cs.map (fun c => nth c.ints i 0)).sum) := by
  have hlen : (cs.foldl (fun a c => addInts a c.ints) []).length = n := by
    obtain ⟨c, cs, rfl⟩ := List.exists_cons_of_ne_nil hne
    obtain ⟨hc, hcs⟩ := List.forall_mem_cons.1 h
    exact length_foldl_addInts (acc := c.ints) hc hcs
  refine List.ext_getElem (by simp [hlen]) fun i hi _ => ?_
  have hsum := nth_foldl_addInts cs [] i
  simpa [nth, hi] using hsum

/-- In any order. -/
theorem foldl_addInts_perm {as bs : List Chunk} (h : as.Perm bs) :
    as.foldl (fun a c => addInts a c.ints) [] = bs.foldl (fun a c => addInts a c.ints) [] :=
  h.foldl_eq' (fun x _ y _ z => addInts_right_comm z x.ints y.ints) _

/-! ### The output -/

/-- A contribution of the slice's own, as an input. -/
def ownInput (c : Chunk) : Input := ⟨0, 0, c, false⟩

/-- The own contribution is added like one more input. -/
theorem formOutput_own (r : Pitch) (step : Nat) (e : Int) (wide last dev : Bool) (own : Option Chunk) (ins : List Input) :
    formOutput r step e wide last dev own ins = formOutput r step e wide last dev none (own.toList.map ownInput ++ ins) := by
  cases own <;> rfl

/-- The output of a reduction does not depend on the order of its inputs (R133). -/
theorem formOutput_perm (r : Pitch) (step : Nat) (e : Int) (wide last dev : Bool) (own : Option Chunk) {as bs : List Input} (h : as.Perm bs) :
    formOutput r step e wide last dev own as = formOutput r step e wide last dev own bs := by
  rw [formOutput_own, formOutput_own _ _ _ _ _ _ _ bs]
  replace h := h.append_left (own.toList.map ownInput)
  generalize own.toList.map ownInput ++ as = as, own.toList.map ownInput ++ bs = bs at h
  have hlive := (h.map (·.chunk)).filter (fun c => !c.null)
  have hnil : ((as.map (·.chunk)).filter (fun c => !c.null) = []) = ((bs.map (·.chunk)).filter (fun c => !c.null) = []) := by
    rw [← List.length_eq_zero_iff, ← List.length_eq_zero_iff, hlive.length_eq]
  simp only [formOutput, List.nil_append, (h.map (·.chunk)).any_eq, h.any_eq, hnil, sumNat_perm (hlive.map (·.cord)), foldl_addInts_perm hlive]

/-- A saturated value fits. -/
theorem natAbs_satTo_lt (bits : Nat) (v : Int) : (satTo bits v).1.natAbs < 2 ^ (bits - 1) := by
  have hpos : 0 < 2 ^ (bits - 1) := Nat.two_pow_pos _
  simp only [satTo, two_pow_int]
  generalize 2 ^ (bits - 1) = p at hpos ⊢
  split
  · dsimp only; omega
  · split <;> dsimp only <;> omega

/-- A sum of a reduction with output width `w`, bounded by its lane, and whether it was cut (R56). -/
def laneSum (w : Nat) (v : Int) : Int × Bool := satTo (if w = 8 then 24 else 48) v

/-- The element sent for it, bounded by the wire width, and whether it was cut (R56). -/
def wireSum (w : Nat) (v : Int) : Int × Bool := satTo (formatBits w) (laneSum w v).1

/-- A value that a bound cut is counted. -/
theorem length_filter_cut_pos {l : List (Int × Bool)} {v : Int × Bool} (hv : v ∈ l) (hcut : v.2 = true) : 0 < (l.filter (·.2)).length :=
  List.length_pos_iff.2 (List.ne_nil_of_mem (List.mem_filter.2 ⟨hv, hcut⟩))

/-- The output of live contributions outside the routed class: their sum `xs`, bounded twice. -/
theorem formOutput_live {r : Pitch} (hr : r.routed = false) (step : Nat) (e : Int) (wide last dev : Bool) {own : Option Chunk} {ins : List Input}
    {live : List Chunk} (hlive : live = (own.toList ++ ins.map (·.chunk)).filter (fun c => !c.null)) (hne : live ≠ []) {xs : List Int}
    (hxs : live.foldl (fun a c => addInts a c.ints) [] = xs) :
    ∃ c, (formOutput r step e wide last dev own ins).chunk = some c ∧ c.null = false ∧ c.exp = e ∧ c.elems = xs.length ∧
      c.fmt = r.owidth ∧ c.data = packElems r.owidth (xs.map (fun v => (wireSum r.owidth v).1)) ∧
      (∀ v ∈ xs, (laneSum r.owidth v).2 = true ∨ (wireSum r.owidth v).2 = true → c.dev = true) := by
  have hin : ((own.toList.map ownInput ++ ins).map (·.chunk)).filter (fun c => !c.null) = live := by
    rw [hlive]; cases own <;> rfl
  rw [formOutput_own]
  simp only [formOutput, List.nil_append, hin, hne, hr, hxs, if_false, Bool.false_and, Bool.false_eq_true]
  refine ⟨_, rfl, rfl, rfl, by simp, rfl, by rw [List.map_map, List.map_map]; rfl, fun v hv hcut => ?_⟩
  have hlane := List.mem_map_of_mem (f := laneSum r.owidth) hv
  simp only [Bool.or_eq_true, decide_eq_true_eq]
  obtain h | h := hcut
  · exact .inr (length_filter_cut_pos hlane h)
  · exact .inl (.inr (length_filter_cut_pos (List.mem_map_of_mem (f := fun v => satTo (formatBits r.owidth) v.1) hlane) h))

/-- Settles O27: the sum is followed element by element through both bounds; the order of the inputs does not reach it. -/
theorem exactSummation : Obligations.ExactSummation := by
  refine ⟨fun r step e wide last dev own ins live n hr hw hlive hne hlen => ?_, fun r step e wide last dev own a b hab => ?_⟩
  · obtain ⟨c, hc, hnull, hexp, helems, hfmt, hdata, hdev⟩ := formOutput_live hr step e wide last dev hlive hne (foldl_addInts hne hlen)
    rw [List.length_map, List.length_range] at helems
    refine ⟨c, hc, hnull, hexp, helems, hfmt, ?_, fun ⟨i, hi, hcut⟩ => hdev _ (List.mem_map_of_mem (List.mem_range.2 hi)) hcut⟩
    have hfit : ∀ v ∈ ((List.range n).map fun i => (live.map (fun c => nth c.ints i 0)).sum).map (fun v => (wireSum r.owidth v).1),
        v.natAbs < 2 ^ (formatBits r.owidth - 1) := by
      simp only [List.forall_mem_map]
      exact fun i _ => natAbs_satTo_lt _ _
    obtain ⟨w, hpos, hbits⟩ : ∃ w, 0 < w ∧ formatBits r.owidth = 8 * w := by
      obtain h | h | h | h := hw <;> exact ⟨formatBits r.owidth / 8, by rw [h]; decide⟩
    have hread := unpackElems_packElems hpos hbits hfit
    rw [List.length_map, List.length_map, List.length_range] at hread
    rw [Chunk.ints, hnull, hfmt, hdata, helems, if_neg Bool.false_ne_true, hread, List.map_map]
    rfl
  · simp only [formOutput_perm r step e wide last dev own hab, and_self]

end Sys2Proof.Machine

/-! What a block of a SELECT sends and keeps (R51, R101, R103). -/

namespace Sys2Proof.Machine

/-! ### A block's payload -/

theorem quantBlock_payload (xs : List Nat) (e : Int) (q : Nat) : (quantBlock xs e q).payload = xs.map (fun x => (quantise x e q).1) := by
  simp [quantBlock]

/-- Each element keeps what its code leaves (R51). -/
theorem quantBlock_resid (xs : List Nat) (e : Int) (q : Nat) :
    (quantBlock xs e q).resid = xs.map (fun x => plusZero (residualOf x (quantise x e q).1 e).1) := by
  change ((xs.map fun x => (x, quantise x e q)).map fun k => residualOf k.1 k.2.1 e).map (fun r => plusZero r.1) = _
  induction xs with
  | nil => rfl
  | cons x xs ih => rw [List.map_cons, List.map_cons, List.map_cons, ih, List.map_cons]

theorem length_indexed {α : Type} (xs : List α) : (indexed xs).length = xs.length := by simp [indexed]

theorem signBlock_payload_length (seed : List Nat) (t step b sb : Nat) (xs : List Nat) :
    (signBlock seed t step b sb xs).payload.length = xs.length :=
  (List.length_map _).trans (length_indexed xs)

theorem length_append_replicate_sub {α : Type} {xs : List α} {n : Nat} (h : xs.length ≤ n) (x : α) :
    (xs ++ List.replicate (n - xs.length) x).length = n := by
  rw [List.length_append, List.length_replicate, Nat.add_sub_cancel' h]

/-- A block is padded to 1,024 elements (R103). -/
theorem padBlock_length (sign : Bool) {ks : List Int} (h : ks.length ≤ 1024) : (padBlock sign ks).length = 1024 :=
  length_append_replicate_sub h _

/-- The padding comes after the block's own elements. -/
theorem nth_padBlock (sign : Bool) {ks : List Int} {i : Nat} (h : i < ks.length) : nth (padBlock sign ks) i 0 = nth ks i 0 := by
  simp only [nth, padBlock, List.getD_eq_getElem?_getD, List.getElem?_append_left h]

/-! ### `select_block` by what the settle and the contribution are -/

section
variable (s : State) (sl t b : Nat) (xs : List Nat) (nul void unread : Bool)

/-- The settle put the block in the wide or the main set (R101). -/
def State.selects : Bool := (s.wideSet sl t).contains b || (s.mainSet sl t).contains b

/-- The block's payload is its signs (R103). -/
def State.sendsSigns : Bool := (s.image.policyOf t).runMode = 4 && !(s.wideSet sl t).contains b

/-- The block has come late, or its residual cannot be read (R110, R473). -/
def State.blockLost : Bool := (s.block sl ((s.image.policyOf t).entry b)).late || unread

/-- Width of the block's codes outside the SIGN mode (R103). -/
def State.codeWidth : Nat := if (s.wideSet sl t).contains b = true ∨ (s.image.policyOf t).runMode = 1 then 16 else 8

/-- The block quantised outside the SIGN mode (R103). -/
def State.codedBlock : Quantised :=
  quantBlock xs ((s.unitExp t ((s.image.policyOf t).unitOf b) (s.codeWidth sl t b)).getD 0) (s.codeWidth sl t b)

variable {s sl t b}

/-- A block in neither set sends nothing and keeps its sum. -/
theorem State.selectBlock_unselected (h : s.selects sl t b = false) : s.selectBlock sl t b xs nul void unread = (none, ⟨[], xs, 0, 0⟩) :=
  if_pos (by rw [State.selects] at h; rw [h]; rfl)

theorem State.sent_of_selects (h : s.selects sl t b = true) : ¬(!((s.wideSet sl t).contains b || (s.mainSet sl t).contains b)) = true := by
  rw [State.selects] at h
  simp only [h, Bool.not_true, Bool.false_eq_true, not_false_eq_true]

/-- A null or a void contribution keeps its sum. -/
theorem State.selectBlock_null (h : s.selects sl t b = true) (hv : void = true ∨ nul = true) : s.selectBlock sl t b xs nul void unread =
    (some (List.replicate 1024 (if s.sendsSigns sl t b then 1 else 0)), ⟨[], xs, 0, 0⟩) := by
  refine (if_neg (State.sent_of_selects h)).trans ((if_pos hv).trans ?_)
  congr 2
  rw [apply_ite (List.replicate 1024)]
  rfl

variable (h : s.selects sl t b = true) (hv : ¬(void = true ∨ nul = true))
include h hv

/-- A lost block outside the SIGN mode sends zeros and keeps its sum. -/
theorem State.selectBlock_lost (hl : s.blockLost sl t b unread = true ∧ (s.image.policyOf t).runMode ≠ 4) :
    s.selectBlock sl t b xs nul void unread = (some (List.replicate 1024 0), ⟨[], xs, 0, 0⟩) := by
  exact (if_neg (State.sent_of_selects h)).trans ((if_neg hv).trans (if_pos hl))

/-- Another block sends its codes, padded. -/
theorem State.selectBlock_coded (hl : ¬(s.blockLost sl t b unread = true ∧ (s.image.policyOf t).runMode ≠ 4))
    (hs : s.sendsSigns sl t b = false) : s.selectBlock sl t b xs nul void unread =
      (some (padBlock false (s.codedBlock sl t b xs).payload), s.codedBlock sl t b xs) := by
  refine (if_neg (State.sent_of_selects h)).trans ((if_neg hv).trans ((if_neg hl).trans ?_))
  by_cases hwide : (s.wideSet sl t).contains b = true ∨ (s.image.policyOf t).runMode = 1
  · have hq : s.codeWidth sl t b = 16 := if_pos hwide
    rw [State.codedBlock, hq]
    exact if_pos hwide
  · have hmode : (s.image.policyOf t).runMode ≠ 4 := fun hm => hwide (.inl (by simpa [State.sendsSigns, hm] using hs))
    have hq : s.codeWidth sl t b = 8 := if_neg hwide
    rw [State.codedBlock, hq]
    exact (if_neg hwide).trans (if_neg hmode)

/-- Or, in the SIGN mode, its signs, padded. -/
theorem State.selectBlock_signs (hs : s.sendsSigns sl t b = true) : ∃ q : Quantised, q.payload.length = xs.length ∧
    s.selectBlock sl t b xs nul void unread = (some (padBlock true q.payload), q) := by
  obtain ⟨hmode, hwide⟩ : (s.image.policyOf t).runMode = 4 ∧ (s.wideSet sl t).contains b = false := by simpa [State.sendsSigns] using hs
  refine ⟨signBlock s.seed t s.seq.step b (signScale ((s.slice sl).heat.get 0 ((s.image.policyOf t).entry b)) ((s.heatExp t).getD 0)
    (s.image.policyOf t).hgroup).1 xs, signBlock_payload_length .., ?_⟩
  refine (if_neg (State.sent_of_selects h)).trans ((if_neg hv).trans ((if_neg (by simp [hmode])).trans ((if_neg ?_).trans (if_pos hmode))))
  rw [hwide, hmode]
  decide

end

/-- A block of the sets sends 1,024 elements. -/
theorem State.selectBlock_length {s : State} {sl t b : Nat} (h : s.selects sl t b = true) {xs : List Nat} (hlen : xs.length ≤ 1024)
    (nul void unread : Bool) : ∃ ks, (s.selectBlock sl t b xs nul void unread).1 = some ks ∧ ks.length = 1024 := by
  by_cases hv : void = true ∨ nul = true
  · exact ⟨_, congrArg Prod.fst (State.selectBlock_null xs nul void unread h hv), List.length_replicate⟩
  by_cases hl : s.blockLost sl t b unread = true ∧ (s.image.policyOf t).runMode ≠ 4
  · exact ⟨_, congrArg Prod.fst (State.selectBlock_lost xs nul void unread h hv hl), List.length_replicate⟩
  cases hs : s.sendsSigns sl t b with
  | false =>
    refine ⟨_, congrArg Prod.fst (State.selectBlock_coded xs nul void unread h hv hl hs), padBlock_length _ ?_⟩
    rwa [State.codedBlock, quantBlock_payload, List.length_map]
  | true =>
    obtain ⟨q, hq, hsel⟩ := State.selectBlock_signs xs nul void unread h hv hs
    exact ⟨_, congrArg Prod.fst hsel, padBlock_length _ (hq ▸ hlen)⟩

/-- Settles O32: a block is unselected, null or coded, and each case has its equation. -/
theorem blockSelection : Obligations.BlockSelection := by
  rintro s sl t b xs nul void unread pol rfl
  refine ⟨fun hwide hmain => ?_, fun hset hlen => ?_⟩
  · rw [State.selectBlock_unselected xs nul void unread (by rw [State.selects, hwide, hmain]; rfl)]
    exact ⟨rfl, rfl⟩
  · have h : s.selects sl t b = true := by simpa only [State.selects, Bool.or_eq_true] using hset
    refine ⟨State.selectBlock_length h hlen nul void unread, fun hnull => ?_, fun hn hv hu hl hm q e hq he => ?_⟩
    · rw [State.selectBlock_null xs nul void unread h hnull.symm]
    · have hcoded := State.selectBlock_coded xs nul void unread h (by simp [hn, hv]) (by simp [State.blockLost, hl, hu])
        (by simp [State.sendsSigns, hm])
      obtain rfl : s.codeWidth sl t b = q := hq.symm
      rw [hcoded, he, State.codedBlock, quantBlock_payload, quantBlock_resid]
      refine ⟨rfl, fun i hi => ?_⟩
      rw [Option.getD_some, nth_padBlock _ (by simpa using hi)]
      simp [nth, hi]

end Sys2Proof.Machine

/-! A pin that executes: what it leaves as it was, and its result in flight (R172, R201). -/

namespace Sys2Proof.Machine

/-! ### What a pin changes at its completion at the earliest -/

/-- What a pin leaves as it was while it executes, but for its own flight, and what its latency follows from (R172). -/
structure PinFrame where
  flights : List Flight
  variant : Nat
  belay : Belay
  img : ImgSt
  hbm : Memory
  stations : Tab Station
  power : Power
  groups : Tab GroupQ
  gq : Tab GroundQ
  anc : Anchors
  spikes : List Nat

/-- What a pin finds of it. -/
def State.pinFrame (s : State) : PinFrame :=
  ⟨s.seq.flights, s.seq.variant, s.belay, s.img, s.hbm, s.stations, s.power, s.groups, s.gq, s.anc, s.spikes⟩

section
variable (s : State)

@[simp] theorem taken_pinFrame (st : Nat) (x : Issue) : (Taken s st x).pinFrame = s.pinFrame := by rw [taken_eq]; rfl

@[simp] theorem State.onPort_pinFrame (p : Nat) (f : Port → Port) : (s.onPort p f).pinFrame = s.pinFrame := rfl

@[simp] theorem State.claim_pinFrame (sl u n : Nat) (c : Chunk) : (s.claim sl u n c).pinFrame = s.pinFrame := rfl

@[simp] theorem State.addWork_pinFrame (sl n : Nat) : (s.addWork sl n).pinFrame = s.pinFrame := rfl

@[simp] theorem State.setBuf_pinFrame (sl u : Nat) (b : BufSt) (c : Chunk) : (s.setBuf sl u b c).pinFrame = s.pinFrame := by
  unfold State.setBuf; split <;> rfl

@[simp] theorem State.bump_pinFrame (off u n : Nat) : (s.bump off u n).pinFrame = s.pinFrame := by simp [State.pinFrame]

@[simp] theorem State.dev_pinFrame (d : Dev) : (s.dev d).pinFrame = s.pinFrame := by simp [State.pinFrame]

@[simp] theorem State.saturated_pinFrame (sl row detail pitch chunk n : Nat) : (s.saturated sl row detail pitch chunk n).pinFrame = s.pinFrame := by
  unfold State.saturated
  split
  · rfl
  · exact (State.dev_pinFrame _ _).trans (s.bump_pinFrame _ _ _)

/-- A pin that flies joins the flights. -/
theorem State.flyHeld_pinFrame (st : Nat) (x : Issue) (void : Bool) (upds : List Upd) : (s.flyHeld st x void upds).pinFrame =
    { s.pinFrame with
      flights := s.seq.flights ++ [⟨s.count + s.latency st x.pin, st, x.sec, x.index, x.pin, void, s.count, upds⟩] } := by
  cases void <;> rfl

end

/-- What follows a command touches none of it. -/
theorem After.pinFrame {e t : State} (h : After e t) : t.pinFrame = e.pinFrame := by
  have hflights : t.seq.flights = e.seq.flights := by rw [h.seq]
  have hvar : t.seq.variant = e.seq.variant := by rw [h.seq]
  simp only [State.pinFrame, hflights, hvar, h.belay, h.img, h.hbm, h.stations, h.power, h.groups, h.gq, h.anc, h.spikes]

/-- The latency of a pin follows from what it finds. -/
theorem State.latency_congr {s t : State} (h : t.pinFrame = s.pinFrame) (st : Nat) (p : Pin) : t.latency st p = s.latency st p := by
  have himg : t.img = s.img := congrArg PinFrame.img h
  have hvar : t.seq.variant = s.seq.variant := congrArg PinFrame.variant h
  simp only [State.latency, State.pricking, State.image, himg, hvar]

theorem State.count_congr {s t : State} (h : t.pinFrame = s.pinFrame) : t.count = s.count :=
  congrArg (fun f => f.belay.count) h

theorem State.flights_congr {s t : State} (h : t.pinFrame = s.pinFrame) : t.seq.flights = s.seq.flights :=
  congrArg PinFrame.flights h

/-! ### A pin's own flight -/

/-- A pin that went into flight out of a state `w` that found what `s` did. -/
theorem inFlight_flyHeld {s w t : State} {st : Nat} {x : Issue} {upds : List Upd} (hw : w.pinFrame = s.pinFrame)
    (ht : After (w.flyHeld st x false upds) t) : InFlight s st x upds t := by
  have hframe := ht.pinFrame.trans (w.flyHeld_pinFrame st x false upds)
  rw [State.latency_congr hw, State.count_congr hw, State.flights_congr hw, hw] at hframe
  exact ⟨congrArg PinFrame.flights hframe, congrArg PinFrame.hbm hframe, congrArg PinFrame.stations hframe, congrArg PinFrame.belay hframe,
    congrArg PinFrame.power hframe, congrArg PinFrame.groups hframe, congrArg PinFrame.gq hframe, congrArg PinFrame.anc hframe,
    congrArg PinFrame.spikes hframe⟩

/-! ### What a pin reads -/

section
variable {s : State} {sl u : Nat} {c : Chunk}

theorem readable_of_holds (h : Holds s sl u c) : s.readable sl u = true := by
  obtain ⟨⟨b, hb, hready, -⟩, -⟩ := h
  simp [State.readable, hb, hready]

theorem chunkAt_of_holds (h : Holds s sl u c) : s.chunkAt sl u = some c := by
  obtain ⟨⟨b, hb, hready, hc⟩, -⟩ := h
  simp [State.chunkAt, hb, hready, hc]

end

end Sys2Proof.Machine

/-! REQUANT (R58, R59). -/

namespace Sys2Proof.Machine

/-! ### One element -/

/-- Saturation at 8 bits, as a clamp. -/
theorem satTo_eight (v : Int) : (satTo 8 v).1 = max (-127) (min 127 v) ∧ ((satTo 8 v).2 = true ↔ 127 < v.natAbs) := by
  have hlim : (2 : Int) ^ (8 - 1) - 1 = 127 := by decide
  simp only [satTo, hlim]
  split
  · simp only [true_iff]; omega
  · split
    · simp only [true_iff]; omega
    · simp only [Bool.false_eq_true, false_iff]; omega

/-- The quotient toward zero. -/
theorem tdiv_two_pow (z : Int) (sh : Nat) : (if z < 0 then -((z.natAbs / 2 ^ sh : Nat) : Int) else (z.natAbs / 2 ^ sh : Nat)) = z.tdiv (2 ^ sh) := by
  rw [two_pow_int]
  split
  · next hz =>
    obtain ⟨n, rfl⟩ : ∃ n : Nat, z = -n := ⟨z.natAbs, by omega⟩
    rw [Int.neg_tdiv, Int.natAbs_neg, Int.natAbs_natCast, Int.ofNat_tdiv]
  · next hz =>
    obtain ⟨n, rfl⟩ : ∃ n : Nat, z = n := ⟨z.natAbs, by omega⟩
    rw [Int.natAbs_natCast, Int.ofNat_tdiv]

/-- The code of an element is the clamped quotient, and its residual what the code leaves (R58). -/
theorem requantise_eq (z : Int) (sh : Nat) : (requantise z sh).1 = max (-127) (min 127 (z.tdiv (2 ^ sh))) ∧
    (requantise z sh).2.1 = z - (requantise z sh).1 * 2 ^ sh ∧ ((requantise z sh).2.2 = true ↔ 127 < (z.tdiv (2 ^ sh)).natAbs) := by
  obtain ⟨hcode, hcut⟩ := satTo_eight (z.tdiv (2 ^ sh))
  rw [← tdiv_two_pow] at hcode hcut ⊢
  exact ⟨hcode, rfl, hcut⟩

/-! ### The pin -/

section
variable {s u : State} {st : Nat} {x : Issue} {rest : List Issue}

/-- What the REQUANT of a pod sum makes visible once its level scale is settled. -/
theorem State.requantUpds_settled {p : Pin} {c : Chunk} {e : PMapEnt} {sh : Nat} {z : List Int} (he : u.pricking.payload p.pitch p.chunk = some e)
    (hsh : u.levelShift e.tensor e.unit = some sh) (hz : (u.levelSum p c).map (·.1) = z) (hnull : c.null = false) :
    (u.requantUpds st p (some c) false).1 =
      [.level p.pitch p.chunk (z.map (fun v => (requantise v sh).2.1)) e.tensor e.unit (maxNat (z.map Int.natAbs)),
       .buf st p.buf .ready { c with
        fmt := 2, null := false, result := false, coded := false, prusik := false, step := u.seq.step, elems := z.length, exp := c.exp + sh
        data := packElems 2 (z.map (fun v => (requantise v sh).1)), cord := cordOf 0 c.routed false (z.map (fun v => (requantise v sh).1)) }] := by
  simp only [State.requantUpds, State.requantChunk, hz, he, hsh, hnull, Option.getD_some, Bool.false_and, Bool.false_eq_true, if_false,
    List.map_map, Function.comp_def]

/-- A REQUANT that breaches nothing puts them in flight. -/
theorem State.requantPin_whole (hlive : u.req.replay = false) (hgone : x.gone = false) (hmovers : u.resBusy [.movers st] = false)
    (harray : u.arrayBehind st (elemAdds (u.pitchOf x.pin).owidth (u.pitchOf x.pin).elems) = false) {c : Chunk} (hc : Holds u st x.pin.buf c) :
    ∃ w : State, u.requantPin st x = w.flyHeld st x false (u.requantUpds st x.pin (some c) false).1 ∧ w.pinFrame = u.pinFrame := by
  have hcond : firstRow (u.resBusy [.movers st] || u.arrayBehind st (elemAdds (u.pitchOf x.pin).owidth (u.pitchOf x.pin).elems)) false
      (!u.readable st x.pin.buf) = 0 := by rw [hmovers, harray, readable_of_holds hc]; rfl
  simp only [State.requantPin]
  rw [hcond, State.issuePin_whole hlive hgone, chunkAt_of_holds hc]
  refine ⟨_, rfl, ?_⟩
  rw [if_neg Bool.false_ne_true]
  split
  · split <;> simp
  · simp

theorem exec_requant (h : PinDue s st x rest) (hop : x.pin.op = 4) : exec (.requant st) s = answer s ((Taken s st x).requantPin st x) :=
  congrArg (answer s) (runPin_of_pinDue h (by simp [hop]) _)

end

/-- Settles O28: the pin that is due runs whole and puts its updates in flight; each element is requantised on its own. -/
theorem requants : Obligations.Requants := by
  refine ⟨?_, requantise_eq⟩
  rintro s u st x rest c e sh z h rfl hop hmovers harray hc he hsh hz hnull
  have hexec := exec_requant h hop
  obtain ⟨-, -, -, hgone, hlive⟩ := h
  obtain ⟨w, hw, hframe⟩ := State.requantPin_whole (by simp [hlive]) hgone hmovers harray hc
  rw [hw, State.requantUpds_settled he hsh (z := z) (by rw [hz, State.levelSum, List.map_map]; rfl) hnull] at hexec
  exact next_after _ s _ _ hexec fun t ht => inFlight_flyHeld (hframe.trans (taken_pinFrame ..)) ht

end Sys2Proof.Machine

/-! The rounds of a picot (R49, R132, R145, R178). -/

namespace Sys2Proof.Machine

/-! ### Lists changed at one place -/

/-- A change of one element is not seen by a function that it keeps. -/
theorem map_modify_of_keeps {α β : Type} {f : α → α} {g : α → β} (hg : ∀ a, g (f a) = g a) (l : List α) (i : Nat) :
    (l.modify i f).map g = l.map g := by
  refine List.ext_getElem? fun j => ?_
  simp only [List.getElem?_map, List.getElem?_modify]
  cases l[j]? <;> simp [apply_ite, hg]

theorem getD_map_modify_of_keeps {α β : Type} {f : α → α} {g : α → β} (hg : ∀ a, g (f a) = g a) (l : List α) (i j : Nat) (d : α) :
    g ((l.modify i f).getD j d) = g (l.getD j d) := by
  rw [List.getD_eq_getElem?_getD, List.getD_eq_getElem?_getD, ← Option.getD_map g, ← Option.getD_map g, ← List.getElem?_map,
    ← List.getElem?_map, map_modify_of_keeps hg]

/-- Where the links of the ports stay, so does where they lead. -/
theorem State.upTowards_onPort (s : State) (p : Nat) {f : Port → Port} (hf : ∀ q, (f q).link = q.link) (a d : Nat) :
    (s.onPort p f).upTowards a d = s.upTowards a d := by
  have hlink : ((s.onPort p f).port a).link = (s.port a).link := getD_map_modify_of_keeps hf s.ports p a Port.reset
  simp only [State.upTowards, hlink]
  rfl

/-- A picot pin takes no more than a window of its port. -/
theorem State.takePort_picot (s : State) (st : Nat) {x : Issue} (hop : x.pin.op = 11) :
    ∃ f : Port → Port, (∀ q, (f q).link = q.link) ∧ s.takePort st x = s.onPort x.pin.portq f := by
  unfold State.takePort
  split
  · refine ⟨_, fun _ => ?_, rfl⟩
    rfl
  · refine ⟨id, fun _ => rfl, ?_⟩
    rw [if_neg (by simp [hop]), State.onPort, List.modify_id]

/-! ### Picots in progress -/

/-- The picot of a pitch after one is changed. -/
theorem State.onPicot_picot (s : State) (pitch : Nat) {f : PicotSt → PicotSt} (hf : ∀ p, (f p).pitch = p.pitch) :
    (s.onPicot pitch f).picot pitch = (s.picot pitch).map f := by
  have hkey : ∀ p : PicotSt, ((if p.pitch = pitch then f p else p).pitch = pitch) ↔ p.pitch = pitch := fun p => by split <;> simp_all
  simp only [State.picot, State.onPicot, List.find?_map, Function.comp_def, hkey]
  cases h : s.seq.picots.find? (fun p => decide (p.pitch = pitch)) with
  | none => rfl
  | some p =>
    have hp : p.pitch = pitch := by simpa using List.find?_some h
    simp [hp]

@[simp] theorem State.flyHeld_picot (s : State) (st : Nat) (x : Issue) (void : Bool) (upds : List Upd) (pitch : Nat) :
    (s.flyHeld st x void upds).picot pitch = s.picot pitch := by cases void <;> rfl

theorem After.picot {e t : State} (h : After e t) (pitch : Nat) : t.picot pitch = e.picot pitch := by
  rw [State.picot, h.seq]
  rfl

/-! ### The L0 round (R49, R132) -/

section
variable {s u : State} {st : Nat} {x : Issue} {rest : List Issue}

/-- A claim changes nothing that a picot loads. -/
theorem State.claim_picotLoad (s : State) (sl b n : Nat) (c : Chunk) (pitch : Nat) : (s.claim sl b n c).picotLoad pitch = s.picotLoad pitch := by
  have hmax (t i : Nat) : (s.claim sl b n c).slices.map (fun q => (q.tensors.get default t).localMax.get 0 i) =
      s.slices.map (fun q => (q.tensors.get default t).localMax.get 0 i) := by
    refine map_modify_of_keeps (fun _ => ?_) s.slices sl
    rfl
  simp only [State.picotLoad, hmax]
  rfl

/-- The first L0 round of a pitch takes the slices' values into a new picot. -/
theorem State.startPicot_new {p : Pin} (h : u.picot p.pitch = none) (sl : Nat) (void : Bool) :
    u.startPicot sl p void = { u with seq := { u.seq with picots := u.seq.picots ++
      [⟨p.pitch, sl, p.buf, 0, 0, u.picotLoad p.pitch, u.picotLoad p.pitch, void, [], [], void, false⟩] } } := by
  simp [State.startPicot, h]

@[simp] theorem State.startPicot_pinFrame (s : State) (sl : Nat) (p : Pin) (void : Bool) : (s.startPicot sl p void).pinFrame = s.pinFrame := by
  unfold State.startPicot; split <;> rfl

/-- Which is then the picot of the pitch. -/
theorem State.startPicot_picot {p : Pin} (h : u.picot p.pitch = none) (sl : Nat) (void : Bool) : (u.startPicot sl p void).picot p.pitch =
    some ⟨p.pitch, sl, p.buf, 0, 0, u.picotLoad p.pitch, u.picotLoad p.pitch, void, [], [], void, false⟩ := by
  rw [State.startPicot_new h]
  simp only [State.picot] at h
  simp [State.picot, h]

/-- An L0 round whose buffer's unit is free runs whole. -/
theorem State.picotL0RoundPin_whole (hlive : u.req.replay = false) (hgone : x.gone = false) (hroom : (u.slice st).unitsFree x.pin.buf 1 = true) :
    u.picotL0RoundPin st x = ((u.claim st x.pin.buf 1 default).startPicot st x.pin false).flyHeld st x false [.picot x.pin.pitch 0] := by
  simp only [State.picotL0RoundPin, hroom]
  exact State.issuePin_whole hlive hgone st _

theorem exec_picotL0Round (h : PinDue s st x rest) (hop : x.pin.op = 11) (hport : x.pin.portq = 36) :
    exec (.picotL0Round st) s = answer s ((Taken s st x).picotL0RoundPin st x) :=
  congrArg (answer s) (runPin_of_pinDue h (by simp [hop, hport]) _)

/-! ### A package round (R145, R178) -/

/-- The picot in round `n`: its vector is fixed as the base, and the sources' vectors are expected. -/
def PicotSt.inRound (q : PicotSt) (n : Nat) (sources : List Nat) : PicotSt :=
  { q with round := n, base := q.vals, expect := sources.map (fun r => (n, r)) }

/-- Nothing expected, nothing lost. -/
theorem State.judgePicot_nil {pitch : Nat} {q : PicotSt} (hq : u.picot pitch = some q) (he : q.expect = []) (upto : Nat) :
    u.judgePicot pitch upto = u.onPicot pitch (fun p => { p with dev := p.dev || false, expect := p.expect.filter (fun e => e.1 > upto) }) := by
  simp [State.judgePicot, hq, he]

/-- The state with other picots in progress. -/
def State.withPicots (u : State) (ps : List PicotSt) : State := { u with seq := { u.seq with picots := ps } }

@[simp] theorem State.withPicots_pinFrame (u : State) (ps : List PicotSt) : (u.withPicots ps).pinFrame = u.pinFrame := rfl

/-- The packets of a round's pin depend on the picot of its pitch alone. -/
theorem State.picotPackets_withPicots (u : State) {p : Pin} {ps qs : List PicotSt}
    (h : (u.withPicots ps).picot p.pitch = (u.withPicots qs).picot p.pitch) :
    (u.withPicots ps).picotPackets p = (u.withPicots qs).picotPackets p := by
  simp only [State.picotPackets, h]
  rfl

/-- A package round that begins fixes its base and expects its sources' vectors; nothing but the picots changes. -/
theorem State.openRound_begins {p : Pin} {q : PicotSt} (hq : u.picot p.pitch = some q) (hround : q.round + 1 = p.chunk) (he : q.expect = [])
    (hdev : q.dev = false) (hvoid : q.void = false) : ∃ ps, u.openRound p false = u.withPicots ps ∧
      (u.withPicots ps).picot p.pitch = some (q.inRound p.chunk (u.picotSources p.pitch p.chunk)) := by
  have hlt : q.round < p.chunk := by omega
  have hopen : u.openRound p false = u.withPicots (u.openRound p false).seq.picots := by
    rw [State.openRound, State.judgePicot_nil hq he]
    rfl
  refine ⟨_, hopen, ?_⟩
  rw [← hopen, State.openRound, State.judgePicot_nil hq he, State.onPicot_picot, State.onPicot_picot, hq]
  · simp only [PicotSt.inRound, Option.map_some, he, hdev, hvoid, hlt, List.filter_nil, List.nil_append, Bool.or_false,
      Bool.false_eq_true, if_true, if_false]
    rfl
  · exact fun _ => rfl
  · intro p
    dsimp only
    split <;> rfl

/-- The packets of a round go out 25 ticks after its pin, where the port is up; the round lands with the pin (Table 5-6). -/
def State.sendRound (w : State) (st : Nat) (x : Issue) (first : List Byte) (more : List (List Byte)) : State :=
  State.flyHeld (if w.upTowards x.pin.portq (bytesAt first 10 2) then w.fly st x.side 25 false [.send x.pin.portq (first :: more)] else w)
    st x false [.picot x.pin.pitch x.pin.chunk]

theorem State.sendRound_flights (w : State) (st : Nat) (x : Issue) (first : List Byte) (more : List (List Byte)) :
    (w.sendRound st x first more).seq.flights = w.seq.flights ++
      (if w.upTowards x.pin.portq (bytesAt first 10 2) then
        [⟨w.count + 25, st, x.sec, x.index, x.side.pin, false, w.count, [.send x.pin.portq (first :: more)]⟩] else []) ++
      [⟨w.count + w.latency st x.pin, st, x.sec, x.index, x.pin, false, w.count, [.picot x.pin.pitch x.pin.chunk]⟩] := by
  unfold State.sendRound
  split
  · rfl
  · rw [List.append_nil]; rfl

theorem State.sendRound_picot (w : State) (st : Nat) (x : Issue) (first : List Byte) (more : List (List Byte)) (pitch : Nat) :
    (w.sendRound st x first more).picot pitch = w.picot pitch := by
  unfold State.sendRound
  split <;> rfl

/-- A package round that breaches nothing opens its round, takes its port and sends. -/
theorem State.picotPackageRoundPin_whole (hlive : u.req.replay = false) (hgone : x.gone = false) (hbusy : u.portBusy st x = false)
    (hready : u.picotReady st x.pin = true) {w : State} (hw : (u.openRound x.pin false).takePort st x = w) {first : List Byte}
    {more : List (List Byte)} (hpk : w.picotPackets x.pin = first :: more) : u.picotPackageRoundPin st x = w.sendRound st x first more := by
  simp only [State.picotPackageRoundPin, hbusy, hready]
  refine (State.issuePin_whole hlive hgone st _).trans ?_
  rw [if_neg Bool.false_ne_true, hw, hpk]
  rfl

theorem exec_picotPackageRound (h : PinDue s st x rest) (hop : x.pin.op = 11) (hport : x.pin.portq ≠ 36) :
    exec (.picotPackageRound st) s = answer s ((Taken s st x).picotPackageRoundPin st x) :=
  congrArg (answer s) (runPin_of_pinDue h (by simp [hop, hport]) _)

end

/-- Settles O34: each pin runs whole; the L0 round adds the picot, and a package round changes it and sends. -/
theorem picotRounds : Obligations.PicotRounds := by
  rintro s u st x rest h rfl hop
  refine ⟨fun hport hroom hnone => ?_, fun q b more hport hbusy hq hlanded hround hvoid hdev hread he hpk => ?_⟩
  · have hexec := exec_picotL0Round h hop hport
    obtain ⟨-, -, -, hgone, hlive⟩ := h
    rw [State.picotL0RoundPin_whole (by simp [hlive]) hgone hroom] at hexec
    have hclaim : ((Taken s st x).claim st x.pin.buf 1 default).picot x.pin.pitch = none := hnone
    have hnew := State.startPicot_picot hclaim st false
    rw [State.claim_picotLoad] at hnew
    refine next_after _ s _ _ hexec fun t ht => ⟨inFlight_flyHeld (by simp) ht, ?_⟩
    rw [ht.picot, State.flyHeld_picot, hnew]
  · have hexec := exec_picotPackageRound h hop hport
    obtain ⟨-, -, -, hgone, hlive⟩ := h
    obtain ⟨ps, hopen, hpicot⟩ := State.openRound_begins hq hround he hdev hvoid
    obtain ⟨f, hf, htake⟩ := ((Taken s st x).withPicots ps).takePort_picot st hop
    have hready : (Taken s st x).picotReady st x.pin = true := by simp [State.picotReady, hq, hlanded, hread]
    have hpackets : (((Taken s st x).withPicots ps).onPort x.pin.portq f).picotPackets x.pin = b :: more := by
      rw [← hpk]
      refine State.picotPackets_withPicots _ (hpicot.trans ?_)
      exact ((State.onPicot_picot _ x.pin.pitch (f := (·.inRound _ _)) fun _ => rfl).trans (congrArg _ hq)).symm
    rw [State.picotPackageRoundPin_whole (by simp [hlive]) hgone hbusy hready ((congrArg (·.takePort st x) hopen).trans htake) hpackets] at hexec
    have hframe : (((Taken s st x).withPicots ps).onPort x.pin.portq f).pinFrame = s.pinFrame := by simp
    refine next_after _ s _ _ hexec fun t ht => ⟨?_, ?_⟩
    · rw [ht.picot, State.sendRound_picot]
      exact hpicot
    · have hflights : t.seq.flights = _ := (congrArg PinFrame.flights ht.pinFrame).trans (State.sendRound_flights ..)
      rw [hflights, State.latency_congr hframe, State.count_congr hframe, State.upTowards_onPort _ _ hf, State.flights_congr hframe]
      rfl

end Sys2Proof.Machine

/-! Pins at their ticks (R172, R432): what a flight leaves, and the rows of pins outside RUNNING. -/

namespace Sys2Proof.Machine

/-! ### A pin in flight -/

section
variable (s : State) (st : Nat) (x : Issue)

/-- A pin that flies touches the flights and the holds alone. -/
theorem State.flyHeld_frame (void : Bool) (upds : List Upd) :
    { (s.flyHeld st x void upds).seq with flights := s.seq.flights, holds := s.seq.holds } = s.seq ∧
    { s.flyHeld st x void upds with seq := s.seq } = s := by
  cases void <;> exact ⟨rfl, rfl⟩

theorem State.flyHeld_flights (void : Bool) (upds : List Upd) : (s.flyHeld st x void upds).seq.flights =
    s.seq.flights ++ [⟨s.belay.count + s.latency st x.pin, st, x.sec, x.index, x.pin, void, s.belay.count, upds⟩] :=
  congrArg PinFrame.flights (s.flyHeld_pinFrame st x void upds)

@[simp] theorem State.flyHeld_pending (void : Bool) (upds : List Upd) : (s.flyHeld st x void upds).pending = s.pending := by
  cases void <;> rfl

/-- A unit is busy from the tick at which it is taken. -/
theorem State.resBusy_occupy {rs : List Res} {r : Res} (hr : r ∈ rs) {stop : Nat} (hstop : s.count < stop) :
    (s.occupy rs s.count stop).resBusy [r] = true := by
  have hheld : (⟨r, s.count, stop⟩ : Hold) ∈ (s.occupy rs s.count stop).seq.holds :=
    List.mem_append_right _ (List.mem_map.2 ⟨r, hr, rfl⟩)
  have hcount : (s.occupy rs s.count stop).count = s.count := rfl
  exact List.any_eq_true.2 ⟨_, hheld, by simp [hcount, hstop]⟩

/-- A pin that is not void holds its units for its latency. -/
theorem State.flyHeld_resBusy (upds : List Upd) {r : Res} (hr : r ∈ pinRes st x.pin) (hlat : 0 < s.latency st x.pin) :
    (s.flyHeld st x false upds).resBusy [r] = true :=
  s.resBusy_occupy hr (Nat.lt_add_of_pos_right hlat)

end

/-! ### Rows of pins outside RUNNING -/

/-- The rows that execute a pin of stream `st`. -/
def pinRows (st : Nat) : List Instr :=
  [.nop st, .openPin st, .gate st, .seal st, .sendData st, .sendForwardWindow st, .sendPrusikAnswerWindow st, .sendArmGroundQueue st,
    .memorySourcedSend st, .expect st, .reduce st, .requant st, .deliverToStation st, .deliverToHbm st, .deliverToComputeScratch st,
    .deliverToHeatTable st, .deliverCopy st, .select st, .selectWide st, .heat st, .heatSettle st, .survey st, .surveyCarried st,
    .encode st, .decode st, .picotL0Round st, .picotPackageRound st, .routePass st, .forwardSend st, .backwardSend st, .returnPin st,
    .update st]

/-- Each of them runs the front pin of the stream, where it is of the row's kind. -/
theorem exec_pinRows (s : State) (st : Nat) : ∀ c ∈ pinRows st, ∃ kind run, exec c s = answer s (s.runPin st kind run) := by
  simp only [pinRows, List.forall_mem_cons, List.not_mem_nil, false_imp_iff, implies_true, and_true]
  and_intros
  all_goals exact ⟨_, _, rfl⟩

/-- Outside RUNNING a stream runs no pin (R432). -/
theorem State.runPin_idle {s : State} (h : s.power.st ≠ .running) (st : Nat) (kind : Pin → Bool) (run : Issue → State → State) :
    s.runPin st kind run = s :=
  s.runPin_none st kind run (s.frontPin_idle st kind (by simp [State.isRunning, h]))

/-- Settles O22: a flight is one entry of the flights and the holds of its units; outside RUNNING no row finds a pin to run. -/
theorem pinsAtTheirTicks : Obligations.PinsAtTheirTicks := by
  refine ⟨fun s st x void upds => ?_, fun s st hinv hst c hc => ?_⟩
  · obtain ⟨hseq, hstate⟩ := s.flyHeld_frame st x void upds
    exact ⟨s.flyHeld_flights st x void upds, hseq, hstate, fun r hr hlat => s.flyHeld_resBusy st x upds hr hlat⟩
  · obtain ⟨kind, run, hexec⟩ := exec_pinRows s st c hc
    rw [hexec, State.runPin_idle hst]
    exact answer_self s hinv

end Sys2Proof.Machine

/-! EXPECT (R176, R178): what a pin finds in a buffer, and what it opens. -/

namespace Sys2Proof.Machine

/-! ### A buffer judged before it is read -/

section
variable {s : State} {sl u : Nat}

/-- A buffer that stands is not judged. -/
theorem State.judge_stands {b : Buf} (hb : s.buf sl u = some b) (hst : b.st ≠ .filling) : s.judge sl u = s := by
  simp [State.judge, hb, hst]

/-- Nor is there a picot to judge where all that stand on the buffer have ended. -/
theorem State.readPicot_ended (h : ∀ q ∈ s.seq.picots, q.done = true ∨ q.slice ≠ sl ∨ q.buf ≠ u) : s.readPicot sl u = s := by
  have hnone : s.seq.picots.find? (fun p => p.slice = sl ∧ p.buf = u ∧ !p.done) = none :=
    List.find?_eq_none.2 fun q hq => by
      obtain hdone | hslice | hbuf := h q hq
      · simp [hdone]
      · simp [hslice]
      · simp [hbuf]
  simp only [State.readPicot, hnone]

/-- So a pin that reads a buffer which holds a chunk finds it as it is. -/
theorem State.judgeRead_of_holds {c : Chunk} (h : Holds s sl u c) : s.judgeRead sl u = s := by
  obtain ⟨⟨b, hb, hready, -⟩, hpicots⟩ := h
  rw [State.judgeRead, State.judge_stands hb (by simp [hready]), State.readPicot_ended hpicots]

end

/-! ### Slices kept -/

/-- A change that keeps the slice keeps the state. -/
theorem State.onSlice_self {s : State} {i : Nat} {f : Slice → Slice} (h : f (s.slice i) = s.slice i) : s.onSlice i f = s := by
  have hslices : s.slices.modify i f = s.slices := by
    refine List.ext_getElem? fun j => ?_
    rw [List.getElem?_modify]
    cases hj : s.slices[j]? with
    | none => rfl
    | some x =>
      by_cases hij : i = j
      · subst hij
        have hx : s.slice i = x := by simp [State.slice, List.getD_eq_getElem?_getD, hj]
        rw [hx] at h
        simp [h]
      · simp [hij]
  rw [State.onSlice, hslices]

/-- A slice with an empty carry store has nothing to hand to an EXPECT (R152). -/
theorem State.takeCarried_nil {s : State} {sl : Nat} (h : (s.slice sl).carry = []) (pitch chunk : Nat) :
    s.takeCarried sl pitch chunk = (s, []) := by
  have hfilter : (s.slice sl).carry.filter (fun c => ¬(c.pitch = pitch ∧ c.chunk = chunk)) = (s.slice sl).carry := by rw [h]; rfl
  have hkept : s.onSlice sl (fun x => { x with carry := x.carry.filter (fun c => ¬(c.pitch = pitch ∧ c.chunk = chunk)) }) = s :=
    State.onSlice_self (congrArg (fun l => { s.slice sl with carry := l }) hfilter)
  simp only [State.takeCarried, hkept, h, List.filter_nil, List.foldl_nil]

/-- A claim leaves the carry store. -/
theorem State.claim_carry (s : State) (sl u n : Nat) (c : Chunk) (i : Nat) : ((s.claim sl u n c).slice i).carry = (s.slice i).carry := by
  refine getD_map_modify_of_keeps (g := Slice.carry) (fun _ => ?_) s.slices sl i Slice.reset
  rfl

/-! ### The pin -/

section
variable {s u : State} {st : Nat} {x : Issue} {rest : List Issue}

/-- What the first EXPECT of a chunk opens, with the own contribution that it takes. -/
def firstOpening (u : State) (p : Pin) (own : Option Chunk) : Opening :=
  { pitch := p.pitch, chunk := p.chunk, buf := p.buf, step := u.seq.step, ports := [p.portq], coded := p.coded
    scatter := (u.pitchOf p).kind = 0, own := own, ownMissing := false, loaded := p.arg ≠ noBuffer, inputs := [], fails := []
    slots := [], void := false, reduced := false, final := false }

/-- A further EXPECT of an open chunk adds its port (R127). -/
theorem State.expectPin_further (hlive : u.req.replay = false) (hgone : x.gone = false) {q : Opening}
    (hopen : u.openOf st x.pin.pitch x.pin.chunk = some q) : u.expectPin st x =
      (u.onOpen st x.pin.pitch x.pin.chunk (fun q => { q with ports := q.ports ++ [x.pin.portq] })).fly st x 1 false (releaseUpd st x.pin) := by
  simp only [State.expectPin, hopen]
  exact State.issuePin_whole hlive hgone st _

/-- The first EXPECT of a chunk that is not scattered, with no contribution of its own. -/
theorem State.expectPin_whole (hlive : u.req.replay = false) (hgone : x.gone = false) (hopen : u.openOf st x.pin.pitch x.pin.chunk = none)
    (hroom : (u.slice st).unitsFree x.pin.buf (u.pitchOf x.pin).expectUnits = true) (harg : x.pin.arg = noBuffer)
    (harray : u.arrayBehind st 0 = false) (hkind : (u.pitchOf x.pin).kind ≠ 0) : u.expectPin st x =
      ((u.claim st x.pin.buf (u.pitchOf x.pin).expectUnits default).putOpen st (firstOpening u x.pin none)).flyHeld st x false
        (releaseUpd st x.pin) := by
  have hcond : firstRow (u.arrayBehind st 0) (!(u.slice st).unitsFree x.pin.buf (u.pitchOf x.pin).expectUnits) false = 0 := by
    rw [harray, hroom]; rfl
  have hissue : u.expectPin st x = u.openChunk st x := by
    simp only [State.expectPin, hopen, harg, if_true, ne_eq, not_true_eq_false, decide_false, Bool.false_and, hcond]
    exact State.issuePin_whole hlive hgone st _
  rw [hissue]
  simp [State.openChunk, harg, hkind, firstOpening]
  rfl

/-- The first EXPECT of a scatter chunk takes the chunk of its ARG buffer as its own contribution. -/
theorem State.expectPin_scatter (hlive : u.req.replay = false) (hgone : x.gone = false) (hopen : u.openOf st x.pin.pitch x.pin.chunk = none)
    (hroom : (u.slice st).unitsFree x.pin.buf (u.pitchOf x.pin).expectUnits = true) (hcarry : (u.slice st).carry = [])
    (harg : x.pin.arg ≠ noBuffer) (harray : u.arrayBehind st (elemAdds (u.pitchOf x.pin).owidth (u.pitchOf x.pin).elems) = false)
    (hkind : (u.pitchOf x.pin).kind = 0) {c : Chunk} (hc : Holds u st x.pin.arg c) (hnull : c.null = false) : u.expectPin st x =
      (((u.addWork st (elemAdds (u.pitchOf x.pin).owidth c.elems)).claim st x.pin.buf (u.pitchOf x.pin).expectUnits c).putOpen st
        (firstOpening u x.pin (some c))).flyHeld st x false (.buf st x.pin.buf .ready c :: releaseUpd st x.pin) := by
  have hcond : firstRow (u.arrayBehind st (elemAdds (u.pitchOf x.pin).owidth (u.pitchOf x.pin).elems))
      (!(u.slice st).unitsFree x.pin.buf (u.pitchOf x.pin).expectUnits) (decide (x.pin.arg ≠ noBuffer) && !u.readable st x.pin.arg) = 0 := by
    rw [harray, hroom, readable_of_holds hc, Bool.not_true, Bool.and_false]; rfl
  have hissue : u.expectPin st x = u.openChunk st x := by
    simp only [State.expectPin, hopen, harg, if_false, State.judgeRead_of_holds hc, hcond]
    exact State.issuePin_whole hlive hgone st _
  rw [hissue]
  have hclaimed : (((u.addWork st (elemAdds (u.pitchOf x.pin).owidth c.elems)).claim st x.pin.buf (u.pitchOf x.pin).expectUnits c).slice st).carry =
      [] := (State.claim_carry ..).trans hcarry
  simp [State.openChunk, harg, hkind, chunkAt_of_holds hc, hnull, State.takeCarried_nil hclaimed, firstOpening]
  rfl

theorem exec_expect (h : PinDue s st x rest) (hop : x.pin.op = 2) : exec (.expect st) s = answer s ((Taken s st x).expectPin st x) :=
  congrArg (answer s) (runPin_of_pinDue h (by simp [hop]) _)

end

/-- Settles O25: the pin that is due runs whole; each of its three forms leaves the queue of commands. -/
theorem expects : Obligations.Expects := by
  rintro s u st x rest r o h rfl hop rfl rfl
  have hexec := exec_expect h hop
  obtain ⟨-, -, -, hgone, hlive⟩ := h
  have hlive : (Taken s st x).req.replay = false := by simp [hlive]
  refine ⟨fun q hq => ?_, fun hopen hroom hcarry => ⟨fun harg harray hkind => ?_, fun c harg harray hkind hc hnull => ?_⟩⟩
  · rw [State.expectPin_further hlive hgone hq] at hexec
    exact next_settle _ s _ hexec (taken_pending s st x)
  · rw [State.expectPin_whole hlive hgone hopen hroom harg harray hkind, firstOpening] at hexec
    simp only [harg, ne_eq, not_true_eq_false, decide_false] at hexec
    exact next_settle _ s _ hexec ((State.flyHeld_pending ..).trans (taken_pending s st x))
  · rw [State.expectPin_scatter hlive hgone hopen hroom hcarry harg harray hkind hc hnull, firstOpening] at hexec
    simp only [harg, ne_eq, not_false_eq_true, decide_true] at hexec
    exact next_settle _ s _ hexec ((State.flyHeld_pending ..).trans (taken_pending s st x))

end Sys2Proof.Machine

/-! The queue of commands: what becomes visible when a pin completes leaves it as it is (R172). -/

namespace Sys2Proof.Machine

/-- A fold whose steps leave the queue leaves it. -/
theorem foldl_pending {α : Type} {f : State → α → State} (h : ∀ s x, (f s x).pending = s.pending) (l : List α) (s : State) :
    (l.foldl f s).pending = s.pending :=
  foldl_keeps State.pending f h l s

section
variable (s : State)

/-! ### Slices, contexts, buffers -/

@[simp] theorem State.setBuf_pending (sl u : Nat) (st : BufSt) (c : Chunk) : (s.setBuf sl u st c).pending = s.pending := by
  unfold State.setBuf; split <;> rfl

@[simp] theorem State.freeBuf_pending (sl u : Nat) : (s.freeBuf sl u).pending = s.pending := by
  unfold State.freeBuf
  split
  · rfl
  · simp only [apply_ite State.pending, State.onSlice_pending, ite_self]

@[simp] theorem State.onTensor_pending (sl t : Nat) (f : TensorSt → TensorSt) : (s.onTensor sl t f).pending = s.pending := rfl

@[simp] theorem State.onCtx_pending (sl i : Nat) (f : CtxSt → CtxSt) : (s.onCtx sl i f).pending = s.pending := rfl

@[simp] theorem State.onOpen_pending (sl pitch chunk : Nat) (f : Opening → Opening) : (s.onOpen sl pitch chunk f).pending = s.pending := rfl

@[simp] theorem State.refuseInstall_pending (sl i n : Nat) : (s.refuseInstall sl i n).pending = s.pending := by
  rw [State.refuseInstall, State.bump_pending, State.raise_pending]

@[simp] theorem State.install_pending (sl i : Nat) (rec_ : Option (List Byte)) : (s.install sl i rec_).pending = s.pending := by
  unfold State.install
  split
  · exact State.bump_pending ..
  · split
    · exact s.refuseInstall_pending ..
    · split
      · exact s.refuseInstall_pending ..
      · rfl

@[simp] theorem State.lateCairn_pending (sl t : Nat) : (s.lateCairn sl t).pending = s.pending := by
  simp only [State.lateCairn, apply_ite State.pending, State.onTensor_pending, State.raise_pending, ite_self]

/-! ### Residuals, stations, ports -/

@[simp] theorem State.setResidual_pending (t b : Nat) (xs : List Nat) : (s.setResidual t b xs).pending = s.pending := rfl

@[simp] theorem State.hbmError_pending (src addr : Nat) : (s.hbmError src addr).pending = s.pending := s.raise_pending ..

@[simp] theorem State.addResidual_pending (sl t b : Nat) (g : List Nat) : (s.addResidual sl t b g).pending = s.pending := by
  simp only [State.addResidual, State.setResidual_pending, State.bump_pending, apply_ite State.pending, State.hbmError_pending, ite_self]

@[simp] theorem State.landResidual_pending (sl t b : Nat) (data : List Nat) : (s.landResidual sl t b data).pending = s.pending := by
  simp only [State.landResidual, foldl_pending, State.addResidual_pending, State.setResidual_pending, State.onSlice_pending, implies_true]

@[simp] theorem State.landLevel_pending (p k : Nat) (l : List Int) (t u mz : Nat) : (s.landLevel p k l t u mz).pending = s.pending := rfl

@[simp] theorem State.writeSlot_pending (k n : Nat) (x : StSlot) : (s.writeSlot k n x).pending = s.pending := by
  simp only [State.writeSlot, State.onStation_pending, apply_ite State.pending, State.bump_pending, ite_self]

@[simp] theorem State.addNorm_pending (k set which t : Nat) (units : Int) : (s.addNorm k set which t units).pending = s.pending := by
  simp only [State.addNorm, apply_ite State.pending, State.dev_pending, State.bump_pending, State.onStation_pending, ite_self]

@[simp] theorem State.sendFrame_pending (n w : Nat) (pkt : List Byte) : (s.sendFrame n w pkt).pending = s.pending := by
  simp only [State.sendFrame, apply_ite State.pending, State.onPort_pending, State.onPath_pending, ite_self]

@[simp] theorem State.transmit_pending (p : Nat) (pkts : List (List Byte)) : (s.transmit p pkts).pending = s.pending := by
  have hframes (l : List (List Byte)) : (l.foldl (fun s b => s.sendFrame (p - 32) (packetW b) b) s).pending = s.pending :=
    foldl_keeps State.pending _ (fun s b => s.sendFrame_pending (p - 32) (packetW b) b) l s
  unfold State.transmit
  split
  · rfl
  · simp only [apply_ite State.pending, State.onPort_pending, hframes, ite_self]

/-! ### Picots -/

@[simp] theorem State.onPicot_pending (pitch : Nat) (f : PicotSt → PicotSt) : (s.onPicot pitch f).pending = s.pending := rfl

@[simp] theorem State.showPicot_pending (pitch : Nat) : (s.showPicot pitch).pending = s.pending := by
  unfold State.showPicot
  split
  · rfl
  · exact s.setBuf_pending ..

@[simp] theorem State.takeDecision_pending (d : Decision) : (s.takeDecision d).pending = s.pending := by
  simp only [State.takeDecision, apply_ite State.pending, State.raise_pending, State.dev_pending, State.bump_pending,
    State.setReg_pending, State.onRec_pending, ite_self]

@[simp] theorem State.decideIfDue_pending : s.decideIfDue.pending = s.pending := by
  simp only [State.decideIfDue, apply_ite State.pending, State.takeDecision_pending, ite_self]

@[simp] theorem State.recordMax_pending (p : PicotSt) : (s.recordMax p).pending = s.pending := by
  unfold State.recordMax
  split
  · rfl
  · refine foldl_keeps State.pending _ (fun s i => ?_) _ _
    dsimp only
    split <;> rfl

@[simp] theorem State.endPicot_pending (pitch : Nat) : (s.endPicot pitch).pending = s.pending := by
  unfold State.endPicot
  split
  · rfl
  · simp only [apply_ite State.pending, State.decideIfDue_pending, State.recordMax_pending, State.showPicot_pending,
      State.onPicot_pending, ite_self]

@[simp] theorem State.landPicot_pending (pitch round : Nat) : (s.landPicot pitch round).pending = s.pending := by
  have hend (u : State) : (u.endPicotIfWhole pitch).pending = u.pending := by
    unfold State.endPicotIfWhole
    split
    · rfl
    · simp only [apply_ite State.pending, State.endPicot_pending, ite_self]
  rw [State.landPicot, hend, State.showPicot_pending, State.onPicot_pending]

/-! ### Ground queues -/

@[simp] theorem State.queueIrq_pending (q : Nat) : (s.queueIrq q).pending = s.pending := by
  unfold State.queueIrq; split <;> simp

@[simp] theorem State.completeEntry_pending (q status foff upstat : Nat) : (s.completeEntry q status foff upstat).pending = s.pending := by
  simp only [State.completeEntry, State.queueCount, apply_ite State.pending, State.queueIrq_pending, State.bump_pending, State.onGround_pending,
    State.hbmWrite_pending, ite_self]

@[simp] theorem State.completeDone_pending (q fuel : Nat) : (s.completeDone q fuel).pending = s.pending := by
  induction fuel generalizing s with
  | zero => rfl
  | succ fuel ih =>
    unfold State.completeDone
    split
    · simp only [apply_ite State.pending, ih, State.completeEntry_pending, ite_self]
    · rfl

@[simp] theorem State.completeAll_pending (q fuel : Nat) : (s.completeAll q fuel).pending = s.pending := by
  induction fuel generalizing s with
  | zero => rfl
  | succ fuel ih =>
    unfold State.completeAll
    dsimp only
    split
    · rfl
    · rw [ih]
      split
      · split
        · exact s.completeEntry_pending ..
        · simp only [apply_ite State.pending, State.completeEntry_pending, ite_self]
      · exact s.completeEntry_pending ..

@[simp] theorem State.settleQueue_pending (q : Nat) : (s.settleQueue q).pending = s.pending := by
  unfold State.settleQueue
  dsimp only
  split <;> simp only [apply_ite State.pending, State.onGround_pending, State.completeDone_pending, State.completeAll_pending, ite_self]

@[simp] theorem State.releaseWait_pending (q : Nat) : (s.releaseWait q).pending = s.pending := by
  unfold State.releaseWait
  dsimp only
  split
  · rfl
  · split
    · rfl
    · simp only [apply_ite State.pending, State.settleQueue_pending, State.onGround_pending, ite_self]

@[simp] theorem State.releaseWaits_pending (fuel : Nat) : (s.releaseWaits fuel).pending = s.pending := by
  induction fuel generalizing s with
  | zero => rfl
  | succ fuel ih =>
    have hround (l : List Nat) : (l.foldl State.releaseWait s).pending = s.pending :=
      foldl_keeps State.pending _ (fun s q => s.releaseWait_pending q) l s
    simp only [State.releaseWaits, apply_ite State.pending, ih, hround, ite_self]

@[simp] theorem State.queueChanged_pending (q : Nat) : (s.queueChanged q).pending = s.pending := by
  rw [State.queueChanged, State.releaseWaits_pending, State.settleQueue_pending]

@[simp] theorem State.ignoredEvent_pending : s.ignoredEvent.pending = s.pending := s.bump_pending ..

@[simp] theorem State.queueEvent_pending (q : Nat) (ev : QEvent) : (s.queueEvent q ev).pending = s.pending := by
  unfold State.queueEvent
  dsimp only
  repeat' split
  all_goals simp only [State.onGround_pending, State.queueChanged_pending, State.completeAll_pending, State.completeEntry_pending,
    State.ignoredEvent_pending]

/-! ### Tokens -/

@[simp] theorem State.setChoice_pending (l mb token j : Nat) (fwd : Bool) (st : Nat) : (s.setChoice l mb token j fwd st).pending = s.pending := rfl

@[simp] theorem State.tokenCount_pending (i l n : Nat) : (s.tokenCount i l n).pending = s.pending := s.bump_pending ..

@[simp] theorem State.tally_pending (kind sl pitch n : Nat) : (s.tally kind sl pitch n).pending = s.pending := rfl

@[simp] theorem State.logTokens_pending (kind l mb b : Nat) (valid : Bool) (bits : List Bool) :
    (s.logTokens kind l mb b valid bits).pending = s.pending := rfl

@[simp] theorem State.tokenFailed_pending (sl pitch src l : Nat) (f : ChunkFault) : (s.tokenFailed sl pitch src l f).pending = s.pending := by
  cases f with
  | malformed => exact (State.bump_pending ..).trans (s.tokenCount_pending 11 l 1)
  | tableGen => exact (State.bump_pending ..).trans (s.tokenCount_pending 11 l 1)
  | check => exact s.tokenCount_pending 11 l 1
  | scale => exact s.tokenCount_pending 11 l 1

@[simp] theorem State.closeLanding_pending (pitch : Nat) : (s.closeLanding pitch).pending = s.pending := by
  unfold State.closeLanding
  split
  · rfl
  · refine (foldl_pending (fun s w => ?_) _ _).trans rfl
    have hwords (u : State) (ns ms : List Nat) (g : State → Nat → State → Nat → State) (hg : ∀ v j u r, (g v j u r).pending = u.pending) :
        (ns.foldl (fun v j => ms.foldl (g v j) v) u).pending = u.pending :=
      foldl_pending (fun v j => foldl_pending (hg v j) ms v) ns u
    have hitems (u : State) (ns : List Nat) (k l m : Nat) (v : Nat → Bool) (b : State → Nat → List Bool) :
        (ns.foldl (fun u r => u.logTokens k l m r (v r) (b u r)) u).pending = u.pending :=
      foldl_pending (fun u r => u.logTokens_pending k l m r (v r) (b u r)) ns u
    have hvisits (u : State) (ns : List Nat) (g : State → Nat → TokSt) :
        (ns.foldl (fun u j => { u with tok := g u j }) u).pending = u.pending := by
      refine foldl_pending (fun _ _ => ?_) ns u
      rfl
    dsimp only
    split
    · rw [hvisits, hitems, State.tally_pending, State.tokenCount_pending, hwords]
      exact fun _ _ _ _ => rfl
    · rw [hitems, State.tally_pending, State.tokenCount_pending, hwords]
      exact fun _ _ _ _ => rfl

@[simp] theorem State.landToken_pending (pitch : Nat) (whole : List Byte) : (s.landToken pitch whole).pending = s.pending := by
  have hcounts (u : State) (p : Nat) : (u.closeIfAllCounts p).pending = u.pending := by
    simp only [State.closeIfAllCounts, apply_ite State.pending, State.closeLanding_pending, ite_self]
  unfold State.landToken
  dsimp only
  repeat' split
  all_goals simp only [hcounts, State.tokenCount_pending, State.tokenFailed_pending, State.hbmWrite_pending]

@[simp] theorem State.landReturn_pending (pitch : Nat) (whole : List Byte) : (s.landReturn pitch whole).pending = s.pending := by
  unfold State.landReturn
  dsimp only
  repeat' split
  all_goals simp only [State.setChoice_pending, State.tokenCount_pending, State.tokenFailed_pending, State.hbmWrite_pending]

@[simp] theorem State.tokenChunkIn_pending (pitch : Nat) (whole : List Byte) : (s.tokenChunkIn pitch whole).pending = s.pending := by
  simp only [State.tokenChunkIn, apply_ite State.pending, State.landReturn_pending, State.landToken_pending, ite_self]

/-! ### Chunks -/

@[simp] theorem State.slotDev_pending (sl cause detail pitch chunk rank value : Nat) :
    (s.slotDev sl cause detail pitch chunk rank value).pending = s.pending := by
  simp only [State.slotDev, State.missSlot, State.dev_pending, apply_ite State.pending, ite_self]

@[simp] theorem State.chunkFailed_pending (sl pitch chunk rank : Nat) (f : ChunkFault) :
    (s.chunkFailed sl pitch chunk rank f).pending = s.pending := by
  cases f <;> simp [State.chunkFailed]

@[simp] theorem State.lateInput_pending (sl pitch chunk : Nat) (i : Input) : (s.lateInput sl pitch chunk i).pending = s.pending := by
  simp only [State.lateInput, apply_ite State.pending, State.onSlice_pending, State.slotDev_pending, ite_self]

@[simp] theorem State.duplicate_pending : s.duplicate.pending = s.pending := s.bump_pending ..

@[simp] theorem State.acceptCopy_pending (sl : Nat) (o : Opening) (src crc : Nat) (c : Chunk) :
    (s.acceptCopy sl o src crc c).pending = s.pending := by
  unfold State.acceptCopy
  dsimp only
  split
  · exact s.duplicate_pending
  · simp only [apply_ite State.pending, State.duplicate_pending, State.slotDev_pending, State.onOpen_pending, ite_self]

@[simp] theorem State.acceptInput_pending (sl : Nat) (o : Opening) (i : Input) : (s.acceptInput sl o i).pending = s.pending := by
  unfold State.acceptInput
  dsimp only
  split
  · exact s.lateInput_pending ..
  · split
    · exact s.duplicate_pending
    · split
      · rfl
      · split
        · simp only [apply_ite State.pending, State.duplicate_pending, State.slotDev_pending, State.onOpen_pending, State.lateInput_pending, ite_self]
        · exact s.lateInput_pending ..

@[simp] theorem State.acceptWhole_pending (sl : Nat) (o : Opening) (i : Input) : (s.acceptWhole sl o i).pending = s.pending := by
  simp only [State.acceptWhole, State.refuseWhole, apply_ite State.pending, State.duplicate_pending, State.slotDev_pending, State.onOpen_pending,
    State.setBuf_pending, ite_self]

@[simp] theorem State.acceptChunk_pending (sl : Nat) (o : Opening) (src : Nat) (whole : List Byte) :
    (s.acceptChunk sl o src whole).pending = s.pending := by
  unfold State.acceptChunk
  dsimp only
  split
  · rfl
  · split
    · simp only [apply_ite State.pending, State.onOpen_pending, State.slotDev_pending, State.chunkFailed_pending, ite_self]
    · simp only [apply_ite State.pending, State.acceptCopy_pending, State.acceptInput_pending, State.acceptWhole_pending, ite_self]

@[simp] theorem State.landCross_pending (p k : Nat) (whole : List Byte) : (s.landCross p k whole).pending = s.pending := by
  unfold State.landCross
  dsimp only
  split
  · split
    · exact s.acceptChunk_pending ..
    · rfl
  · rfl

/-- What becomes visible leaves the queue of commands. -/
theorem State.applyUpd_pending (u : Upd) : (s.applyUpd u).pending = s.pending := by
  cases u
  case land p cs => exact foldl_keeps State.pending _ (fun s c => s.tokenChunkIn_pending p c) cs s
  all_goals simp [State.applyUpd]

end

end Sys2Proof.Machine

/-! Completions of pins and decision ticks (R172, R176, R473, Table 5-9). -/

namespace Sys2Proof.Machine

/-! ### The flight that completes next -/

/-- The earliest of some flights is one of them, and none of them ends before it. -/
theorem foldl_earlier {l : List Flight} {a : Option Flight} {f : Flight} (h : l.foldl earlier a = some f) :
    f ∈ a.toList ++ l ∧ ∀ g ∈ a.toList ++ l, f.done ≤ g.done := by
  induction l generalizing a with
  | nil =>
    obtain rfl : a = some f := h
    simp
  | cons y l ih =>
    obtain ⟨hmem, hleast⟩ := ih h
    cases a with
    | none => exact ⟨hmem, hleast⟩
    | some x =>
      by_cases hlt : y.done < x.done
      · simp only [earlier, hlt, if_true, Option.toList_some, List.singleton_append, List.mem_cons, forall_eq_or_imp] at hmem hleast ⊢
        obtain ⟨hy, hrest⟩ := hleast
        exact ⟨.inr hmem, by omega, hy, hrest⟩
      · simp only [earlier, hlt, if_false, Option.toList_some, List.singleton_append, List.mem_cons, forall_eq_or_imp] at hmem hleast ⊢
        obtain ⟨hx, hrest⟩ := hleast
        exact ⟨hmem.imp_right .inr, hx, by omega, hrest⟩

/-- The flight that completes next is due, and the earliest of those that are, a SEAL's apart (R172). -/
theorem State.dueFlight_some {s : State} {f : Flight} (h : s.dueFlight = some f) : f ∈ s.seq.flights ∧ f.done ≤ s.count ∧
    ∀ g ∈ s.seq.flights, g.pin.op ≠ 17 → g.done ≤ s.count → f.done ≤ g.done := by
  obtain ⟨hmem, hleast⟩ := foldl_earlier h
  simp only [Option.toList_none, List.nil_append, List.mem_filter, Bool.and_eq_true, decide_eq_true_eq] at hmem hleast
  obtain ⟨hf, -, hdone⟩ := hmem
  exact ⟨hf, hdone, fun g hg hop hdue => hleast g ⟨hg, hop, hdue⟩⟩

/-- Where no flight is due none completes. -/
theorem State.completeNext_idle {s : State} (h : ∀ f ∈ s.seq.flights, s.belay.count < f.done) : s.completeNext = s := by
  have hnone : s.seq.flights.filter (fun f => f.pin.op ≠ 17 && decide (f.done ≤ s.count)) = [] :=
    List.filter_eq_nil_iff.2 fun f hf => by
      have hlater : ¬f.done ≤ s.count := Nat.not_le.2 (h f hf)
      simp [hlater]
  have hdue : s.dueFlight = none := congrArg (fun l => l.foldl earlier none) hnone
  simp only [State.completeNext, hdue]

/-- Else it ends, and its results become visible in order. -/
theorem State.completeNext_due {s : State} {f : Flight} (h : s.dueFlight = some f) (hg : f.pin.groupOf = none) :
    s.completeNext = f.upds.foldl State.applyUpd { s with seq := { s.seq with flights := s.seq.flights.erase f } } := by
  simp only [State.completeNext, h, State.land, State.countPin, hg]

theorem exec_pinCompletion (s : State) : exec (.pinCompletion none) s = answer s s.completeNext := rfl

/-! ### What becomes visible -/

/-- A table's entry after one is set. -/
theorem Tab.find_put {β : Type} (t : Tab β) (k : Nat) (v : β) (j : Nat) : (t.put k v).find j = if j = k then some v else t.find j := by
  have hcons (k' : Nat) (v' : β) (t : Tab β) : Tab.find ((k', v') :: t) j = if j = k' then some v' else t.find j := by
    by_cases hj : j = k'
    · simp [Tab.find, hj]
    · simp [Tab.find, hj, Ne.symm hj]
  induction t with
  | nil => exact hcons k v []
  | cons e t ih =>
    obtain ⟨k', v'⟩ := e
    rw [Tab.put]
    split
    · exact hcons k v _
    · split
      · next hk =>
        rw [hcons, hcons, ← hk]
        split <;> rfl
      · next hk =>
        rw [hcons, hcons, ih]
        by_cases hj : j = k
        · simp [hj, hk]
        · simp [hj]

section
variable {s : State} {sl u : Nat} {b : Buf}

/-- A buffer that is still held takes the state and the chunk. -/
theorem State.setBuf_held (hb : s.buf sl u = some b) (st : BufSt) (c : Chunk) :
    s.setBuf sl u st c = s.onSlice sl (fun x => { x with bufs := x.bufs.put u { b with st := st, chunk := c } }) := by
  simp only [State.setBuf, hb]

/-- The buffers of the slice after that. -/
theorem State.setBuf_buf (hl : sl < s.slices.length) (hb : s.buf sl u = some b) (st : BufSt) (c : Chunk) (v : Nat) :
    (s.setBuf sl u st c).buf sl v = if v = u then some { b with st := st, chunk := c } else s.buf sl v := by
  rw [State.setBuf_held hb, State.buf, State.onSlice_slice s hl, if_pos rfl]
  exact Tab.find_put _ u _ v

end

/-- Bytes of HBM after a write: those written, and no others changed. -/
theorem State.hbmWrite_read {s : State} (hwf : s.hbm.wf hbmBlank) (a : Nat) (bs : List Byte) (b : Nat) :
    (s.hbmWrite a bs).hbm.read hbmBlank b = if a ≤ b ∧ b < a + bs.length then nth bs (b - a) 0 else s.hbm.read hbmBlank b :=
  Memory.read_writeN hbmBlank bs s.hbm a b hwf

/-! ### A memory error of a slice (R473) -/

/-- A fence touches no count, and puts no pin in flight. -/
theorem State.fence_flights (s : State) (i who cause : Nat) :
    (s.fence i who cause).belay = s.belay ∧ ∀ f ∈ (s.fence i who cause).seq.flights, f ∈ s.seq.flights := by
  by_cases hfence : i < 8 ∧ (s.slice i).fenced = false
  · obtain ⟨hi, hf⟩ := hfence
    obtain ⟨g, q, pos, h⟩ := (s.fenceRecorded i who cause).fenceEffect_frame i
    obtain ⟨-, -, hseq, -⟩ := State.fenceRecorded_eq (s := s) (i := i) (who := who) (cause := cause)
    rw [State.fence_unfenced hi hf, h]
    refine ⟨by simp [State.loseSlice, State.fenceRecorded], fun f hin => ?_⟩
    rw [← hseq]
    exact (List.mem_filter.1 hin).1
  · have hno : i ≥ 8 ∨ (s.slice i).fenced = true := by
      by_cases hi : i < 8
      · exact .inr (Bool.of_not_eq_false fun hf => hfence ⟨hi, hf⟩)
      · exact .inl (Nat.le_of_not_lt hi)
    rw [State.fence, if_pos hno]
    exact ⟨rfl, fun f hin => hin⟩

/-- A slice is fenced after a fence, whether it had one or not. -/
theorem State.fence_fences (s : State) {i : Nat} (hi : i < 8) (hl : i < s.slices.length) (who cause : Nat) :
    ((s.fence i who cause).slice i).fenced = true := by
  cases hf : (s.slice i).fenced with
  | true => rwa [State.fence_fenced hf]
  | false =>
    rw [State.fence_slice hi hl hf, if_pos rfl]
    rfl

/-- An uncorrectable error of a memory of a slice: its cairn, then the fence. -/
theorem State.memoryError_slice (s : State) {e : MemErr} (hlo : 1 ≤ e.memory) (hhi : e.memory ≤ 8) (hslot : e.memory ≠ 4) :
    s.memoryError e = (s.raise 0x08 (sliceSource (memoryUnit e.memory) e.unit) 0 e.memory e.address).fence e.unit 3 0x08 := by
  rw [State.memoryError, if_neg (by omega), if_neg hslot, if_neg (by omega), if_neg (by omega), if_pos ⟨hlo, hhi⟩]

theorem exec_pinCompletion_error {s : State} (hup : s.coreUp = true) (e : MemErr) :
    exec (.pinCompletion (some e)) s = answer s (s.memoryError e).completeNext :=
  congrArg (answer s) (if_pos hup)

/-! ### Decision ticks (R176, Table 5-9) -/

/-- An opening of the running step waits for its chunk in the buffer `u`. -/
def State.awaits (s : State) (u : Nat) (o : Opening) : Bool := o.buf == u && !o.scatter && !o.reduced && o.step == s.seq.step

/-- A slice whose buffer `u` has been judged. -/
def State.judgedSlice (s : State) (u : Nat) (b : Buf) (x : Slice) : Slice :=
  { x with bufs := x.bufs.put u { b with st := .missing }, opens := x.opens.map (fun o => if s.awaits u o then { o with reduced := true } else o) }

section
variable {s : State} {sl u : Nat} {b : Buf}

/-- A latched pin of a running stream that reads the buffer has it judged. -/
theorem State.decideTick_reads (hrun : s.power.st = .running) (hsl : sl < 8) (hread : ∃ x ∈ s.seq.issue.getD sl [], x.pin.reads u = true) :
    s.decideTick sl u = s.judgeRead sl u :=
  if_pos ⟨by simp [State.isRunning, hrun], hsl, List.any_eq_true.2 hread⟩

/-- A buffer that a gather chunk has not filled becomes MISSING, and its openings are done. -/
theorem State.judge_filling (hb : s.buf sl u = some b) (hst : b.st = .filling)
    (hopen : ∃ o ∈ (s.slice sl).opens, o.buf = u ∧ o.scatter = false ∧ o.reduced = false ∧ o.step = s.seq.step) :
    s.judge sl u = (s.onSlice sl (fun x => { x with bufs := x.bufs.put u { b with st := .missing } })).onSlice sl (fun x =>
      { x with opens := x.opens.map (fun o => if s.awaits u o then { o with reduced := true } else o) }) := by
  obtain ⟨o, hmem, hbuf, hscatter, hreduced, hstep⟩ := hopen
  have hany : (s.slice sl).opens.any (s.awaits u) = true :=
    List.any_eq_true.2 ⟨o, hmem, by simp [State.awaits, hbuf, hscatter, hreduced, hstep]⟩
  simp only [State.judge, hb, State.setBuf_held hb]
  exact if_pos ⟨hany, hst⟩

/-- The slice after that. -/
theorem State.judge_slice (hl : sl < s.slices.length) (hb : s.buf sl u = some b) (hst : b.st = .filling)
    (hopen : ∃ o ∈ (s.slice sl).opens, o.buf = u ∧ o.scatter = false ∧ o.reduced = false ∧ o.step = s.seq.step) :
    (s.judge sl u).slice sl = s.judgedSlice u b (s.slice sl) := by
  rw [State.judge_filling hb hst hopen, State.onSlice_slice _ (by simpa [State.onSlice] using hl), if_pos rfl,
    State.onSlice_slice s hl, if_pos rfl]
  rfl

/-- No opening of the step waits in a judged slice. -/
theorem State.judgedSlice_reduced (x : Slice) : ∀ o ∈ (s.judgedSlice u b x).opens, o.buf = u → o.scatter = false → o.step = s.seq.step →
    o.reduced = true := by
  intro o ho hbuf hscatter hstep
  obtain ⟨o', -, rfl⟩ := List.mem_map.1 ho
  by_cases hw : s.awaits u o' = true
  · rw [if_pos hw]
  · rw [if_neg hw] at hbuf hscatter hstep ⊢
    simpa [State.awaits, hbuf, hscatter, hstep] using hw

theorem exec_decisionTick (s : State) (sl u : Nat) : exec (.decisionTick sl u) s = answer s (s.decideTick sl u) := rfl

end

/-- Settles O37: the earliest due flight lands with the queue kept; a memory error of a slice fences it with nothing due; a decision tick
judges the buffer that a latched pin reads. -/
theorem completionsAndDecisions : Obligations.CompletionsAndDecisions := by
  refine ⟨⟨fun s f hf => ?_, fun s hinv hlater => ?_, fun s a bs hwf => ?_, fun s sl u b st c hl hb => ?_, fun s sl e code x hl => ?_,
    fun s e hup hlo hhi hslot hunit hlen hlater => ?_⟩, fun s sl u b hrun hsl hlen hfree hb hread hpicots => ⟨fun hst hopen => ?_, fun hst hinv => ?_⟩⟩
  · obtain ⟨hmem, hdone, hleast⟩ := State.dueFlight_some hf
    refine ⟨hmem, hdone, hleast, fun hg => ?_⟩
    have hexec := exec_pinCompletion s
    rw [State.completeNext_due hf hg] at hexec
    exact next_settle _ s _ hexec (foldl_pending State.applyUpd_pending f.upds _)
  · rw [exec_pinCompletion, State.completeNext_idle hlater]
    exact answer_self s hinv
  · exact ⟨s.hbmWrite_wf a bs hwf, s.hbmWrite_read hwf a bs⟩
  · have hbufs := State.setBuf_buf hl hb st c
    exact ⟨(hbufs u).trans (if_pos rfl), fun v hv => (hbufs v).trans (if_neg hv)⟩
  · rw [State.applyUpd, State.onSlice_slice s hl, if_pos rfl]
    exact Tab.get_put ..
  · have hl : e.unit < (s.raise 0x08 (sliceSource (memoryUnit e.memory) e.unit) 0 e.memory e.address).slices.length := by simpa [hlen] using hunit
    have hexec := exec_pinCompletion_error hup e
    rw [s.memoryError_slice hlo hhi hslot] at hexec
    obtain ⟨hbelay, hflights⟩ := State.fence_flights (s.raise 0x08 (sliceSource (memoryUnit e.memory) e.unit) 0 e.memory e.address) e.unit 3 0x08
    rw [State.completeNext_idle fun f hf => by simpa [hbelay] using hlater f (by simpa using hflights f hf)] at hexec
    refine next_after _ s _ _ hexec fun t ht => (ht.fenced e.unit).trans ?_
    exact State.fence_fences _ hunit hl 3 0x08
  · have hl : sl < s.slices.length := hlen ▸ hsl
    have hslice := State.judge_slice hl hb hst hopen
    have hseq : (s.judge sl u).seq = s.seq := by rw [State.judge_filling hb hst hopen]; rfl
    have hexec := exec_decisionTick s sl u
    rw [State.decideTick_reads hrun hsl hread, State.judgeRead, State.readPicot_ended (by rwa [hseq])] at hexec
    refine next_after _ s _ _ hexec fun t ht => ?_
    have hkept := (ht.slice sl (by rw [hslice]; exact hfree)).trans hslice
    rw [State.buf, hkept]
    exact ⟨(Tab.find_put ..).trans (if_pos rfl), State.judgedSlice_reduced (s.slice sl)⟩
  · rw [exec_decisionTick, State.decideTick_reads hrun hsl hread, State.judgeRead, State.judge_stands hb hst, State.readPicot_ended hpicots]
    exact answer_self s hinv

end Sys2Proof.Machine

/-! ENCODE, DECODE and the two SURVEYs (R222, R224, R228, R230). -/

namespace Sys2Proof.Machine

/-! ### Claims, gaps and contexts -/

section
variable {s : State} {sl u v : Nat} {c : Chunk}

/-- A claim leaves the slice's other buffers. -/
theorem State.claim_buf_ne (s : State) (sl : Nat) (h : v ≠ u) (n : Nat) (d : Chunk) : (s.claim sl u n d).buf sl v = s.buf sl v := by
  refine getD_map_modify_of_keeps (g := fun x : Slice => x.bufs.find v) (fun x => ?_) s.slices sl sl Slice.reset
  exact (Tab.find_put x.bufs u _ v).trans (if_neg h)

/-- And its coding contexts. -/
theorem State.claim_ctx (s : State) (sl u n : Nat) (d : Chunk) (i : Nat) : (s.claim sl u n d).ctx sl i = s.ctx sl i := by
  refine getD_map_modify_of_keeps (g := fun x : Slice => x.ctxs.get CtxSt.reset i) (fun _ => ?_) s.slices sl sl Slice.reset
  rfl

/-- So what another buffer holds, it still holds. -/
theorem holds_claim (h : Holds s sl v c) (hne : u ≠ v) (n : Nat) (d : Chunk) : Holds (s.claim sl u n d) sl v c := by
  obtain ⟨hbuf, hpicots⟩ := h
  exact ⟨by rwa [s.claim_buf_ne sl hne.symm], hpicots⟩

/-- A pin that finds a chunk records no gap (R154). -/
theorem State.gapIf_of_holds {p : Pin} (h : Holds s sl p.buf c) : s.gapIf sl p = s := by
  simp [State.gapIf, chunkAt_of_holds h]

@[simp] theorem State.onCtx_pinFrame (s : State) (sl i : Nat) (f : CtxSt → CtxSt) : (s.onCtx sl i f).pinFrame = s.pinFrame := rfl

/-- A context after it is changed. -/
theorem State.onCtx_ctx (s : State) (hl : sl < s.slices.length) (i : Nat) (f : CtxSt → CtxSt) : (s.onCtx sl i f).ctx sl i = f (s.ctx sl i) := by
  rw [State.ctx, State.onCtx, State.onSlice_slice s hl, if_pos rfl]
  exact (Tab.get_put ..).trans (if_pos rfl)

end

/-! ### The result of an ENCODE (R222) -/

/-- A chunk coded against context `i` within `cycles` encoder cycles. -/
def State.codedChunk (s : State) (sl i cycles : Nat) (c : Chunk) : Chunk :=
  { c with
    coded := true
    data := (encodeBlocks (s.image.ctxEnt sl i).split (s.ctx sl i).coding cycles (pieces 4096 c.data)).flatMap (·.1) }

/-- Against the context of its pitch a chunk comes out coded; a root's histogram is all that changes (R224). -/
theorem State.encodeChunk_ctx {s : State} {sl pitch i : Nat} (h : s.image.pitchCtx sl pitch = some i) (lat : Nat) (c : Chunk) :
    (s.encodeChunk sl pitch lat c).2.1 = s.codedChunk sl i (6 * (lat - 6)) c ∧ (s.encodeChunk sl pitch lat c).1.pinFrame = s.pinFrame := by
  simp only [State.encodeChunk, h, State.encodeWith]
  refine ⟨rfl, ?_⟩
  split
  · exact s.onCtx_pinFrame ..
  · rfl

/-! ### The pins -/

section
variable {s u : State} {st : Nat} {x : Issue} {rest : List Issue} {c : Chunk}

/-- The output buffer of an ENCODE or a DECODE claimed. -/
def State.claimOut (u : State) (st : Nat) (p : Pin) : State := u.claim st p.arg (unitsFor (u.pitchOf p).bytes) default

@[simp] theorem State.claimOut_pinFrame (u : State) (st : Nat) (p : Pin) : (u.claimOut st p).pinFrame = u.pinFrame := rfl

theorem State.claimOut_decodeHeld (u : State) (st : Nat) (p : Pin) (pitch : Nat) (c : Chunk) :
    (u.claimOut st p).decodeHeld st pitch c = u.decodeHeld st pitch c := by
  have hctx (i : Nat) : (u.claimOut st p).ctx st i = u.ctx st i := State.claim_ctx ..
  simp only [State.decodeHeld, State.decodeOn, hctx]
  rfl

theorem State.claimOut_codedChunk (u : State) (st : Nat) (p : Pin) (i cycles : Nat) (c : Chunk) :
    (u.claimOut st p).codedChunk st i cycles c = u.codedChunk st i cycles c := by
  have hctx : (u.claimOut st p).ctx st i = u.ctx st i := State.claim_ctx ..
  simp only [State.codedChunk, hctx]
  rfl

section
variable (hlive : u.req.replay = false) (hgone : x.gone = false) (hc : Holds u st x.pin.buf c) (hbusy : u.resBusy (pinRes st x.pin) = false)
  (hroom : (u.slice st).unitsFree x.pin.arg (unitsFor (u.pitchOf x.pin).bytes) = true) (hne : x.pin.arg ≠ x.pin.buf)
include hlive hgone hc hbusy hroom hne

/-- An ENCODE that breaches nothing passes a null chunk on, and codes another. -/
theorem State.encodePin_whole : u.encodePin st x =
    if c.null then (u.claimOut st x.pin).flyHeld st x false (.buf st x.pin.arg .ready c :: releaseUpd st x.pin)
    else
      ((u.claimOut st x.pin).encodeChunk st x.pin.pitch (u.latency st x.pin) c).1.flyHeld st x false
        (.buf st x.pin.arg .ready ((u.claimOut st x.pin).encodeChunk st x.pin.pitch (u.latency st x.pin) c).2.1 ::
          ((u.claimOut st x.pin).encodeChunk st x.pin.pitch (u.latency st x.pin) c).2.2 ++ releaseUpd st x.pin) := by
  have hheld : Holds (u.claimOut st x.pin) st x.pin.buf c := holds_claim hc hne ..
  have hcond : firstRow false (!true) (!true) = 0 := rfl
  simp only [State.encodePin, State.judgeRead_of_holds hc, hbusy, hroom, readable_of_holds hc, hcond]
  refine (State.issuePin_whole hlive hgone st _).trans ?_
  rw [if_neg Bool.false_ne_true, if_pos trivial, ← State.claimOut, State.gapIf_of_holds hheld, chunkAt_of_holds hheld]
  rfl

/-- Against the context of the pitch, what it puts in flight. -/
theorem State.encodePin_coded (hnull : c.null = false) {i : Nat} (hctx : u.image.pitchCtx st x.pin.pitch = some i) :
    ∃ (w : State) (counts : List Upd), u.encodePin st x = w.flyHeld st x false
      (.buf st x.pin.arg .ready (u.codedChunk st i (6 * (u.latency st x.pin - 6)) c) :: counts ++ releaseUpd st x.pin) ∧
      w.pinFrame = u.pinFrame := by
  obtain ⟨hcoded, hframe⟩ := State.encodeChunk_ctx (s := u.claimOut st x.pin) hctx (u.latency st x.pin) c
  rw [State.encodePin_whole hlive hgone hc hbusy hroom hne, if_neg (by simp [hnull]), hcoded, State.claimOut_codedChunk]
  exact ⟨_, _, rfl, hframe⟩

/-- A DECODE that breaches nothing puts the decoded chunk out. -/
theorem State.decodePin_whole {d : Chunk} (hd : u.decodeHeld st x.pin.pitch c = .ok d) : u.decodePin st x =
    (u.claimOut st x.pin).flyHeld st x false (.buf st x.pin.arg .ready d :: releaseUpd st x.pin) := by
  have hheld : Holds (u.claimOut st x.pin) st x.pin.buf c := holds_claim hc hne ..
  have hcond : firstRow false (!true) (!true) = 0 := rfl
  simp only [State.decodePin, State.judgeRead_of_holds hc, hbusy, hroom, readable_of_holds hc, hcond]
  refine (State.issuePin_whole hlive hgone st _).trans ?_
  rw [if_neg Bool.false_ne_true, if_pos trivial, ← State.claimOut, State.gapIf_of_holds hheld, chunkAt_of_holds hheld]
  simp only [State.claimOut_decodeHeld, hd]

end

/-- A SURVEY of a surveyed object that comes in its order takes its sweep one pin further (R228). -/
theorem State.surveyObjectPin_whole (hlive : u.req.replay = false) (hgone : x.gone = false) (hbusy : u.resBusy (pinRes st x.pin) = false)
    {v : SurveyPin} (hv : v = u.surveyPin st x.pin) (horder : v.outOfOrder (u.ctx st v.ctx).survey x.pin.chunk = false) :
    u.surveyObjectPin st x =
      (u.onCtx st v.ctx (fun c => { c with survey := (u.sweepPin v (u.ctx st v.ctx).survey x.pin false).1 })).flyHeld st x false
        (u.sweepPin v (u.ctx st v.ctx).survey x.pin false).2 := by
  subst hv
  simp only [State.surveyObjectPin, hbusy, horder]
  exact State.issuePin_whole hlive hgone st _

/-- A SURVEY with AUX set builds its context's next table at the root, and starts a new histogram (R224). -/
theorem State.surveyCarriedPin_whole (hlive : u.req.replay = false) (hgone : x.gone = false) (hbusy : u.resBusy (pinRes st x.pin) = false)
    {v : SurveyPin} (hv : v = u.surveyPin st x.pin) {ent : CtxEnt} (hent : ent = u.image.ctxEnt st v.ctx) (haux : x.pin.aux = true)
    (hroot : u.isRoot ent = true) (henabled : (u.ctx st v.ctx).disable = false) (hroom : (u.slice st).unitsFree ent.tbuf 1 = true)
    {bs : List Byte} (hbs : bs = ((u.ctx st v.ctx).nextTable ent.split).bytes) :
    u.surveyCarriedPin st x = ((u.claim st ent.tbuf 1 default).onCtx st v.ctx (fun c => { c with hist := [] })).flyHeld st x false
      [.buf st ent.tbuf .ready (recordChunk u.seq.step bs), .install st v.ctx (some bs)] := by
  subst hv hent hbs
  have hcond : firstRow false (!true) false = 0 := rfl
  simp only [State.surveyCarriedPin, hbusy, hroom, hcond]
  refine (State.issuePin_whole hlive hgone st _).trans ?_
  have hclaimed : (u.claim st (u.image.ctxEnt st (u.surveyPin st x.pin).ctx).tbuf 1 default).isRoot
      (u.image.ctxEnt st (u.surveyPin st x.pin).ctx) = true := hroot
  simp only [Bool.false_eq_true, if_false, if_true, State.claim_ctx, haux, hclaimed, henabled, Bool.not_true, or_self]
  rfl

theorem exec_encode (h : PinDue s st x rest) (hop : x.pin.op = 9) : exec (.encode st) s = answer s ((Taken s st x).encodePin st x) :=
  congrArg (answer s) (runPin_of_pinDue h (by simp [hop]) _)

theorem exec_decode (h : PinDue s st x rest) (hop : x.pin.op = 10) : exec (.decode st) s = answer s ((Taken s st x).decodePin st x) :=
  congrArg (answer s) (runPin_of_pinDue h (by simp [hop]) _)

/-- The image says which SURVEY a pin is, before and after it leaves the latch. -/
theorem taken_surveyed (s : State) (st : Nat) (x : Issue) : (Taken s st x).surveyed st x.pin = s.surveyed st x.pin := by
  simp [State.surveyed, State.image]

theorem exec_survey (h : PinDue s st x rest) (hop : x.pin.op = 8) (hsurveyed : (Taken s st x).surveyed st x.pin = true) :
    exec (.survey st) s = answer s ((Taken s st x).surveyObjectPin st x) :=
  congrArg (answer s) (runPin_of_pinDue h (by simp [State.isSurvey, hop, ← taken_surveyed, hsurveyed]) _)

theorem exec_surveyCarried (h : PinDue s st x rest) (hop : x.pin.op = 8) (hcarried : (Taken s st x).surveyed st x.pin = false) :
    exec (.surveyCarried st) s = answer s ((Taken s st x).surveyCarriedPin st x) :=
  congrArg (answer s) (runPin_of_pinDue h (by simp [State.isSurvey, hop, ← taken_surveyed, hcarried]) _)

/-- A pin that leaves the latch keeps the slices and their fences. -/
theorem taken_slices_length (s : State) (st : Nat) (x : Issue) : (Taken s st x).slices.length = s.slices.length := by
  unfold Taken State.noteLast
  split
  · exact List.length_modify ..
  · rfl

theorem taken_slice_fenced (s : State) (st : Nat) (x : Issue) (i : Nat) : ((Taken s st x).slice i).fenced = (s.slice i).fenced := by
  unfold Taken State.noteLast
  split
  · refine getD_map_modify_of_keeps (g := Slice.fenced) (fun _ => ?_) s.slices st i Slice.reset
    rfl
  · rfl

/-- What a sweep leaves in the survey of its context, in a slice that is not fenced. -/
theorem After.onCtx_flyHeld_ctx {w t : State} {i : Nat} {f : CtxSt → CtxSt} {upds : List Upd}
    (ht : After ((w.onCtx st i f).flyHeld st x false upds) t) (hl : st < w.slices.length) (hfree : (w.slice st).fenced = false) :
    t.ctx st i = f (w.ctx st i) := by
  have hkept : t.slice st = (w.onCtx st i f).slice st := ht.slice st (by
    change ((w.onCtx st i f).slice st).fenced = false
    rw [State.onCtx, State.onSlice_slice w hl, if_pos rfl]
    exact hfree)
  rw [State.ctx, hkept]
  exact w.onCtx_ctx hl i f

end

/-- Settles O33: each pin runs whole, and each form has its equation; a SURVEY changes its context and goes into flight. -/
theorem coding : Obligations.Coding := by
  rintro s u st x rest h rfl
  have ⟨_, _, _, hgone, hreplay⟩ := h
  have hlive : (Taken s st x).req.replay = false := by simp [hreplay]
  refine ⟨fun c hc hbusy hroom hne => ⟨fun hop hnull => ?_, fun i hop hnull hctx => ?_, fun d hop hd => ?_⟩, fun v hop hv hbusy =>
    ⟨fun hsurveyed horder hl hfree => ?_, fun ent bs hcarried hent haux hroot henabled hroom hbs => ?_⟩⟩
  · have hexec := exec_encode h hop
    rw [State.encodePin_whole hlive hgone hc hbusy hroom hne, if_pos hnull] at hexec
    exact next_after _ s _ _ hexec fun t ht => inFlight_flyHeld (by simp) ht
  · have hexec := exec_encode h hop
    obtain ⟨w, counts, hw, hframe⟩ := State.encodePin_coded hlive hgone hc hbusy hroom hne hnull hctx
    rw [hw, State.latency_congr (taken_pinFrame ..)] at hexec
    obtain ⟨t, hnext, hflight⟩ := next_after _ s _ _ hexec fun t ht => inFlight_flyHeld (hframe.trans (taken_pinFrame ..)) ht
    exact ⟨t, counts, hnext, hflight⟩
  · have hexec := exec_decode h hop
    rw [State.decodePin_whole hlive hgone hc hbusy hroom hne hd] at hexec
    exact next_after _ s _ _ hexec fun t ht => inFlight_flyHeld (by simp) ht
  · have hexec := exec_survey h hop hsurveyed
    rw [State.surveyObjectPin_whole hlive hgone hbusy hv horder] at hexec
    refine next_after _ s _ _ hexec fun t ht => ⟨inFlight_flyHeld (by simp) ht, ?_⟩
    exact congrArg CtxSt.survey (ht.onCtx_flyHeld_ctx (by rwa [taken_slices_length]) (by rwa [taken_slice_fenced]))
  · have hexec := exec_surveyCarried h hop hcarried
    rw [State.surveyCarriedPin_whole hlive hgone hbusy hv hent haux hroot henabled hroom hbs] at hexec
    exact next_after _ s _ _ hexec fun t ht => inFlight_flyHeld (by simp) ht

end Sys2Proof.Machine

/-! UPDATE under each step decision, and on a disabled station (R284, R285, R287, R298, Table 13-5). -/

namespace Sys2Proof.Machine

/-! ### What an UPDATE makes visible where the decision is not APPLY (R287) -/

/-- Its blocks join the shard checksum as they stand, and its slots are released. -/
theorem State.updateUpds_of_not_apply (u : State) (p : Pin) (c : Nat) : u.updateUpds p false c =
    ((List.range p.arg).map (· + p.chunk)).map (fun b =>
      .shard (shardAddend p.pitch b (u.hbmRead (u.paramBytes p.pitch b).1 (u.paramBytes p.pitch b).2))) ++
    (List.range p.arg).map (fun i => .unslot p.portq (2 * p.buf + i)) := by
  simp only [State.updateUpds, Bool.not_false, true_or, if_true]

theorem State.shard_or_unslot_of_not_apply {u : State} {p : Pin} {c : Nat} {y : Upd} (hy : y ∈ u.updateUpds p false c) :
    (∃ v, y = .shard v) ∨ ∃ k n, y = .unslot k n := by
  rw [State.updateUpds_of_not_apply, List.mem_append, List.mem_map, List.mem_map] at hy
  obtain ⟨b, -, rfl⟩ | ⟨i, -, rfl⟩ := hy
  · exact .inl ⟨_, rfl⟩
  · exact .inr ⟨_, _, rfl⟩

/-! ### Deviation entries in order -/

section
variable (s : State) (p : Pin) (ds : List Dev)

@[simp] theorem State.devs_pinFrame : (s.devs ds).pinFrame = s.pinFrame :=
  foldl_keeps State.pinFrame _ State.dev_pinFrame ds s

@[simp] theorem State.bump_srec_entries (off u n : Nat) : (s.bump off u n).srec.entries = s.srec.entries := by
  have h := congrArg StepRec.entries (bump_steady s off u n)
  exact h

theorem State.dev_srec_entries (d : Dev) : (s.dev d).srec.entries = s.srec.entries + 1 :=
  congrArg (· + 1) (s.bump_srec_entries _ _ _)

/-- Each one is counted. -/
theorem State.devs_srec_entries : (s.devs ds).srec.entries = s.srec.entries + ds.length := by
  induction ds generalizing s with
  | nil => rfl
  | cons d ds ih =>
    have htail : (s.devs (d :: ds)).srec.entries = ((s.dev d).devs ds).srec.entries := rfl
    rw [htail, ih, State.dev_srec_entries, List.length_cons, Nat.add_assoc, Nat.add_comm 1]

@[simp] theorem State.voidUpdate_pinFrame : (s.voidUpdate p).pinFrame = s.pinFrame := s.devs_pinFrame _

/-- A void UPDATE enters one for each block. -/
theorem State.voidUpdate_srec_entries : (s.voidUpdate p).srec.entries = s.srec.entries + p.arg := by
  rw [State.voidUpdate, State.devs_srec_entries, List.length_map, List.length_range]

end

/-! ### The pin -/

section
variable {s u : State} {st : Nat} {x : Issue} {rest : List Issue} {d : Nat}

theorem State.flyHeld_srec (st : Nat) (x : Issue) (void : Bool) (upds : List Upd) : (u.flyHeld st x void upds).srec = u.srec := by
  cases void <;> rfl

/-- An UPDATE after the step decision whose station is free runs whole: a disabled station leaves the entries of a void one (Table 13-5). -/
theorem State.updatePin_whole (hlive : u.req.replay = false) (hgone : x.gone = false) (hdec : u.srec.decision = some d)
    (hbusy : u.resBusy (pinRes st x.pin) = false) : u.updatePin st x =
      if (u.station x.pin.portq).disable then (u.voidUpdate x.pin).flyHeld st x false []
      else u.flyHeld st x false (u.updateUpds x.pin (d == 0) u.srec.c) := by
  have hcond : firstRow false false (some d).isNone = 0 := rfl
  have hforced : u.forcedVoidUpdate x.pin = false := by simp [State.forcedVoidUpdate, hlive]
  have hsettled : u.settleClips false = u := State.settleClips_decided (by simp [hdec]) false
  simp only [State.updatePin, hsettled, hbusy, hdec, hcond]
  rw [State.issuePin_whole hlive hgone]
  simp [hforced, hdec]

theorem exec_update (h : PinDue s st x rest) (hop : x.pin.op = 14) : exec (.update st) s = answer s ((Taken s st x).updatePin st x) :=
  congrArg (answer s) (runPin_of_pinDue h (by simp [hop]) _)

@[simp] theorem taken_station (k : Nat) : (Taken s st x).station k = s.station k :=
  congrArg (fun f => f.stations.get Station.reset k) (taken_pinFrame s st x)

end

/-- Settles O35: the pin that is due runs whole; without APPLY its updates are shard addends and released slots; each entry of a disabled
station's UPDATE is counted. -/
theorem updates : Obligations.Updates := by
  rintro s u st x rest d h rfl hop hdec hbusy
  have hexec := exec_update h hop
  obtain ⟨-, -, -, hgone, hlive⟩ := h
  rw [State.updatePin_whole (by simp [hlive]) hgone (by simpa using hdec) hbusy, taken_station] at hexec
  refine ⟨fun hon => ?_, fun hd y hy => ?_, fun hoff => ?_⟩
  · rw [if_neg (by simp [hon]), taken_srec] at hexec
    exact next_after _ s _ _ hexec fun t ht => inFlight_flyHeld (taken_pinFrame ..) ht
  · rw [beq_false_of_ne hd] at hy
    obtain ⟨v, rfl⟩ | ⟨k, n, rfl⟩ := State.shard_or_unslot_of_not_apply hy
    · exact ⟨nofun, nofun⟩
    · exact ⟨nofun, nofun⟩
  · rw [if_pos hoff] at hexec
    refine next_after _ s _ _ hexec fun t ht => ⟨inFlight_flyHeld (by simp) ht, ?_⟩
    rw [ht.srec_entries, State.flyHeld_srec, State.voidUpdate_srec_entries, taken_srec]

end Sys2Proof.Machine

/-! What every step leaves (R336, R432, R447, R475, R489): each command answers with a settled state. -/

namespace Sys2Proof.Machine

/-- Every command answers with the settled state that its effect leads to. -/
theorem exec_answers (c : Instr) (s : State) : ∃ e, exec c s = answer s e := by
  cases c <;> exact ⟨_, rfl⟩

/-- A step answers with a settled state, whatever the queue held. -/
theorem step_settles (s : State) : ∃ (e : State) (q : List Instr), step s = .next { e.settle with pending := q } := by
  unfold step
  cases s.pending with
  | nil => exact ⟨_, _, rfl⟩
  | cons c rest =>
    obtain ⟨e, he⟩ := exec_answers c { s with pending := rest }
    exact ⟨e, rest, he⟩

/-- Settles O5: a step ends in a settled state, and `settle` establishes every condition of `Inv`. -/
theorem stepKeepsInv : Obligations.StepKeepsInv := by
  intro s t _ hstep
  obtain ⟨e, q, he⟩ := step_settles s
  obtain rfl : { e.settle with pending := q } = t := Host.Outcome.next.inj (he.symm.trans hstep)
  exact (after_pending e e.settle q (after_settle e)).inv

/-- Settles O14: what the next state of a command holds, applied to `settle` itself. -/
theorem settleFrame : Obligations.SettleFrame := by
  intro s
  have h := after_settle s
  exact ⟨s.settle_pending, h.power, h.mgmt, h.reg, h.img, h.belay, h.req, h.seq, h.issue, h.slice, h.stations, h.tok, h.groups, h.brides,
    h.anc, h.gq, h.cairn, h.hbm, h.hbmBad, h.store, h.scaleHist, h.levelHist, h.heatHist, h.levelRes, h.spikes, s.settle_reply,
    s.settle_flagPop, s.settle_irqPop, h.saved, h.free⟩

end Sys2Proof.Machine

/-! Standby power-on, its loss, and the core rail (R340, R433, R456). -/

namespace Sys2Proof.Machine

/-! ### The engine in OFF -/

/-- In OFF, without a wake, no port may train (Table 9-9). -/
theorem State.mayTrain_off {s : State} (hst : s.power.st = .off) (hw : s.req.waking = false) (p : Nat) : s.mayTrain p = false := by
  simp [State.mayTrain, hst, hw]

/-- A link that has never trained keeps nothing. -/
theorem Link.reset_turnOff : Link.reset.turnOff = Link.reset := rfl

/-- A port at reset keeps nothing. -/
theorem Port.reset_idle : Port.reset.idle := ⟨rfl, rfl, rfl, rfl⟩

/-- Beyond the list too, an entry of a list of equal entries is that entry. -/
theorem getD_replicate_self {α : Type} (n i : Nat) (x : α) : (List.replicate n x).getD i x = x := by
  simp [List.getD_eq_getElem?_getD, List.getElem?_replicate]; split <;> rfl

/-- What the standby supply's rise and fall set beside the domains at reset: the power block in OFF, the brides, the store, the free values. -/
def State.atReset (s : State) (p : Power) (bs : List Bride) : State :=
  { State.reset with store := s.store, free := s.free, power := p, brides := bs }

/-- A state at reset in OFF meets every condition of `Inv`. -/
theorem inv_atReset (s : State) {p : Power} (hp : p.st = .off) (bs : List Bride) : Inv (s.atReset p bs) where
  ports := by
    intro i _
    have hport : (s.atReset p bs).port i = Port.reset := getD_replicate_self 36 i Port.reset
    rw [hport, State.mayTrain_off hp rfl]
    exact ⟨⟨fun _ => rfl, fun _ => rfl⟩, fun _ => Port.reset_idle⟩
  paths := by
    intro i _
    have hport : (s.atReset p bs).port (32 + i / 32) = Port.reset := getD_replicate_self 36 _ Port.reset
    have hpath : (s.atReset p bs).paths.getD i Link.reset = Link.reset := getD_replicate_self 128 i Link.reset
    rw [hpath, State.pathMay, hport]
    exact ⟨⟨fun _ => rfl, fun _ => rfl⟩, fun _ => Link.reset_turnOff⟩
  pins := by
    intro st _ hne
    have hlatch : (s.atReset p bs).seq.issue.getD st [] = [] := getD_replicate_self 10 st []
    exact absurd hlatch hne
  staging := by
    intro sl hsl hf
    obtain ⟨-, rfl⟩ : _ ∧ sl = Slice.reset := List.mem_replicate.1 hsl
    rfl
  sensors := by
    have hcode : (s.atReset p bs).sensorCodes = [p.st.code, 0, 0] := rfl
    rw [SensorsConform, hcode, hp]
    rfl
  interrupts := fun _ => rfl

/-- The answer of a command that leaves a state at reset in OFF. -/
theorem answer_atReset (s : State) {p : Power} (hp : p.st = .off) (bs : List Bride) :
    answer s (s.atReset p bs) = .next { s.atReset p bs with pending := s.pending } := by
  rw [answer, settle_of_inv _ (inv_atReset s hp bs)]

/-! ### The core rail -/

/-- A state but for what the supply monitor reads, and the free values that its readings take. -/
def State.unread (s : State) : State := { s with free := 0, power := { s.power with now := [], low := [], warn := [] } }

/-- The readings of a rail that has come up change nothing else. -/
theorem State.freshReadings_unread (s : State) : s.freshReadings.unread = s.unread := by
  unfold State.freshReadings
  apply foldl_keeps State.unread
  exact fun _ _ => rfl

/-- The state once the core rail is up and the dies have been read (R433). -/
def State.railed (s : State) : State := State.freshReadings { s with power := { s.power with rail := true } }

/-- The rail changes the rail, the readings and the free values alone. -/
theorem State.railed_unread (s : State) : s.railed.unread = { s with power := { s.power with rail := true } }.unread :=
  State.freshReadings_unread _

theorem State.railed_img (s : State) : s.railed.img = s.img := by have h := congrArg State.img s.railed_unread; exact h
theorem State.railed_req (s : State) : s.railed.req = s.req := by have h := congrArg State.req s.railed_unread; exact h
theorem State.railed_mgmt (s : State) : s.railed.mgmt = s.mgmt := by have h := congrArg State.mgmt s.railed_unread; exact h
theorem State.railed_regs (s : State) : s.railed.regs = s.regs := by have h := congrArg State.regs s.railed_unread; exact h
theorem State.railed_hbm (s : State) : s.railed.hbm = s.hbm := by have h := congrArg State.hbm s.railed_unread; exact h
theorem State.railed_store (s : State) : s.railed.store = s.store := by have h := congrArg State.store s.railed_unread; exact h
theorem State.railed_cairn (s : State) : s.railed.cairn = s.cairn := by have h := congrArg State.cairn s.railed_unread; exact h
theorem State.railed_power (s : State) : { s.railed.power with now := [], low := [], warn := [] } =
    { s.power with rail := true, now := [], low := [], warn := [] } := by have h := congrArg State.power s.railed_unread; exact h

/-- A load clears nothing of the power block. -/
theorem State.clearForLoad_power (s : State) : s.clearForLoad.power = s.power := rfl

/-- LOADING is entered, and waits for HBM (R433). -/
def State.awaitingHbm (s : State) : State :=
  let t := s.clearForLoad
  { t with
    power := { t.power with st := .loading, phase := 2, cause := 0, check := 0, loadCopy := 0 }
    seq := { t.seq with variant := 0 } }

/-- After phase 1 with a birth record, a store and no HBM yet, LOADING waits (Table 12-7). -/
theorem State.enterLoading_waits {s : State} (h1 : s.power.phase1 = true) (hb : s.power.birth.isSome = true) (hm : s.power.storeMode ≠ 3)
    (hh : s.power.hbmReady = false) : s.enterLoading 0 = s.awaitingHbm := by
  have hnone : s.power.birth.isNone = false := by simpa using hb
  have hphase : (if s.power.phase1 = true ∧ s.power.birth.isSome = true then s else s.phaseOne) = s := if_pos ⟨h1, hb⟩
  simp only [State.enterLoading, State.awaitingHbm, hphase, State.clearForLoad_power, hm, hnone, hh, if_false, Bool.false_eq_true]

/-- CORE_RAIL_UP in OFF (R433). -/
theorem exec_coreRailUp_off {s : State} (hs : s.power.standby = true) (hr : s.power.rail = false) (ho : s.power.st = .off) :
    exec .coreRailUp s = answer s (s.railed.enterLoading 0) := by
  refine congrArg (answer s) ?_
  rw [State.railUp, if_neg (by simp [hs, hr])]
  exact if_pos ho

/-- CORE_RAIL_UP in a wake (R451): the rail that the engine asked for. -/
theorem exec_coreRailUp_wake {s : State} (hs : s.power.standby = true) (hr : s.power.rail = false) (hb : s.power.st = .bivouac)
    (hw : s.req.waking = true) : exec .coreRailUp s = answer s s.railed := by
  refine congrArg (answer s) ?_
  rw [State.railUp, if_neg (by simp [hs, hr])]
  exact (if_neg (by simp [hb])).trans (if_pos ⟨hb, hw⟩)

/-- Settles O15: power-on and supply loss leave states at reset; the core rail changes only the rail and its readings before LOADING. -/
theorem supplyCommands : Obligations.SupplyCommands := by
  refine ⟨fun s => ⟨answer_atReset s rfl _, answer_atReset s rfl _⟩, fun s hs hr => ⟨fun ho h1 hb hm hh => ?_, fun hb hw => ?_⟩⟩
  · have hp := s.railed_power
    have howner : s.railed.mgmt.owner = s.mgmt.owner := congrArg Mgmt.owner s.railed_mgmt
    have hexec := exec_coreRailUp_off hs hr ho
    rw [State.enterLoading_waits ((congrArg Power.phase1 hp).trans h1)
      ((congrArg (fun p : Power => p.birth.isSome) hp).trans hb) (fun k => hm ((congrArg Power.storeMode hp).symm.trans k))
      ((congrArg Power.hbmReady hp).trans hh)] at hexec
    refine next_after _ s _ _ hexec fun x hx => ?_
    have hreg : ∀ off, s.railed.awaitingHbm.reg off = s.reg off := fun off => congrArg (fun t => Tab.get _ t off) s.railed_regs
    rw [hx.power, hx.img, hx.groups, hx.gq, hx.anc, hx.seq, hx.hbm, hx.store, hx.mgmt, hx.cairn]
    exact ⟨rfl, congrArg Power.rail hp, rfl, rfl, rfl, rfl, rfl, rfl, rfl, rfl, s.railed_hbm, s.railed_store, howner,
      s.railed_cairn, fun off ho => (hx.reg off ho).trans (hreg off)⟩
  · have hp := s.railed_power
    refine next_after _ s _ _ (exec_coreRailUp_wake hs hr hb hw) fun x hx => ?_
    rw [hx.power, hx.img, hx.req]
    exact ⟨congrArg Power.rail hp, (congrArg Power.st hp).trans hb, s.railed_img, s.railed_req⟩

end Sys2Proof.Machine

/-! Ports, paths and links: what a change of one leaves, and where a packet waits (R305, R317, R324). -/

namespace Sys2Proof.Machine

/-! ### One element of a list changed -/

/-- A change of one element depends only on what it makes of that element. -/
theorem modify_congr_getD {α : Type} {l : List α} {i : Nat} {d : α} {f g : α → α} (h : f (l.getD i d) = g (l.getD i d)) :
    l.modify i f = l.modify i g := by
  refine List.ext_getElem? fun j => ?_
  simp only [List.getElem?_modify]
  cases hj : l[j]? with
  | none => rfl
  | some x =>
    by_cases hij : i = j
    · subst hij
      rw [List.getD_eq_getElem?_getD, hj] at h
      simpa using h
    · simp [hij]

theorem getD_modify_self {α : Type} {l : List α} {i : Nat} (hi : i < l.length) (f : α → α) (d : α) :
    (l.modify i f).getD i d = f (l.getD i d) := by
  simp [List.getD_eq_getElem?_getD, hi]

/-! ### Ports -/

section
variable {s u : State} {p : Nat}

theorem State.onPort_congr {f g : Port → Port} (h : f (s.port p) = g (s.port p)) : s.onPort p f = s.onPort p g :=
  congrArg (fun ps => { s with ports := ps }) (modify_congr_getD h)

theorem State.onPort_self {f : Port → Port} (h : f (s.port p) = s.port p) : s.onPort p f = s :=
  (State.onPort_congr (g := id) h).trans (congrArg (fun ps => { s with ports := ps }) (List.modify_id p s.ports))

theorem State.onPort_onPort (s : State) (p : Nat) (f g : Port → Port) : (s.onPort p f).onPort p g = s.onPort p (fun q => g (f q)) :=
  congrArg (fun ps => { s with ports := ps }) (List.modify_modify_eq f g p s.ports)

theorem State.onPort_port (hp : p < s.ports.length) (f : Port → Port) : (s.onPort p f).port p = f (s.port p) := getD_modify_self hp f _

theorem State.onPort_length (s : State) (p : Nat) (f : Port → Port) : (s.onPort p f).ports.length = s.ports.length := List.length_modify ..

@[simp] theorem State.bump_port (s : State) (off n k p : Nat) : (s.bump off n k).port p = s.port p := by simp [State.port]

@[simp] theorem State.raise_port (s : State) (c src q a b p : Nat) : (s.raise c src q a b).port p = s.port p := by simp [State.port]

/-! ### Carriage paths -/

theorem State.onPath_congr {n w : Nat} {f g : Link → Link} (h : f (s.path n w) = g (s.path n w)) : s.onPath n w f = s.onPath n w g :=
  congrArg (fun ps => { s with paths := ps }) (modify_congr_getD h)

theorem State.onPath_self {n w : Nat} {f : Link → Link} (h : f (s.path n w) = s.path n w) : s.onPath n w f = s :=
  (State.onPath_congr (g := id) h).trans (congrArg (fun ps => { s with paths := ps }) (List.modify_id _ s.paths))

/-! ### The link of a native port -/

theorem State.link_native (hp : p < 32) (w : Nat) : s.link p w = (s.port p).link := if_pos hp

theorem State.onLink_native (hp : p < 32) (w : Nat) (f : Link → Link) :
    s.onLink p w f = s.onPort p (fun q => { q with link := f q.link }) := if_pos hp

theorem State.sendOn_native (hp : p < 32) (w : Nat) (pkts : List (List Byte)) :
    s.sendOn p w pkts = s.onPort p (fun q => q.sendPackets s.belay.count pkts) := if_pos hp

theorem State.linkCount_native (hp : p < 32) (w i n : Nat) : s.linkCount p w i n = s.bump (portCounter p i) noUnit n := if_pos hp

theorem State.controlPacket_native (hp : p < 32) (w type : Nat) (payload : List Byte) :
    s.controlPacket p w type payload = toPeer s p type payload := by
  rw [State.controlPacket, if_pos hp, toPeer]

theorem linkSource_native (hp : p < 32) (w : Nat) : linkSource p w = source 8 p := if_pos hp

theorem linksOf_native (hp : p < 32) : linksOf p = [0] := if_pos hp

/-! ### The link of a carriage path -/

theorem State.link_carriage (hp : 32 ≤ p) (w : Nat) : s.link p w = s.path (p - 32) w := if_neg (Nat.not_lt.2 hp)

theorem State.onLink_carriage (hp : 32 ≤ p) (w : Nat) (f : Link → Link) : s.onLink p w f = s.onPath (p - 32) w f :=
  if_neg (Nat.not_lt.2 hp)

theorem State.sendOn_carriage (hp : 32 ≤ p) (w : Nat) (pkt : List Byte) : s.sendOn p w [pkt] = s.sendFrame (p - 32) w pkt := by
  rw [State.sendOn, if_neg (Nat.not_lt.2 hp), List.foldl_cons, List.foldl_nil]

theorem State.onLink_self {w : Nat} {f : Link → Link} (h : f (s.link p w) = s.link p w) : s.onLink p w f = s := by
  by_cases hp : p < 32
  · rw [State.link_native hp] at h
    rw [State.onLink_native hp]
    exact State.onPort_self (congrArg (fun l => { s.port p with link := l }) h)
  · rw [State.link_carriage (Nat.not_lt.1 hp)] at h
    rw [State.onLink_carriage (Nat.not_lt.1 hp)]
    exact State.onPath_self h

/-! ### A packet that waits -/

/-- The credit that a packet's room frees is owed on a link: it changes nothing else (R325). -/
theorem State.owe_belay (s : State) (p : Nat) (pkt : List Byte) : (s.owe p pkt).belay = s.belay := by
  unfold State.owe
  dsimp only
  split
  · rfl
  · split <;> rfl

theorem received_of_waits {pkt : List Byte} {type : Nat} (h : Waits s p pkt type) (run : State → State) :
    s.received p pkt type run = run (Received s p pkt) := by
  have htake : s.takeRx p pkt type = some (Received s p pkt) := if_pos h
  rw [State.received, htake]

theorem received_of_arrives {pkt : List Byte} {type : Nat} {h : PktHead} (ha : Arrives s u p pkt type h) (run : State → State) :
    s.received p pkt type run = run u := by
  obtain ⟨hw, rfl, -⟩ := ha
  exact received_of_waits hw run

theorem belay_of_arrives {pkt : List Byte} {type : Nat} {h : PktHead} (ha : Arrives s u p pkt type h) : u.belay = s.belay := by
  obtain ⟨-, rfl, -⟩ := ha
  exact State.owe_belay ..

end

end Sys2Proof.Machine

/-! Frames of the carriage (R331 to R335). -/

namespace Sys2Proof.Machine

/-! ### The acknowledgement of a link that keeps nothing -/

section
variable {s : State} {p w : Nat}

/-- A link that keeps nothing has nothing for an ACK to free (R307). -/
theorem Link.ack_nothing {l : Link} (h : l.kept = []) (m a now : Nat) : l.ack m a now = l := by simp [Link.ack, h]

/-- Nor for a replay to send again. -/
theorem State.replay_nothing (h : (s.link p w).kept = []) : s.replay p w = s := by simp [State.replay, h]

/-- Where nothing waits for room, nothing goes out when room comes. -/
theorem Port.drain_nothing {q : Port} (h : q.link.txq = []) (tick : Nat) : q.drain tick = q := by
  have hsame : { q.link with txq := [] } = q.link := congrArg (fun x => { q.link with txq := x }) h.symm
  rw [Port.drain, h, Port.sendBodies, hsame]

theorem State.drainLink_nothing (h : (s.link p w).txq = []) : s.drainLink p w = s := by
  by_cases hp : p < 32
  · rw [State.link_native hp] at h
    rw [State.drainLink, if_pos hp, State.onPort_self (Port.drain_nothing h s.count)]
  · rw [State.link_carriage (Nat.not_lt.1 hp)] at h
    have hempty : s.onPath (p - 32) w (fun l => { l with txq := [] }) = s :=
      State.onPath_self (congrArg (fun x => { s.path (p - 32) w with txq := x }) h.symm)
    rw [State.drainLink, if_neg hp]
    simp only [h, hempty, List.foldl_nil]

/-- So an ACK, and a NAK too, changes nothing there. -/
theorem State.unitAck_nothing (hk : (s.link p w).kept = []) (hq : (s.link p w).txq = []) (m a : Nat) (nak : Bool) :
    s.unitAck p w m a nak = s := by
  rw [State.unitAck, State.onLink_self (Link.ack_nothing hk m a s.count), State.drainLink_nothing hq, State.replay_nothing hk, ite_self]

end

/-! ### The order in which a frame is judged -/

section
variable {s : State} {p n : Nat} {bs : List Byte}

/-- A frame that reaches a carriage port whose PHY is UP (R331, R335). -/
theorem State.frameIn_judged (hp : 32 ≤ p) (hup : (s.port p).link.st = .up) (hn : n + 4 = bs.length) : s.frameIn p bs =
    if bytesAt bs n 4 ≠ fcs (bs.take n) then s.bump (portCounter p 2) noUnit 1
    else if be16 bs (etherAt bs) = 0x8808 then s.bump (portCounter p 10) noUnit 1
    else if be16 bs (etherAt bs) = 0x88F7 then s
    else if bs.take 6 ≠ s.mac s.coord (p - 32) then s.bump (portCounter p 9) noUnit 1
    else if be16 bs (etherAt bs) ≠ field (s.reg 0x106000) 15 0 then s.bump (portCounter p 11) noUnit 1
    else s.carriageIn p (be16 bs 8 % 32) ((bs.take n).drop (etherAt bs + 2)) := by
  have hlen : bs.length - 4 = n := by omega
  rw [State.frameIn, hlen]
  exact if_neg (by simp [hup, hp])

/-- A frame of the carriage with PSEQ = E is accepted (R334): its packet waits, and an acknowledgement is owed. -/
theorem State.carriageIn_accepts {w : Nat} {rest : List Byte} (hp : 32 ≤ p) (hlive : (s.path (p - 32) w).live = true)
    (hk : (s.path (p - 32) w).kept = []) (hq : (s.path (p - 32) w).txq = []) (hdata : flag (bytesAt rest 0 8) 33 = false)
    (hseq : field (bytesAt rest 0 8) 15 0 = (s.path (p - 32) w).rxSeq)
    (hgood : packetGood ((rest.drop 8).take (PktHead.parse (rest.drop 8)).total) = true) :
    s.carriageIn p w rest = (s.onPath (p - 32) w (fun l => { l with
        rxSeq := (l.rxSeq + 1) % 65536, errOpen := false, ackOwed := some (l.ackOwed.getD s.belay.count) })).onPort p
      (fun q => { q with rx := q.rx ++ [(rest.drop 8).take (PktHead.parse (rest.drop 8)).total] }) := by
  have hlink := State.link_carriage (s := s) hp w
  simp only [State.carriageIn, hlive, hdata, hseq, State.unitAck_nothing (hlink ▸ hk) (hlink ▸ hq), State.onLink_carriage hp,
    State.takePacket, hgood, Bool.not_true, Bool.false_eq_true, if_false, if_true]
  rfl

/-- ACKONLY_SEND sends the acknowledgement that nothing else has taken along (R334). -/
theorem State.ackOnly_owed {w t : Nat} (hp : 32 ≤ p) (hlive : (s.path (p - 32) w).live = true)
    (howed : (s.path (p - 32) w).ackOwed = some t) :
    s.ackOnly p w = (s.onPort p (fun q => { q with
      wire := q.wire ++ [s.frame (p - 32) w none (s.path (p - 32) w).txSeq (s.path (p - 32) w)] })).onPath (p - 32) w
        (fun l => { l with ackOwed := none, nakDue := false }) := by
  rw [State.ackOnly]
  exact if_neg (by simp [hp, hlive, howed])

end

/-- Settles O45: the tests of a frame in their order; an accepted one finds a path that keeps nothing. -/
theorem carriageFrames : Obligations.CarriageFrames := by
  intro s p n bs _ hn hup
  refine ⟨fun k hp hk => ?_, fun w l rest pkt hp hfcs het hpause hptp hda hw hrest hl hlive hkept hq _ hdata hseq hpkt hgood => ?_,
    fun w l t hp hl hlive howed => ?_⟩
  · refine congrArg (answer s) ((State.frameIn_judged hp hup hn).trans ?_)
    obtain ⟨hfcs, rfl⟩ | ⟨hfcs, hpause, rfl⟩ | ⟨hfcs, hpause, hptp, hda, rfl⟩ | ⟨hfcs, hpause, hptp, hda, het, rfl⟩ := hk
    · rw [if_pos (Ne.symm hfcs)]
    · rw [if_neg (not_not_intro hfcs.symm), if_pos hpause]
    · rw [if_neg (not_not_intro hfcs.symm), if_neg hpause, if_neg hptp, if_pos hda]
    · rw [if_neg (not_not_intro hfcs.symm), if_neg hpause, if_neg hptp, if_neg (not_not_intro hda), if_pos het]
  · subst hw hrest hl hpkt
    refine congrArg (answer s) ((State.frameIn_judged hp hup hn).trans ?_)
    rw [if_neg (not_not_intro hfcs.symm), if_neg hpause, if_neg hptp, if_neg (not_not_intro hda), if_neg (not_not_intro het)]
    exact State.carriageIn_accepts hp hlive hkept hq hdata hseq hgood
  · subst hl
    exact congrArg (answer s) (State.ackOnly_owed hp hlive howed)

end Sys2Proof.Machine

/-! Belay markers and BELAY packets (R311, R312, R388, R389, R394). -/

namespace Sys2Proof.Machine

/-! ### What a port sends (R311, R312) -/

section
variable {s : State} {p : Nat}

/-- A native port whose link is live marks a count that is a multiple of 1,024, once (R311). -/
theorem State.markSend_due {l : Link} (h : OnLink s p l) (hc : s.belay.count % 1024 = 0) (hm : (s.port p).markSent ≠ s.belay.count) :
    s.markSend p = s.onPort p (fun q => { q with
      link := { q.link with nakDue := false }
      markSent := s.belay.count
      wire := q.wire ++ [flitBytes ⟨true, l.nakDue, l.txSeq, l.rxSeq, true⟩ []] }) := by
  obtain ⟨hp, rfl, hlive⟩ := h
  rw [State.markSend]
  refine (if_neg (by simp [State.count, hp, hc, hm, hlive])).trans (State.onPort_congr ?_)
  rfl

/-- At other counts, and a second time, it does not. -/
theorem State.markSend_waits (h : s.belay.count % 1024 ≠ 0 ∨ (s.port p).markSent = s.belay.count) : s.markSend p = s := by
  rw [State.markSend]
  refine if_pos (Or.inr ?_)
  obtain hc | hm := h
  · exact Or.inl hc
  · exact Or.inr (Or.inl hm)

/-- Between marks the next MARK is that of the next multiple of 1,024. -/
theorem State.nextMark_between (h : s.belay.count % 1024 ≠ 0) (p : Nat) : s.nextMark p = (s.belay.count / 1024 + 1) * 1024 :=
  if_neg fun k => h k.1

/-- What a BELAY packet says between marks (R312, R388). -/
def State.belaySays (s : State) : List Byte :=
  leBytes 8 ((s.belay.count / 1024 + 1) * 1024) ++ leBytes 1 (ofBool (s.belay.st == .locked) + 2 * ofBool (s.image.config.belay.role == 2)) ++
    zeros 7

theorem State.belayPacket_between (hp : p < 32) (h : s.belay.count % 1024 ≠ 0) : s.belayPacket p = toPeer s p 0x13 s.belaySays := by
  rw [State.belayPacket, State.controlPacket_native hp, State.nextMark_between h, State.belaySays]

/-- A BELAY packet waits for a slot on an UP port (R312). -/
theorem State.belaySend_up (hp : p < 32) (hl : p < s.ports.length) (hup : (s.port p).link.st = .up) (hc : s.belay.count % 1024 ≠ 0) :
    s.belaySend p = s.onPort p (fun q => { q with belayTick := s.belay.count, control := q.control ++ [toPeer s p 0x13 s.belaySays] }) := by
  have hlive : (s.port p).link.live = true := by simp [Link.live, hup]
  have hpeer : toPeer (s.onPort p (fun q => { q with belayTick := s.belay.count })) p 0x13 s.belaySays = toPeer s p 0x13 s.belaySays := by
    rw [toPeer, State.onPort_port hl]
    rfl
  have hpacket : (s.onPort p (fun q => { q with belayTick := s.belay.count })).belayPacket p = toPeer s p 0x13 s.belaySays :=
    (State.belayPacket_between (s := s.onPort p _) hp hc).trans hpeer
  rw [State.belaySend, if_neg (by simp [hp, hlive])]
  dsimp only [State.count]
  rw [if_pos hup, hpacket, State.onPort_onPort]

end

/-! ### A MARK at the receiver (R389, R394) -/

section
variable {s : State} {p a lam m n : Nat} {v root : Bool} {err : Int}

/-- A MARK of the port that the receiver listens to, from which a BELAY packet has come: it is assigned by position. -/
theorem State.marker_heard (hs : s.power.standby = true) (hl : (s.port p).link.lambda = some lam) (hb : (s.port p).belayRx = some (m, v, root))
    (hmine : (if s.belay.st = .locked then s.belay.cand == p else s.candidates.contains p) = true)
    (hn : n = nearestMark ((a : Int) - lam)) (he : err = (a : Int) - lam - n * 192) :
    s.marker p a =
      if s.belay.st = .locked then
        if n < m ∨ m + 66560 < n then
          { s with belay := { s.belay with discarded := s.belay.discarded + 1, disagree := s.belay.disagree + 1 } }
        else if err.natAbs > 96 then { s with belay := { s.belay with phase := err, badRun := s.belay.badRun + 1, disagree := 0 } }
        else { s with belay := { s.belay with phase := err, badRun := 0, disagree := 0, lastGood := s.belay.count } }
      else { s with belay := { s.belay with phase := err, goodRun := if err.natAbs ≤ 8 then s.belay.goodRun + 1 else 0 } } := by
  subst hn he
  simp only [State.marker, hl, hb, hs, hmine]
  exact if_neg (by simp)

/-- What the receiver notes of a MARK is nothing that the conditions of every step read. -/
theorem exec_belayMarker (hi : Inv s) {b : Belay} (hm : s.marker p a = { s with belay := b }) (hst : b.st = s.belay.st)
    (hc : b.count = s.belay.count) : exec (.belayMarker p a) s = .next { s with belay := b } :=
  (congrArg (answer s) hm).trans (answer_of_eq hi (h9 := hc) (h10 := hst))

end

/-- Settles O46: a port marks, or waits with its BELAY packet; the receiver's cases are those of its state and of the phase error. -/
theorem markersAndBelay : Obligations.MarkersAndBelay := by
  refine ⟨fun s p l pkt hl => ⟨fun h => ⟨fun hc hm => ?_, fun hw hi => ?_, fun hup hc => ?_⟩, fun hw => ?_⟩,
    fun s p a lam m n v root err hi hs hlam hrx hn he => ⟨fun hst hcand => ⟨fun hout => ?_, fun hlo hhi =>
      ⟨fun hgood => ?_, fun hbad => ?_⟩⟩,
      fun hst hcand => ?_⟩⟩
  · exact congrArg (answer s) (State.markSend_due h hc hm)
  · exact (congrArg (answer s) (State.markSend_waits hw)).trans (answer_self s hi)
  · obtain ⟨hp, rfl, -⟩ := h
    exact congrArg (answer s) (State.belaySend_up hp hl hup hc)
  · exact congrArg (answer s) (received_of_waits hw _)
  · have hheard := State.marker_heard hs hlam hrx (by simp [hst, hcand]) hn he
    rw [if_pos hst, if_pos hout] at hheard
    exact exec_belayMarker hi hheard rfl rfl
  · have hheard := State.marker_heard hs hlam hrx (by simp [hst, hcand]) hn he
    rw [if_pos hst, if_neg (by omega), if_neg (by omega)] at hheard
    exact exec_belayMarker hi hheard rfl rfl
  · have hheard := State.marker_heard hs hlam hrx (by simp [hst, hcand]) hn he
    rw [if_pos hst, if_neg (by omega), if_pos hbad] at hheard
    exact exec_belayMarker hi hheard rfl rfl
  · have hheard := State.marker_heard hs hlam hrx (by simpa [hst] using hcand) hn he
    rw [if_neg hst] at hheard
    exact exec_belayMarker hi hheard rfl rfl

end Sys2Proof.Machine

/-! Credits (R325), and the ground packet that takes an unused slot (R319, R322, R329, R330). -/

namespace Sys2Proof.Machine

/-! ### Bytes of a number -/

theorem leNat_take (n : Nat) (bs : List Byte) : leNat (bs.take n) = leNat bs % 256 ^ n := by
  induction n generalizing bs with
  | zero => simp [leNat, Nat.mod_one]
  | succ n ih =>
    cases bs with
    | nil => simp [leNat]
    | cons b bs =>
      have hb : b.toNat < 256 := b.isLt
      rw [List.take_succ_cons, leNat, leNat, ih, Nat.pow_succ', Nat.mod_mul, Nat.add_mul_mod_self_left, Nat.mod_eq_of_lt hb,
        Nat.add_mul_div_left _ _ (by omega), Nat.div_eq_of_lt hb, Nat.zero_add]

theorem leNat_drop (n : Nat) (bs : List Byte) : leNat (bs.drop n) = leNat bs / 256 ^ n := by
  induction n generalizing bs with
  | zero => simp
  | succ n ih =>
    cases bs with
    | nil => simp [leNat]
    | cons b bs =>
      have hb : b.toNat < 256 := b.isLt
      rw [List.drop_succ_cons, ih, leNat, Nat.pow_succ', ← Nat.div_div_eq_div_mul, Nat.add_mul_div_left _ _ (by omega),
        Nat.div_eq_of_lt hb, Nat.zero_add]

/-- Bytes of a structure, as digits of the number that its bytes spell (R5). -/
theorem bytesAt_eq (bs : List Byte) (lo len : Nat) : bytesAt bs lo len = leNat bs / 256 ^ lo % 256 ^ len := by
  rw [bytesAt, leNat_take, leNat_drop]

theorem field_eq (w hi lo : Nat) : field w hi lo = w / 2 ^ lo % 2 ^ (hi - lo + 1) := by rw [field, Nat.shiftRight_eq_div_pow]

/-- The three counts of a CREDIT packet are 16 bits each of its payload (Table 9-4). -/
theorem credit_fields (pay : List Byte) : field (bytesAt pay 0 8) 15 0 = bytesAt pay 0 2 ∧ field (bytesAt pay 0 8) 31 16 = bytesAt pay 2 2 ∧
    field (bytesAt pay 0 8) 47 32 = bytesAt pay 4 2 := by
  simp only [field_eq, bytesAt_eq]
  omega

/-! ### Credits (R325) -/

section
variable {s : State} {p : Nat}

/-- Returned credit is added to each channel. -/
theorem State.creditIn_native (hp : p < 32) (pkt : List Byte) : s.creditIn p pkt = s.onPort p (fun q => { q with link := { q.link with
    credits := [nth q.link.credits 0 0 + bytesAt (packetPayload pkt) 0 2, nth q.link.credits 1 0 + bytesAt (packetPayload pkt) 2 2,
      nth q.link.credits 2 0 + bytesAt (packetPayload pkt) 4 2] } }) := by
  obtain ⟨h0, h1, h2⟩ := credit_fields (packetPayload pkt)
  simp only [State.creditIn, State.onLink_native hp, h0, h1, h2]

/-- The test of CREDIT_SEND on a native port. -/
theorem State.creditSend_native {l : Link} {a b c : Nat} (h : OnLink s p l) (ho : l.owed = [a, b, c]) : s.creditSend p =
    if a + b + c ≠ 0 ∧ (16 ≤ a + b + c ∨ l.creditTick + 256 ≤ s.belay.count) then
      let pkt := toPeer s p 0x14 (leBytes 2 a ++ leBytes 2 b ++ leBytes 2 c ++ zeros 2)
      let s := s.onPort p (fun q => { q with link := { q.link with owed := [0, 0, 0], creditTick := s.belay.count } })
      if l.st = .up then s.onPort p (fun q => { q with control := q.control ++ [pkt] }) else s.sendOn p 0 [pkt]
    else s := by
  obtain ⟨hp, rfl, hlive⟩ := h
  have hsum : sumNat [a, b, c] = a + b + c := by simp [sumNat]
  simp only [State.creditSend, linksOf_native hp, List.foldl_cons, List.foldl_nil, State.link_native hp, State.onLink_native hp,
    State.controlPacket_native hp, hlive, ho, hsum, nth, List.getD_cons_zero, List.getD_cons_succ, ge_iff_le, true_and]
  rfl

/-- What is owed is returned, and waits for a slot on an UP port. -/
theorem State.creditSend_due {l : Link} {a b c : Nat} (h : OnLink s p l) (ho : l.owed = [a, b, c]) (hup : l.st = .up)
    (h0 : a + b + c ≠ 0) (hd : 16 ≤ a + b + c ∨ l.creditTick + 256 ≤ s.belay.count) :
    s.creditSend p = s.onPort p (fun q => { q with
      link := { q.link with owed := [0, 0, 0], creditTick := s.belay.count }
      control := q.control ++ [toPeer s p 0x14 (leBytes 2 a ++ leBytes 2 b ++ leBytes 2 c ++ zeros 2)] }) := by
  rw [State.creditSend_native h ho, if_pos ⟨h0, hd⟩]
  dsimp only
  rw [if_pos hup, State.onPort_onPort]

/-- Where nothing is owed, or little and not for long, nothing is sent. -/
theorem State.creditSend_waits {l : Link} {a b c : Nat} (h : OnLink s p l) (ho : l.owed = [a, b, c])
    (hw : a + b + c = 0 ∨ (a + b + c < 16 ∧ s.belay.count < l.creditTick + 256)) : s.creditSend p = s := by
  rw [State.creditSend_native h ho, if_neg (by omega)]

end

/-! ### The round robins of one packet (R329, R330) -/

/-- A single input whose deficit covers its packet is served. -/
theorem drrPick_now (fuel : Nat) {e : DrrEnt} (h : e.need ≤ e.deficit) :
    drrPick (fuel + 1) [e] = some (e.key, [{ e with deficit := e.deficit - e.need }]) := by simp [drrPick, h]

/-- One whose deficit does not gets its quantum. -/
theorem drrPick_later (fuel : Nat) {e : DrrEnt} (h : ¬ e.need ≤ e.deficit) :
    drrPick (fuel + 1) [e] = drrPick fuel [{ e with deficit := e.deficit + e.quantum }] := by
  rw [drrPick]; simp [h]

/-- So it is served as soon as its quanta cover its packet. -/
theorem drrPick_single (fuel : Nat) (e : DrrEnt) (h : e.need ≤ e.deficit + fuel * e.quantum) :
    ∃ es, drrPick (fuel + 1) [e] = some (e.key, es) := by
  by_cases hnow : e.need ≤ e.deficit
  · exact ⟨_, drrPick_now fuel hnow⟩
  · cases fuel with
    | zero => omega
    | succ fuel =>
      obtain ⟨es, hes⟩ := drrPick_single fuel { e with deficit := e.deficit + e.quantum } (by simp only [Nat.succ_mul] at h; simp only; omega)
      exact ⟨es, (drrPick_later _ hnow).trans hes⟩

/-- The 20 rounds of an arbiter serve a packet of at most 4,144 bytes where the weight is not 0. -/
theorem drrPick_serves (key deficit : Nat) {weight need : Nat} (hw : weight ≠ 0) (hn : need ≤ 4144) :
    ∃ es, drrPick 20 [⟨key, deficit, 256 * weight, need⟩] = some (key, es) :=
  drrPick_single 19 _ (by simp only; omega)

/-- A weight is at least 1 (R329). -/
theorem Port.weight_ne_zero (q : Port) (i : Nat) : q.weight i ≠ 0 := by
  unfold Port.weight
  split <;> exact Nat.ne_of_gt (Nat.le_max_left 1 _)

section
variable {s : State} {p : Nat}

/-- The one VC3 packet that waits, with its credit, is the next of its class. -/
theorem State.nextGround_single {g : GroundPkt} (hg : (s.port p).ground = [g]) (hc : s.creditFor p g.bytes = true)
    (hn : roundUp g.bytes.length 8 ≤ 4144) : ∃ es, s.nextGround p = some (g, es) := by
  have hheads : s.groundHeads p =
      [(⟨g.arbInput, (s.port p).deficit g.arbInput, 256 * (s.port p).weight g.arbInput, roundUp g.bytes.length 8⟩, g)] := by
    simp [State.groundHeads, hg, hc, List.eraseDups_cons]
  obtain ⟨es, hes⟩ := drrPick_serves g.arbInput ((s.port p).deficit g.arbInput) ((s.port p).weight_ne_zero g.arbInput) hn
  exact ⟨es, by simp [State.nextGround, hheads, hes]⟩

/-- No VC3 packet waits. -/
theorem State.nextGround_none (hg : (s.port p).ground = []) : s.nextGround p = none := by
  simp [State.nextGround, State.groundHeads, hg, drrPick]

/-- The deficits of the two classes after a turn (R330). -/
def classDeficits (es : List DrrEnt) : List Nat := [3, 4].map fun i => ((es.find? (fun e => e.key == i)).map (·.deficit)).getD 0

/-- Where VC3 alone has a packet, it has the turn (R330). -/
theorem State.groundSend_vc3 {g : GroundPkt} {es : List DrrEnt} (hv : s.nextGround p = some (g, es)) (hc : (s.port p).control = [])
    (hn : roundUp g.bytes.length 8 ≤ 4144) (hw : field (s.reg (0x100010 + 0x100 * p)) 7 0 ≠ 0) :
    ∃ ds, s.groundSend p =
      if s.mayStart p g.bytes.length then (s.onPort p (fun q => { q with deficits := ds })).sendVc3 p g es else s := by
  obtain ⟨es', hes⟩ := drrPick_serves 3 (nth (s.port p).deficits 0 0) hw hn
  refine ⟨classDeficits es', ?_⟩
  simp only [State.groundSend, hv, hc, List.append_nil, hes, if_true]
  rfl

/-- Where VC4 alone has a packet, it has the turn. -/
theorem State.groundSend_vc4 {b : List Byte} (hg : (s.port p).ground = []) (hc : (s.port p).control = [b]) (hcr : s.creditFor p b = true)
    (hn : roundUp b.length 8 ≤ 4144) (hw : field (s.reg (0x100010 + 0x100 * p)) 15 8 ≠ 0) :
    ∃ ds, s.groundSend p = if s.mayStart p b.length then (s.onPort p (fun q => { q with deficits := ds })).sendVc4 p b else s := by
  obtain ⟨es', hes⟩ := drrPick_serves 4 (nth (s.port p).deficits 1 0) hw hn
  refine ⟨classDeficits es', ?_⟩
  simp only [State.groundSend, State.nextGround_none hg, hc, hcr, if_true, List.nil_append, hes]
  rfl

/-- Where nothing waits, nothing is sent. -/
theorem State.groundSend_idle (hg : (s.port p).ground = []) (hc : (s.port p).control = []) : s.groundSend p = s := by
  simp [State.groundSend, State.nextGround_none hg, hc, drrPick]

/-- VC3's packet leaves with the FAN of the port, whatever the deficits of the classes. -/
theorem State.sendVc3_single {g : GroundPkt} (hl : p < s.ports.length) (hg : (s.port p).ground = [g]) (ds : List Nat) (es : List DrrEnt) :
    (s.onPort p (fun q => { q with deficits := ds })).sendVc3 p g es =
      State.groundOut (s.onPort p (fun q => ({ q with ground := [], deficits := ds } : Port).setDeficits es)) p
        (packetBytes { PktHead.parse g.bytes with fan := Nat.min 255 ((s.port p).activeWeight s.belay.count) }
          (extBytes g.bytes (PktHead.parse g.bytes)) (packetPayload g.bytes)) := by
  have hfan : ((s.onPort p (fun q => { q with deficits := ds })).port p).activeWeight s.belay.count =
      (s.port p).activeWeight s.belay.count := by rw [State.onPort_port hl]; rfl
  have hleft : (s.onPort p (fun q => { q with deficits := ds })).onPort p
      (fun q => ({ q with ground := q.ground.erase g } : Port).setDeficits es) =
      s.onPort p (fun q => ({ q with ground := [], deficits := ds } : Port).setDeficits es) := by
    rw [State.onPort_onPort]
    exact State.onPort_congr (by simp [hg])
  unfold State.sendVc3
  dsimp only [State.count, State.onPort_belay]
  rw [hfan, hleft]

/-- VC4's packet leaves as it is where it is no BELAY packet. -/
theorem State.sendVc4_single {b : List Byte} (hc : (s.port p).control = [b]) (hb : bytesAt b 0 1 % 32 ≠ 0x13) (ds : List Nat) :
    (s.onPort p (fun q => { q with deficits := ds })).sendVc4 p b =
      State.groundOut (s.onPort p (fun q => { q with control := [], deficits := ds })) p b := by
  have hleft : (s.onPort p (fun q => { q with deficits := ds })).onPort p (fun q => { q with control := q.control.erase b }) =
      s.onPort p (fun q => { q with control := [], deficits := ds }) := by
    rw [State.onPort_onPort]
    exact State.onPort_congr (by simp [hc])
  unfold State.sendVc4
  dsimp only
  rw [if_neg hb, hleft]

end

/-- Settles O44: credits are added and returned as counted; the one packet that waits has its turn, whatever the deficits. -/
theorem creditsAndGroundSlots : Obligations.CreditsAndGroundSlots := by
  refine ⟨fun s u p pkt pay h hp _ hpay => ⟨fun ha => ?_, fun l a b c hl ho => ⟨fun hup h0 hd => ?_, fun hw hi => ?_⟩⟩,
    fun s p _ hl => ⟨fun g hg hc hcr hn hw => ?_, fun b hc hg hcr hn hb hw => ?_, fun hc hg hi => ?_⟩⟩
  · subst hpay
    exact congrArg (answer s) ((received_of_arrives ha _).trans (State.creditIn_native hp pkt))
  · exact congrArg (answer s) (State.creditSend_due hl ho hup h0 hd)
  · exact (congrArg (answer s) (State.creditSend_waits hl ho hw)).trans (answer_self s hi)
  · obtain ⟨es, hv⟩ := State.nextGround_single hg hcr hn
    obtain ⟨ds, hsend⟩ := State.groundSend_vc3 hv hc hn hw
    refine ⟨fun hm => ⟨ds, es, ?_⟩, fun hm hi => ?_⟩
    · exact congrArg (answer s) (hsend.trans ((if_pos hm).trans (State.sendVc3_single hl hg ds es)))
    · exact (congrArg (answer s) (hsend.trans (if_neg (by simp [hm])))).trans (answer_self s hi)
  · obtain ⟨ds, hsend⟩ := State.groundSend_vc4 hg hc hcr hn hw
    refine ⟨fun hm => ⟨ds, ?_⟩, fun hm hi => ?_⟩
    · exact congrArg (answer s) (hsend.trans ((if_pos hm).trans (State.sendVc4_single hc hb ds)))
    · exact (congrArg (answer s) (hsend.trans (if_neg (by simp [hm])))).trans (answer_self s hi)
  · exact (congrArg (answer s) (State.groundSend_idle hg hc)).trans (answer_self s hi)

end Sys2Proof.Machine

/-! Training and the states of a port (R309, R336 to R339, R389, Table 9-9). -/

namespace Sys2Proof.Machine

/-! ### IDENT (R337) -/

theorem arrivalAxis_mesh {p : Nat} (h : 2 ≤ p % 4) : arrivalAxis p = none := if_neg (by omega)

theorem arrivalAxis_ring {p : Nat} (hp : p < 32) (h : p % 4 < 2) : arrivalAxis p = some (if p < 16 then 1 else 2, p % 4 == 1) :=
  if_pos ⟨hp, h⟩

section
variable {u : State} {p : Nat} {pay : List Byte}

/-- An IDENT of another version (R337). -/
theorem State.identCheck_version (h : bytesAt pay 4 1 ≠ 1) : u.identCheck p pay = .error 6 := if_pos h

/-- An IDENT of this package on a port that is not auxiliary. -/
theorem State.identCheck_self (hv : bytesAt pay 4 1 = 1) (hp : p < 30) (hc : bytesAt pay 0 2 = u.coord) : u.identCheck p pay = .error 5 := by
  rw [State.identCheck]
  exact (if_neg (by omega)).trans ((if_neg (by omega)).trans (if_pos hc))

/-- On an N port the peer is the package that the port's number names (R32, R337). -/
theorem State.identCheck_mesh (hv : bytesAt pay 4 1 = 1) (hp : p < 30) (hc : bytesAt pay 0 2 ≠ u.coord) (hm : 2 ≤ p % 4)
    (hport : bytesAt pay 2 1 % 64 = p) (hax : onlyAxis u.coord (bytesAt pay 0 2) 0 = true)
    (hn : nth (coordAxes (bytesAt pay 0 2)) 0 0 = nth (coordAxes u.coord) 0 0 ^^^ (p / 4 + 1)) (hbr : bytesAt pay 3 1 % 16 = 0) :
    u.identCheck p pay = .ok 0 := by
  have haux : ¬(p = 30 ∨ p = 31) := by omega
  have hnative : p < 32 := by omega
  simp only [State.identCheck, hv, haux, hc, arrivalAxis_mesh hm, hnative, hport, hax, hn, hbr, not_true_eq_false, ne_eq, if_false, if_true,
    and_self]

/-- On a ring port the packages between are those passed and the bridges (R337). -/
theorem State.identCheck_ring (hv : bytesAt pay 4 1 = 1) (hp : p < 30) (hc : bytesAt pay 0 2 ≠ u.coord) {i passed : Nat} {odd : Bool}
    (ha : arrivalAxis p = some (i, odd)) (hport : bytesAt pay 2 1 % 64 = if odd then p - 1 else p + 1)
    (hax : onlyAxis u.coord (bytesAt pay 0 2) i = true)
    (hd : (if odd then ringDist (nth u.image.config.extents i 1) (nth (coordAxes (bytesAt pay 0 2)) i 0) (nth (coordAxes u.coord) i 0)
      else ringDist (nth u.image.config.extents i 1) (nth (coordAxes u.coord) i 0) (nth (coordAxes (bytesAt pay 0 2)) i 0)) =
        passed + 1 + bytesAt pay 3 1 % 16) : u.identCheck p pay = .ok passed := by
  have haux : ¬(p = 30 ∨ p = 31) := by omega
  have hroom : passed + 1 + bytesAt pay 3 1 % 16 ≥ 1 + bytesAt pay 3 1 % 16 := by omega
  have hpassed : passed + 1 + bytesAt pay 3 1 % 16 - 1 - bytesAt pay 3 1 % 16 = passed := by omega
  simp only [State.identCheck, hv, haux, hc, ha, hport, hax, hd, hroom, hpassed, not_true_eq_false, ne_eq, if_false, and_self, if_true]

/-- A native link that fails (Table 9-9). -/
theorem State.failLink_native (hp : p < 32) (w cause : Nat) : u.failLink p w cause = PortFails u p cause := by
  rw [State.failLink, State.onLink_native hp, linkSource_native hp]
  rfl

variable {pkt : List Byte}

/-- An IDENT that breaks R337: the peer is noted, and the port fails. -/
theorem State.identIn_fails (hp : p < 32) (hst : (u.port p).link.st = .ident) {e : Nat} (he : u.identCheck p (packetPayload pkt) = .error e) :
    u.identIn p pkt = State.raise (u.onPort p (fun q => { q with link :=
      { ({ q.link with peer := bytesAt (packetPayload pkt) 0 2, bridges := bytesAt (packetPayload pkt) 3 1 % 16 } : Link).restart .failed with
        fail := e, failTick := u.belay.count } })) 0x03 (source 8 p) 0 4 e := by
  simp only [State.identIn, State.link_native hp, hst, not_true_eq_false, ne_eq, if_false, he, State.failLink_native hp,
    State.onLink_native hp, PortFails, State.onPort_onPort]
  rfl

/-- An IDENT that R337 allows: the peer is noted, and 16 probes go out (R338). -/
theorem State.identIn_measures (hp : p < 32) (hst : (u.port p).link.st = .ident) {passed : Nat}
    (he : u.identCheck p (packetPayload pkt) = .ok passed) {x : State}
    (hx : x = u.onPort p (fun q => { q with link := { q.link with
      peer := bytesAt (packetPayload pkt) 0 2, bridges := bytesAt (packetPayload pkt) 3 1 % 16, passed := passed, st := .measure
      probes := [] } })) :
    u.identIn p pkt =
      x.onPort p (fun q => q.sendPackets u.belay.count (List.replicate 16 (toPeer x p 0x11 (leBytes 8 (6 * u.belay.count))))) := by
  simp only [State.identIn, State.link_native hp, hst, not_true_eq_false, ne_eq, if_false, he, State.onLink_native hp]
  rw [← hx, State.sendOn_native hp, List.map_const', List.length_range, State.controlPacket_native hp, hx]
  rfl

/-! ### MEASURE (R338, R389) -/

/-- A probe is answered with its own bytes and the cycles that it was held. -/
theorem State.measureIn_native (hp : p < 32) (hlive : (u.port p).link.live = true) (held : Nat) : u.measureIn p pkt held =
    u.onPort p (fun q => q.sendPackets u.belay.count [toPeer u p 0x12 ((packetPayload pkt).take 8 ++ leBytes 4 held)]) := by
  simp only [State.measureIn, State.link_native hp, hlive, State.sendOn_native hp, State.controlPacket_native hp, Bool.not_true,
    Bool.false_eq_true, if_false]

variable {cycle : Nat} {xs : List Nat}

/-- An answer before the sixteenth is kept. -/
theorem State.replyIn_more (hp : p < 32) (hst : (u.port p).link.st = .measure)
    (hxs : xs = (u.port p).link.probes ++ [cycle - bytesAt (packetPayload pkt) 0 8 - bytesAt (packetPayload pkt) 8 4]) (hn : xs.length < 16) :
    u.replyIn p pkt cycle = u.onPort p (fun q => { q with link := { q.link with probes := xs } }) := by
  simp only [State.replyIn, State.link_native hp, hst, not_true_eq_false, ne_eq, if_false, ← hxs, hn, if_true, State.onLink_native hp]

/-- The sixteenth answer gives h_m and λ, and with them the end of the measurement. -/
theorem State.replyIn_last (hp : p < 32) (hst : (u.port p).link.st = .measure)
    (hxs : xs = (u.port p).link.probes ++ [cycle - bytesAt (packetPayload pkt) 0 8 - bytesAt (packetPayload pkt) 8 4])
    (hn : 16 ≤ xs.length) {hm : Nat} (hhm : hm = maxNat (xs.map (fun x => ceilDiv x 12))) : u.replyIn p pkt cycle =
      if u.pricking.head.portHop p < hm ∨ 326 < hm then
        State.raise (u.onPort p (fun q => { q with link :=
          { ({ q.link with probes := xs, hm := hm, lambda := some (sumNat xs) } : Link).restart .failed with
            fail := 7, failTick := u.belay.count } })) 0x03 (source 8 p) 0 4 7
      else u.onPort p (fun q => { q with link := { q.link with
        probes := xs, hm := hm, lambda := some (sumNat xs), st := .up, replays := 0, credits := [256, 256, 64], owed := [0, 0, 0]
        creditTick := u.belay.count } }) := by
  have hlast : ¬ xs.length < 16 := by omega
  have hprobes : probesHm xs = hm := hhm.symm
  simp only [State.replyIn, State.link_native hp, hst, not_true_eq_false, ne_eq, if_false, ← hxs, hlast, hp, if_true, hprobes,
    State.onLink_native hp, State.failLink_native hp, PortFails, State.onPort_onPort, probesLambda]
  rfl

end

/-! ### The ends of the states (R309, R336, R339) -/

section
variable {s : State} {p : Nat}

/-- A port that leaves UP for a cause of Table 13-1 is counted, and raises its LINK-DOWN cairn. -/
theorem State.leaveUp_caused (h : (s.port p).link.st = .up) (st : PortSt) {cause : Nat} (hc : cause ≠ 0) : s.leaveUp p st cause =
    State.raise (State.bump (PortTo s p st) (portCounter p 6) noUnit 1) 0x03 (source 8 p) 0 cause 0 :=
  (if_neg (fun k => k h)).trans (if_neg hc)

theorem State.pmdDone_training (h : (s.port p).link.st = .pmd) : s.pmdDone p .trained = PortTo s p .frame ∧ s.pmdDone p .noSignal = PortFails s p 1 ∧
    s.pmdDone p .timeout = PortFails s p 2 :=
  ⟨if_neg (fun k => k h), if_neg (fun k => k h), if_neg (fun k => k h)⟩

/-- No lock (R336). -/
theorem State.lockDone_failed (h : (s.port p).link.st = .frame) : s.lockDone p false = PortFails s p 3 := if_neg (fun k => k h)

/-- A native port that finds lock sends its IDENT. -/
theorem State.lockDone_native (hp : p < 32) (hl : p < s.ports.length) (h : (s.port p).link.st = .frame) : s.lockDone p true =
    (PortTo s p .ident).onPort p (fun q => q.sendPackets s.belay.count
      [toPeer s p 0x10 (leBytes 2 s.coord ++ leBytes 1 p ++ zeros 1 ++ leBytes 1 1 ++ zeros 11)]) := by
  have hpacket : (PortTo s p .ident).identPacket p 0 = toPeer s p 0x10 (leBytes 2 s.coord ++ leBytes 1 p ++ zeros 1 ++ leBytes 1 1 ++ zeros 11) := by
    rw [State.identPacket, State.controlPacket_native hp, toPeer, PortTo, State.onPort_port hl]
    rfl
  have henter : s.lockDone p true = (PortTo s p .ident).sendOn p 0 [(PortTo s p .ident).identPacket p 0] := by
    rw [State.lockDone, if_neg (fun k => k h), if_neg (by simp), if_pos hp, State.enterIdent, State.onLink_native hp]
    rfl
  rw [henter, hpacket, State.sendOn_native hp]
  rfl

theorem State.loseLock_training (h : (s.port p).link.st = .ident ∨ (s.port p).link.st = .measure) : s.loseLock p = PortTo s p .frame := by
  have hlive : (s.port p).link.live = true := by obtain h | h := h <;> simp [Link.live, h]
  rw [State.loseLock, if_pos hlive, State.leaveUp_down (by obtain h | h := h <;> simp [h])]

theorem State.loseLock_up (h : (s.port p).link.st = .up) : s.loseLock p =
    State.raise (State.bump (PortTo s p .frame) (portCounter p 6) noUnit 1) 0x03 (source 8 p) 0 2 0 := by
  rw [State.loseLock, if_pos (by simp [Link.live, h]), State.leaveUp_caused h .frame (by omega)]

theorem State.loseSignal_training (h : (s.port p).link.st = .frame ∨ (s.port p).link.st = .ident ∨ (s.port p).link.st = .measure) :
    s.loseSignal p = PortTo s p .pmd := by
  have hlive : (s.port p).link.live = true ∨ (s.port p).link.st = .frame := by obtain h | h | h := h <;> simp [Link.live, h]
  rw [State.loseSignal, if_pos hlive, State.leaveUp_down (by obtain h | h | h := h <;> simp [h])]

theorem State.loseSignal_up (h : (s.port p).link.st = .up) : s.loseSignal p =
    State.raise (State.bump (PortTo s p .pmd) (portCounter p 6) noUnit 1) 0x03 (source 8 p) 0 2 0 := by
  rw [State.loseSignal, if_pos (by simp [Link.live, h]), State.leaveUp_caused h .pmd (by omega)]

/-- A FAILED port tries again after 25,000,000 ticks, and not sooner (Table 9-9). -/
theorem State.retryFailed_failed (h : (s.port p).link.st = .failed) (w : Nat) : s.retryFailed p w =
    if (s.port p).link.failTick + 25000000 ≤ s.belay.count then PortTo s p .pmd else s := if_pos h

end

/-! ### Ports and paths through `settle` -/

section
variable {e : State} {p : Nat}

/-- What `settle` does before the ports changes nothing that training reads. -/
theorem State.unconformed_mayTrain (e : State) (p : Nat) : e.report.sendOwed.conformPins.countOff.mayTrain p = e.mayTrain p := by
  have hfenced (i : Nat) : (e.report.sendOwed.conformPins.countOff.slice i).fenced = (e.slice i).fenced := by
    rw [← State.settle_fenced e i, State.settle, State.slice, State.slice, State.conformPorts_slices]
  exact State.mayTrain_congr _ _ p (by simp) (by simp) hfenced (by simp) (by simp [State.report_mgmt]) (by simp [State.port])
    (by simp [State.port]) (by simp) (by simp)

/-- A port that may train, and is not OFF, is left as it is. -/
theorem State.settle_port (hl : p < e.ports.length) (hm : e.mayTrain p = true) (hst : (e.port p).link.st ≠ .off) :
    e.settle.port p = e.port p := by
  have hports : e.report.sendOwed.conformPins.countOff.ports = e.ports := by simp
  have hport : e.report.sendOwed.conformPins.countOff.port p = e.port p := by simp [State.port]
  have hconform : e.settle.port p = (e.port p).conform true := by
    rw [← hm, ← hport, ← State.unconformed_mayTrain e p]
    exact State.conformPorts_port _ p (by rw [hports]; exact hl)
  rw [hconform, Port.conform, if_pos rfl, if_neg hst]

/-- A path that may be up, and is not OFF, is left as it is. -/
theorem State.settle_path {n w : Nat} (hl : 32 * n + w < e.paths.length) (hw : w < 32) (hup : (e.settle.port (32 + n)).link.st = .up)
    (hc : e.pathCabled w = true) (hst : (e.path n w).st ≠ .off) : e.settle.path n w = e.path n w := by
  have hpaths : e.report.sendOwed.conformPins.countOff.paths = e.paths := by simp
  have hcable : e.report.sendOwed.conformPins.countOff.pathCabled w = e.pathCabled w := by
    have himg : e.report.sendOwed.conformPins.countOff.img = e.img := by simp
    have hcoord : e.report.sendOwed.conformPins.countOff.mgmt.coord = e.mgmt.coord := by simp [State.report_mgmt]
    rw [State.pathCabled, State.coord, State.image, himg, hcoord]
    rfl
  have hmod : (32 * n + w) % 32 = w := by omega
  have hdiv : (32 * n + w) / 32 = n := by omega
  have hconform : e.settle.path n w = (e.path n w).conformPath true := by
    have hi : 32 * n + w < e.report.sendOwed.conformPins.countOff.paths.length := by rw [hpaths]; exact hl
    have hmay : (decide ((e.settle.port (32 + (32 * n + w) / 32)).link.st = .up) &&
        e.report.sendOwed.conformPins.countOff.pathCabled ((32 * n + w) % 32)) = true := by
      rw [hmod, hdiv, hcable, hc, hup]
      rfl
    unfold State.path
    rw [← hmay, ← hpaths, getD_eq _ _ _ hi]
    exact (getD_eq _ _ _ (by simpa [State.settle, State.conformPorts] using hi)).trans List.getElem_mapIdx
  rw [hconform, Link.conformPath, if_pos rfl, if_neg hst]

end

/-! ### Lock on a carriage port (R336) -/

/-- What training reads of a port. -/
def Port.training (q : Port) : Link × Bool × List Window := (q.link, q.disable, q.windows)

/-- A state but for its paths, and for what training does not read of the ports. -/
def State.training (s : State) : State × List (Link × Bool × List Window) := ({ s with ports := [], paths := [] }, s.ports.map Port.training)

theorem State.training_port {s t : State} (h : t.training = s.training) (p : Nat) : (t.port p).training = (s.port p).training := by
  have hports : t.ports.map Port.training = s.ports.map Port.training := congrArg Prod.snd h
  have hget := congrArg (fun l => l.getD p Port.reset.training) hports
  simpa only [State.port, List.getD_eq_getElem?_getD, List.getElem?_map, Option.getD_map] using hget

theorem State.training_length {s t : State} (h : t.training = s.training) : t.ports.length = s.ports.length := by
  have hports : t.ports.map Port.training = s.ports.map Port.training := congrArg Prod.snd h
  simpa using congrArg List.length hports

theorem State.training_mayTrain {s t : State} (h : t.training = s.training) (p : Nat) : t.mayTrain p = s.mayTrain p := by
  have hs : ({ t with ports := [], paths := [] } : State) = { s with ports := [], paths := [] } := congrArg Prod.fst h
  have hport := State.training_port h p
  refine State.mayTrain_congr s t p ?_ ?_ (fun i => ?_) ?_ ?_ (congrArg (fun x => x.2.1) hport) (congrArg (fun x => x.2.2) hport) ?_ ?_
  · have k := congrArg State.power hs; exact k
  · have k := congrArg (fun x => x.req.waking) hs; exact k
  · have k := congrArg (fun x => (x.slice i).fenced) hs; exact k
  · have k := congrArg State.img hs; exact k
  · have k := congrArg (fun x => x.mgmt.coord) hs; exact k
  · have k := congrArg State.brides hs; exact k
  · have k := congrArg (fun x => x.belay.count) hs; exact k

theorem State.training_pathCabled {s t : State} (h : t.training = s.training) (w : Nat) : t.pathCabled w = s.pathCabled w := by
  have hs : ({ t with ports := [], paths := [] } : State) = { s with ports := [], paths := [] } := congrArg Prod.fst h
  have k := congrArg (fun x => x.pathCabled w) hs
  exact k

theorem State.onPath_training (s : State) (n w : Nat) (f : Link → Link) : (s.onPath n w f).training = s.training := rfl

theorem State.onPort_training (s : State) (p : Nat) {f : Port → Port} (hf : ∀ q, (f q).training = q.training) :
    (s.onPort p f).training = s.training := by
  simp only [State.training, State.onPort, map_modify_of_keeps hf]

theorem State.onPort_wire_training (s : State) (p : Nat) (f : List Byte) :
    (s.onPort p (fun q => { q with wire := q.wire ++ [f] })).training = s.training := by
  apply State.onPort_training
  exact fun _ => rfl

/-- The states of the paths. -/
def State.pathStates (s : State) : List PortSt := s.paths.map (·.st)

theorem State.path_st (s : State) (n w : Nat) : (s.path n w).st = s.pathStates.getD (32 * n + w) .off := by
  simp only [State.path, State.pathStates, List.getD_eq_getElem?_getD, List.getElem?_map]
  cases s.paths[32 * n + w]? <;> rfl

theorem State.onPath_states (s : State) (n w : Nat) {f : Link → Link} (hf : ∀ l, (f l).st = l.st) : (s.onPath n w f).pathStates = s.pathStates :=
  map_modify_of_keeps hf s.paths _

/-- A frame sent on a path keeps what training reads, and the states of the paths. -/
theorem State.sendFrame_training (s : State) (n w : Nat) (pkt : List Byte) : (s.sendFrame n w pkt).training = s.training := by
  unfold State.sendFrame
  dsimp only
  split
  · exact State.onPath_training ..
  · exact (State.onPort_wire_training ..).trans (State.onPath_training ..)

theorem State.sendFrame_states (s : State) (n w : Nat) (pkt : List Byte) : (s.sendFrame n w pkt).pathStates = s.pathStates := by
  unfold State.sendFrame
  dsimp only
  split <;> exact State.onPath_states s n w fun _ => rfl

theorem State.restart_states (s : State) (n w : Nat) (st : PortSt) :
    (s.onPath n w (fun l => l.restart st)).pathStates = s.pathStates.set (32 * n + w) st := by
  refine List.ext_getElem? fun j => ?_
  simp only [State.pathStates, State.onPath, List.getElem?_map, List.getElem?_modify, List.getElem?_set, List.length_map]
  by_cases hj : 32 * n + w = j
  · subst hj
    by_cases hlt : 32 * n + w < s.paths.length
    · simp [hlt]; rfl
    · simp [hlt]
  · simp [hj]

/-- IDENT entered on a path: the path restarts, and a frame goes out (R337). -/
theorem State.enterIdent_carriage {s : State} {p : Nat} (hp : 32 ≤ p) (w : Nat) :
    ∃ pkt, s.enterIdent p w = (s.onPath (p - 32) w (fun l => l.restart .ident)).sendFrame (p - 32) w pkt := by
  unfold State.enterIdent
  rw [State.onLink_carriage hp]
  exact ⟨_, State.sendOn_carriage hp w _⟩

theorem State.enterIdent_training {s : State} {p : Nat} (hp : 32 ≤ p) (w : Nat) : (s.enterIdent p w).training = s.training := by
  obtain ⟨pkt, hpkt⟩ := State.enterIdent_carriage hp w (s := s)
  rw [hpkt, State.sendFrame_training, State.onPath_training]

theorem State.enterIdent_states {s : State} {p : Nat} (hp : 32 ≤ p) (w : Nat) :
    (s.enterIdent p w).pathStates = s.pathStates.set (32 * (p - 32) + w) .ident := by
  obtain ⟨pkt, hpkt⟩ := State.enterIdent_carriage hp w (s := s)
  rw [hpkt, State.sendFrame_states, State.restart_states]

/-- What lock does for one path: its first ACKONLY frame, and its IDENT. -/
def State.lockPath (p : Nat) (s : State) (w : Nat) : State :=
  let s := s.onLink p w (fun l => l.restart .ident)
  let f := s.frame (p - 32) w none 0 (s.path (p - 32) w)
  (s.onPort p (fun q => { q with wire := q.wire ++ [f] })).enterIdent p w

theorem State.lockPath_training {p : Nat} (hp : 32 ≤ p) (s : State) (w : Nat) : (s.lockPath p w).training = s.training := by
  rw [State.lockPath, State.enterIdent_training hp, State.onPort_wire_training, State.onLink_carriage hp, State.onPath_training]

theorem State.lockPath_states {p : Nat} (hp : 32 ≤ p) (s : State) (w : Nat) :
    (s.lockPath p w).pathStates = s.pathStates.set (32 * (p - 32) + w) .ident := by
  have hkeep (t : State) (f : Port → Port) : (t.onPort p f).pathStates = t.pathStates := rfl
  rw [State.lockPath, State.enterIdent_states hp, hkeep, State.onLink_carriage hp, State.restart_states, List.set_set]

/-- Once every path of a list has been locked, each of them is in IDENT. -/
theorem foldl_lockPath_states {p : Nat} (hp : 32 ≤ p) (ws : List Nat) (s : State) {w : Nat} (hl : 32 * (p - 32) + w < s.paths.length)
    (h : w ∈ ws ∨ (s.path (p - 32) w).st = .ident) : ((ws.foldl (State.lockPath p) s).path (p - 32) w).st = .ident := by
  induction ws generalizing s with
  | nil => exact h.resolve_left (by simp)
  | cons v ws ih =>
    have hst := State.lockPath_states hp s v
    have hlen : (s.lockPath p v).paths.length = s.paths.length := by simpa [State.pathStates] using congrArg List.length hst
    refine ih _ (hlen ▸ hl) ?_
    by_cases hv : v = w
    · subst hv
      exact Or.inr (by rw [State.path_st, hst, List.getD_eq_getElem?_getD, List.getElem?_set_self (by simpa [State.pathStates] using hl)]; rfl)
    · refine h.imp (fun hw => (List.mem_cons.1 hw).resolve_left (Ne.symm hv)) fun hw => ?_
      rw [State.path_st] at hw ⊢
      rw [hst, List.getD_eq_getElem?_getD, List.getElem?_set_ne (by omega), ← List.getD_eq_getElem?_getD, hw]

section
variable {s : State} {p : Nat}

theorem State.lockDone_carriage (hp : 32 ≤ p) (h : (s.port p).link.st = .frame) :
    s.lockDone p true = ((List.range 32).filter (PortTo s p .up).pathCabled).foldl (State.lockPath p) (PortTo s p .up) := by
  rw [State.lockDone, if_neg (fun k => k h), if_neg (by simp), if_neg (by omega)]
  rfl

/-- Lock on a carriage port keeps what training reads, but for the PHY that comes UP. -/
theorem State.lockDone_training (hp : 32 ≤ p) (h : (s.port p).link.st = .frame) : (s.lockDone p true).training = (PortTo s p .up).training := by
  rw [State.lockDone_carriage hp h]
  exact foldl_keeps State.training _ (State.lockPath_training hp) _ _

/-- Every path to another pod is then in IDENT. -/
theorem State.lockDone_ident (hp : 32 ≤ p) (h : (s.port p).link.st = .frame) {w : Nat} (hw : w < 32) (hc : s.pathCabled w = true)
    (hl : 32 * (p - 32) + w < s.paths.length) : ((s.lockDone p true).path (p - 32) w).st = .ident := by
  rw [State.lockDone_carriage hp h]
  exact foldl_lockPath_states hp _ (PortTo s p .up) hl (Or.inl (List.mem_filter.2 ⟨List.mem_range.2 hw, hc⟩))

/-- A path that is in a state of its own stands in the list. -/
theorem State.path_stands {n w : Nat} (h : (s.path n w).st ≠ .off) : 32 * n + w < s.paths.length := by
  refine Decidable.byContradiction fun hout => h ?_
  rw [State.path, List.getD_eq_getElem?_getD, List.getElem?_eq_none (by omega)]
  rfl

/-- The state that differs from one whose port may train in the PHY's state alone keeps it, and its PHY, through `settle`. -/
theorem State.settle_phy {e : State} (hm : s.mayTrain p = true) (hl : p < s.ports.length)
    (he : e.training = (PortTo s p .up).training) : (e.settle.port p).link.st = .up := by
  have hto : (PortTo s p .up).port p = { s.port p with link := (s.port p).link.restart .up } := State.onPort_port hl _
  have hdisable : ((PortTo s p .up).port p).disable = (s.port p).disable := by rw [hto]
  have hwindows : ((PortTo s p .up).port p).windows = (s.port p).windows := by rw [hto]
  have hport : (e.port p).link.st = .up := (congrArg (fun x => x.1.st) (State.training_port he p)).trans (congrArg (fun q => q.link.st) hto)
  have hlen : p < e.ports.length := by
    rw [State.training_length he, PortTo, State.onPort_length]
    exact hl
  have hmay : e.mayTrain p = true := by
    rw [State.training_mayTrain he, ← hm]
    exact State.mayTrain_congr _ _ p rfl rfl (fun _ => rfl) rfl rfl hdisable hwindows rfl rfl
  rw [State.settle_port hlen hmay (by simp [hport]), hport]

/-- A carriage PHY that finds lock is UP, with IDENT on every path to another pod. -/
theorem exec_flitLock_carriage (hi : Inv s) (hp : 32 ≤ p) (hl : p < s.ports.length) (h : (s.port p).link.st = .frame)
    (hpaths : ∀ w < 32, 32 * (p - 32) + w < s.paths.length) : ∃ t, exec (.flitLock p true) s = .next t ∧ (t.port p).link.st = .up ∧
      ∀ w < 32, s.pathCabled w = true → (t.path (p - 32) w).st = .ident := by
  have hmay : s.mayTrain p = true := by
    cases hm : s.mayTrain p with
    | true => rfl
    | false => exact absurd ((hi.ports p hl).1.2 hm) (by simp [h])
  have hexec : exec (.flitLock p true) s = answer s (s.lockDone p true) := rfl
  have htrain := State.lockDone_training hp h
  have hident := fun w hw hc => State.lockDone_ident hp h hw hc (hpaths w hw)
  generalize s.lockDone p true = e at hexec htrain hident
  have hpending : e.pending = s.pending := congrArg (fun x => x.1.pending) htrain
  have hphy := State.settle_phy hmay hl htrain
  refine ⟨e.settle, hexec.trans (answer_settle s e hpending), hphy, fun w hw hc => ?_⟩
  have hst := hident w hw hc
  have hcable : e.pathCabled w = true := (State.training_pathCabled htrain w).trans hc
  have hplus : 32 + (p - 32) = p := by omega
  rw [State.settle_path (State.path_stands (by simp [hst])) hw (by rw [hplus, hphy]) hcable (by simp [hst]), hst]

end

/-- Settles O48: IDENT by the checks of R337, MEASURE by the number of answers, and each state of a port by what ends it. -/
theorem trainingAndPortStates : Obligations.TrainingAndPortStates := by
  refine ⟨?_, fun s p hp36 hl => ⟨fun h => ?_, fun h => ⟨?_, fun hp => ?_, fun hp hpaths hi => ?_, ?_⟩, fun h => ⟨?_, ?_⟩,
    fun h => ⟨?_, ?_⟩, fun w h => ⟨fun hd => ?_, fun hd hi => ?_⟩⟩⟩
  · rintro s u p pkt pay h c br hp hl rfl rfl rfl
    refine ⟨fun ha hst => ⟨fun e he => ?_, fun x passed hx hv hc hp30 hfits => ?_⟩, fun held ha hlive => ?_, fun cycle xs ha hst hxs =>
      ⟨fun hn => ?_, fun hm hn hhm => ⟨fun hhop hmax => ?_, fun hover => ?_⟩⟩⟩
    · have hcheck : u.identCheck p (packetPayload pkt) = .error e := by
        obtain ⟨hv, rfl⟩ | ⟨hv, hp30, hself, rfl⟩ := he
        · exact State.identCheck_version hv
        · exact State.identCheck_self hv hp30 hself
      rw [← belay_of_arrives ha]
      exact congrArg (answer s) ((received_of_arrives ha _).trans (State.identIn_fails hp hst hcheck))
    · have hcheck : u.identCheck p (packetPayload pkt) = .ok passed := by
        obtain ⟨hm, hport, hax, hn, hbr, rfl⟩ | ⟨hm, hport, hax, hd⟩ | ⟨hm, hport, hax, hd⟩ := hfits
        · exact State.identCheck_mesh hv hp30 hc hm hport hax hn hbr
        · exact State.identCheck_ring (odd := true) hv hp30 hc (by rw [arrivalAxis_ring hp (by omega), hm]; rfl) hport hax hd
        · exact State.identCheck_ring (odd := false) hv hp30 hc (by rw [arrivalAxis_ring hp (by omega), hm]; rfl) hport hax hd
      rw [← belay_of_arrives ha]
      exact congrArg (answer s) ((received_of_arrives ha _).trans (State.identIn_measures hp hst hcheck hx))
    · rw [← belay_of_arrives ha]
      exact congrArg (answer s) ((received_of_arrives ha _).trans (State.measureIn_native hp hlive held))
    · exact congrArg (answer s) ((received_of_arrives ha _).trans (State.replyIn_more hp hst hxs hn))
    · have hlast := State.replyIn_last hp hst hxs hn hhm
      rw [if_neg (by omega)] at hlast
      rw [← belay_of_arrives ha]
      exact congrArg (answer s) ((received_of_arrives ha _).trans hlast)
    · have hlast := State.replyIn_last hp hst hxs hn hhm
      rw [if_pos hover] at hlast
      rw [← belay_of_arrives ha]
      exact congrArg (answer s) ((received_of_arrives ha _).trans hlast)
  · obtain ⟨htrained, hnone, hlate⟩ := State.pmdDone_training h
    exact ⟨congrArg (answer s) htrained, congrArg (answer s) hnone, congrArg (answer s) hlate⟩
  · exact congrArg (answer s) (State.lockDone_failed h)
  · exact congrArg (answer s) (State.lockDone_native hp hl h)
  · exact exec_flitLock_carriage hi hp hl h fun w hw => by omega
  · exact congrArg (answer s) (State.loseSignal_training (Or.inl h))
  · exact congrArg (answer s) (State.loseLock_training h)
  · exact congrArg (answer s) (State.loseSignal_training (Or.inr h))
  · exact congrArg (answer s) (State.loseLock_up h)
  · exact congrArg (answer s) (State.loseSignal_up h)
  · exact congrArg (answer s) ((State.retryFailed_failed h w).trans (if_pos hd))
  · exact (congrArg (answer s) ((State.retryFailed_failed h w).trans (if_neg (by omega)))).trans (answer_self s hi)

end Sys2Proof.Machine

/-! Flits received, NAK, replay and codeword windows (R306, R307, R309, R346, R460). -/

namespace Sys2Proof.Machine

/-! ### What an ACK frees (R307) -/

/-- An ACK that lies past the oldest unit kept frees what it covers. -/
theorem Link.ack_frees {l : Link} {k : KeptUnit} {ks : List KeptUnit} (hk : l.kept = k :: ks) {m a : Nat} (h : seqPast m k.seq a = true)
    (now : Nat) : l.ack m a now = { l with kept := l.kept.dropWhile (fun k => seqPast m k.seq a), replays := 0, ackTick := now } := by
  have hshort : (l.kept.dropWhile (fun k => seqPast m k.seq a)).length < l.kept.length := by
    rw [hk, List.dropWhile_cons_of_pos (p := fun k : KeptUnit => seqPast m k.seq a) h, List.length_cons]
    exact Nat.lt_succ_of_le (List.dropWhile_sublist _).length_le
  exact if_pos hshort

section
variable {s u : State} {p : Nat} {l : Link}

/-- On a native port where nothing waits for room, that is all. -/
theorem State.unitAck_frees (hp : p < 32) (hl : p < u.ports.length) {k : KeptUnit} {ks : List KeptUnit} (hk : (u.port p).link.kept = k :: ks)
    (hq : (u.port p).link.txq = []) {m a : Nat} (h : seqPast m k.seq a = true) : u.unitAck p 0 m a false =
      u.onPort p (fun q => { q with link := { q.link with
        kept := (u.port p).link.kept.dropWhile (fun k => seqPast m k.seq a), replays := 0, ackTick := u.belay.count } }) := by
  have hack : u.onLink p 0 (fun l => l.ack m a u.count) = u.onPort p (fun q => { q with link := { q.link with
      kept := (u.port p).link.kept.dropWhile (fun k => seqPast m k.seq a), replays := 0, ackTick := u.belay.count } }) := by
    rw [State.onLink_native hp]
    exact State.onPort_congr (congrArg (fun l => { u.port p with link := l }) (Link.ack_frees hk h u.count))
  rw [State.unitAck, hack, State.drainLink_nothing (by rw [State.link_native hp, State.onPort_port hl]; exact hq)]
  exact if_neg Bool.false_ne_true

/-! ### NAK (R306) -/

/-- A NAK goes out at once in an idle flit of its own. -/
theorem State.sendNak_native (hp : p < 32) (hl : p < u.ports.length) : u.sendNak p 0 = Naks u p (u.port p).link := by
  have hflit : (((u.onPort p (fun q => { q with link := { q.link with errOpen := true, nakDue := true, nakTick := u.belay.count } })).port
      p).link.idleFlit false).2 = nakFlit (u.port p).link := by
    rw [State.onPort_port hl]
    rfl
  simp only [State.sendNak, State.onLink_native hp, State.link_native hp, hp, if_true, State.count]
  rw [hflit, State.onPort_onPort, State.onPort_onPort, Naks]

/-- The first discard of an error event sends NAK. -/
theorem State.discard_first (hp : p < 32) (hl : p < u.ports.length) (he : (u.port p).link.errOpen = false) :
    u.discard p 0 = Naks u p (u.port p).link := by
  rw [State.discard, State.link_native hp, he, if_neg Bool.false_ne_true, State.sendNak_native hp hl]

/-- Later ones do not. -/
theorem State.discard_again (hp : p < 32) (he : (u.port p).link.errOpen = true) : u.discard p 0 = u := by
  rw [State.discard, State.link_native hp, he, if_pos rfl]

/-! ### A data flit that was read well (R306) -/

/-- Good packets wait at the port. -/
theorem foldl_takePacket (w : Nat) (pks : List (List Byte)) (hg : ∀ b ∈ pks, packetGood b = true) (u : State) :
    pks.foldl (fun s b => s.takePacket p w b) u = u.onPort p (fun q => { q with rx := q.rx ++ pks }) := by
  induction pks generalizing u with
  | nil => exact (State.onPort_self (by simp)).symm
  | cons b pks ih =>
    have htake : u.takePacket p w b = u.onPort p (fun q => { q with rx := q.rx ++ [b] }) := if_pos (hg b List.mem_cons_self)
    rw [List.foldl_cons, htake, ih (fun x hx => hg x (List.mem_cons_of_mem _ hx)), State.onPort_onPort]
    simp only [List.append_assoc, List.singleton_append]

variable {h : FlitHead} {body : List Byte}

/-- A flit with SEQ = E is accepted: E advances, the error event ends, and the packets that it completes wait. -/
theorem State.dataFlit_accepts (hp : p < 32) (hl : p < u.ports.length) (hseq : h.seq = (u.port p).link.rxSeq)
    (hk : (u.port p).link.kept = []) (hq : (u.port p).link.txq = []) {pks : List (List Byte)} {rest : List Byte}
    (hr : readPackets 32 ((u.port p).link.partialPkt ++ body) = (pks, rest)) (hg : ∀ b ∈ pks, packetGood b = true) :
    u.dataFlit p h body = u.onPort p (fun q => { q with
      rx := q.rx ++ pks
      link := { q.link with rxSeq := ((u.port p).link.rxSeq + 1) % 4096, errOpen := false, partialPkt := rest } }) := by
  have hto : (u.onPort p (fun q => { q with
      link := { q.link with rxSeq := (q.link.rxSeq + 1) % 4096, errOpen := false, partialPkt := rest } })).unitAck p 0 4096 h.ack h.nak =
      u.onPort p (fun q => { q with link := { q.link with rxSeq := (q.link.rxSeq + 1) % 4096, errOpen := false, partialPkt := rest } }) :=
    State.unitAck_nothing (by rw [State.link_native hp, State.onPort_port hl]; exact hk)
      (by rw [State.link_native hp, State.onPort_port hl]; exact hq) 4096 h.ack h.nak
  simp only [State.dataFlit, hseq, if_true, hr, State.onLink_native hp, hto, foldl_takePacket 0 pks hg, State.onPort_onPort]
  exact State.onPort_congr rfl

/-- A replay duplicate does nothing. -/
theorem State.dataFlit_duplicate (hne : h.seq ≠ (u.port p).link.rxSeq) (hpast : seqPast 4096 h.seq (u.port p).link.rxSeq = true) :
    u.dataFlit p h body = u := by
  rw [State.dataFlit, if_neg hne, if_pos hpast]

/-- A flit out of sequence is discarded. -/
theorem State.dataFlit_gap (hne : h.seq ≠ (u.port p).link.rxSeq) (hpast : seqPast 4096 h.seq (u.port p).link.rxSeq = false) :
    u.dataFlit p h body = u.discard p 0 := by
  rw [State.dataFlit, if_neg hne, hpast, if_neg Bool.false_ne_true]

/-! ### The codewords of a flit (R309, R346) -/

/-- Counting the codewords changes of a link only the ticks of the uncorrectable ones. -/
theorem State.codewords_link (hl : p < s.ports.length) (c bad : Nat) :
    ∃ ts, ((s.codewords p c bad).port p).link = { (s.port p).link with uncorr := ts } := by
  refine ⟨((s.codewords p c bad).port p).link.uncorr, ?_⟩
  unfold State.codewords
  rw [State.onPort_port (by simpa using hl)]
  simp only [State.bump_port]

theorem State.codewords_length (s : State) (p c bad : Nat) : (s.codewords p c bad).ports.length = s.ports.length := by
  simp [State.codewords, State.onPort_length]

theorem State.codewords_belay (s : State) (p c bad : Nat) : (s.codewords p c bad).belay = s.belay := by simp [State.codewords]

/-- A flit on a live link of a native port: too many uncorrectable codewords, a flit read badly, an idle one, or data (R306, R309). -/
theorem State.flitIn_live (ho : OnLink s p l) {c bad : Nat} {bs : List Byte} (hu : u = s.codewords p c bad) {ts : List Nat}
    (hlink : (u.port p).link = { l with uncorr := ts }) : s.flitIn p bs c bad =
      if l.st = .up ∧ ts.length > 64 then u.leaveUp p .frame 3
      else if bad > 0 ∨ bytesAt bs 252 4 ≠ crc32c (bs.take 252) then
        if (FlitHead.parse (bytesAt bs 0 4)).idle then u.bump (portCounter p 2) noUnit 1
        else (u.bump (portCounter p 2) noUnit 1).discard p 0
      else if (FlitHead.parse (bytesAt bs 0 4)).idle then
        u.unitAck p 0 4096 (FlitHead.parse (bytesAt bs 0 4)).ack (FlitHead.parse (bytesAt bs 0 4)).nak
      else u.dataFlit p (FlitHead.parse (bytesAt bs 0 4)) ((bs.drop 4).take 248) := by
  obtain ⟨hp, rfl, hlive⟩ := ho
  have hlive' : (u.port p).link.live = true := by rw [hlink]; exact hlive
  have hmay : ¬(p ≥ 32 ∨ (!((s.port p).link.live || (s.port p).link.st == .frame)) = true) := by simp [hp, hlive]
  simp only [State.flitIn, hmay, if_false, ← hu, hlive', Bool.not_true, Bool.false_eq_true, State.linkCount_native hp]
  simp only [hlink]

/-- A flit that is read well (R306). -/
theorem State.flitIn_good (ho : OnLink s p l) {c bad : Nat} {bs : List Byte} (hu : u = s.codewords p c bad) {ts : List Nat}
    (hlink : (u.port p).link = { l with uncorr := ts }) (hfew : l.st = .up → (u.port p).link.uncorr.length ≤ 64) (hbad : bad = 0)
    (hcrc : bytesAt bs 252 4 = crc32c (bs.take 252)) : s.flitIn p bs c bad =
      if (FlitHead.parse (bytesAt bs 0 4)).idle then
        u.unitAck p 0 4096 (FlitHead.parse (bytesAt bs 0 4)).ack (FlitHead.parse (bytesAt bs 0 4)).nak
      else u.dataFlit p (FlitHead.parse (bytesAt bs 0 4)) ((bs.drop 4).take 248) := by
  rw [hlink] at hfew
  rw [State.flitIn_live ho hu hlink, if_neg fun hk => Nat.not_lt.2 (hfew hk.1) hk.2,
    if_neg fun hk => hk.elim (by omega) fun hne => hne hcrc]

/-- A flit that is read badly is counted, and a data flit is discarded. -/
theorem State.flitIn_bad (ho : OnLink s p l) {c bad : Nat} {bs : List Byte} (hu : u = s.codewords p c bad) {ts : List Nat}
    (hlink : (u.port p).link = { l with uncorr := ts }) (hfew : l.st = .up → (u.port p).link.uncorr.length ≤ 64)
    (hbad : 0 < bad ∨ bytesAt bs 252 4 ≠ crc32c (bs.take 252)) : s.flitIn p bs c bad =
      if (FlitHead.parse (bytesAt bs 0 4)).idle then u.bump (portCounter p 2) noUnit 1
      else (u.bump (portCounter p 2) noUnit 1).discard p 0 := by
  rw [hlink] at hfew
  rw [State.flitIn_live ho hu hlink, if_neg fun hk => Nat.not_lt.2 (hfew hk.1) hk.2, if_pos hbad]

/-- NAK reads of a link only its sequence numbers. -/
theorem naks_uncorr (u : State) (p : Nat) (l : Link) (ts : List Nat) : Naks u p { l with uncorr := ts } = Naks u p l := rfl

/-! ### Replay (R307, R309) -/

/-- The resend timer of NAK (R306). -/
theorem State.nakAgain_native (ho : OnLink s p l) (hl : p < s.ports.length) :
    s.nakAgain p = if l.errOpen = true ∧ l.nakTick + 2 * l.hm + 8 ≤ s.belay.count then Naks s p l else s := by
  obtain ⟨hp, rfl, hlive⟩ := ho
  simp only [State.nakAgain, linksOf_native hp, List.foldl_cons, List.foldl_nil, State.link_native hp, hlive, true_and,
    State.sendNak_native hp hl, State.count]

/-- Silence on a link (R307). -/
theorem State.silence_native (ho : OnLink s p l) :
    s.silence p = if l.kept ≠ [] ∧ l.ackTick + 2 * l.hm + 16 ≤ s.belay.count then s.replay p 0 else s := by
  obtain ⟨hp, rfl, hlive⟩ := ho
  simp only [State.silence, linksOf_native hp, List.foldl_cons, List.foldl_nil, State.link_native hp, hlive, true_and, State.count]

/-- A replay sends everything kept again, oldest first, and ends the link at the 16th. -/
theorem State.replay_native (ho : OnLink s p l) {k : KeptUnit} {ks : List KeptUnit} (hk : l.kept = k :: ks)
    (hu : u = State.raise (State.bump (State.bump (s.onPort p (fun q => { q with
        wire := q.wire ++ l.kept.map (fun k => flitBytes ⟨false, false, k.seq, l.rxSeq, false⟩ ((k.bytes.drop 4).take 248))
        link := { q.link with replays := l.replays + 1, ackTick := s.belay.count } }))
      (portCounter p 3) noUnit 1) (portCounter p 4) noUnit l.kept.length) 0x02 (source 8 p) 0 l.kept.length k.seq) :
    s.replay p 0 = if 16 ≤ l.replays + 1 then u.leaveUp p .frame 1 else u := by
  obtain ⟨hp, rfl, -⟩ := ho
  have hunits : s.resent p 0 = (s.port p).link.kept.map (fun k =>
      flitBytes ⟨false, false, k.seq, (s.port p).link.rxSeq, false⟩ ((k.bytes.drop 4).take 248)) := by
    simp only [State.resent, State.link_native hp, hp, if_true]
  have hhead : (s.port p).link.kept.head? = some k := by rw [hk]; rfl
  have hsent : (s.onPort p (fun q => { q with link := { q.link with replays := q.link.replays + 1, ackTick := s.count } })).onPort p
      (fun q => { q with wire := q.wire ++ s.resent p 0 }) = s.onPort p (fun q => { q with
        wire := q.wire ++ s.resent p 0
        link := { q.link with replays := (s.port p).link.replays + 1, ackTick := s.belay.count } }) := by
    rw [State.onPort_onPort]
    exact State.onPort_congr rfl
  have hdown (t : State) : t.linkDown p 0 1 = t.leaveUp p .frame 1 := if_pos hp
  have hlen : (s.resent p 0).length = (s.port p).link.kept.length := by rw [hunits, List.length_map]
  simp only [State.replay, State.link_native hp, hhead, State.onLink_native hp, hsent, State.linkCount_native hp, linkSource_native hp,
    hdown, hlen]
  rw [hu, hunits]

/-- The link that a replay leaves is in the state that it was in. -/
theorem port_st_of_replayed (hl : p < s.ports.length) {ws : List (List Byte)} {n seq : Nat} {l : Link}
    (hu : u = State.raise (State.bump (State.bump (s.onPort p (fun q => { q with
        wire := q.wire ++ ws, link := { q.link with replays := l.replays + 1, ackTick := s.belay.count } }))
      (portCounter p 3) noUnit 1) (portCounter p 4) noUnit n) 0x02 (source 8 p) 0 n seq) : (u.port p).link.st = (s.port p).link.st := by
  rw [hu, State.raise_port, State.bump_port, State.bump_port, State.onPort_port hl]

/-- The end of a window of corrected codewords (R460). -/
theorem State.corrWindow_ends (hp : p < 36) (hc : s.belay.count % 250000 = 0) : s.corrWindow p =
    if s.reg (0x10000C + 0x100 * p) ≠ 0 ∧ (s.port p).corrected > s.reg (0x10000C + 0x100 * p) then
      (s.onPort p (fun q => { q with corrected := 0 })).raise 0x01 (source 8 p) 0 (s.port p).corrected (s.reg (0x10000C + 0x100 * p))
    else s.onPort p (fun q => { q with corrected := 0 }) := if_neg (by simp [State.count, hc, hp])

end

/-- Settles O41: a flit by what it is read as; the timers by their bounds. -/
theorem linkFlits : Obligations.LinkFlits := by
  refine ⟨?_, fun s p l hl => ⟨fun ho => ⟨fun he hd => ?_, fun hw hi => ?_, ?_, fun hw hi => ?_⟩, fun u hp hc hu =>
    ⟨fun h0 hover => ?_, fun hw => ?_⟩⟩⟩
  · rintro s u p l bs h c bad ho hl hu rfl
    obtain ⟨ts, hts⟩ := State.codewords_link hl c bad
    have hlink : (u.port p).link = { l with uncorr := ts } := by rw [hu, hts, ho.2.1]
    have hlen : p < u.ports.length := by rw [hu, State.codewords_length]; exact hl
    have hp := ho.1
    refine ⟨fun hfew => ⟨fun hbad hcrc => ?_, fun hbad => ?_⟩, fun hup hmany => ?_⟩
    · have hgood := State.flitIn_good ho hu hlink hfew hbad hcrc
      have hdata (hd : (FlitHead.parse (bytesAt bs 0 4)).idle = false) := hgood.trans (if_neg (by simp [hd]))
      refine ⟨fun hd hseq hk hq pks rest hr hg => ?_, fun hd hne hpast => ?_, fun hd hne hpast he => ?_, fun hd hne hpast he => ?_,
        fun hd hnak hq k ks hk hpast => ?_⟩
      · have hacc := State.dataFlit_accepts hp hlen (by rw [hlink]; exact hseq) (by rw [hlink]; exact hk) (by rw [hlink]; exact hq)
          (by rw [hlink]; exact hr) hg
        rw [hlink] at hacc
        exact congrArg (answer s) ((hdata hd).trans hacc)
      · exact congrArg (answer s) ((hdata hd).trans (State.dataFlit_duplicate (by rw [hlink]; exact hne) (by rw [hlink]; exact hpast)))
      · have hgap := State.dataFlit_gap (u := u) (body := (bs.drop 4).take 248) (by rw [hlink]; exact hne) (by rw [hlink]; exact hpast)
        rw [State.discard_first hp hlen (by rw [hlink]; exact he), hlink, naks_uncorr] at hgap
        exact congrArg (answer s) ((hdata hd).trans hgap)
      · have hgap := State.dataFlit_gap (u := u) (body := (bs.drop 4).take 248) (by rw [hlink]; exact hne) (by rw [hlink]; exact hpast)
        rw [State.discard_again hp (by rw [hlink]; exact he)] at hgap
        exact congrArg (answer s) ((hdata hd).trans hgap)
      · have hfrees := State.unitAck_frees hp hlen (by rw [hlink]; exact hk) (by rw [hlink]; exact hq) hpast
        rw [hlink, hu, State.codewords_belay, ← hu] at hfrees
        rw [if_pos hd, hnak] at hgood
        exact congrArg (answer s) (hgood.trans hfrees)
    · have hread := State.flitIn_bad ho hu hlink hfew hbad
      have hlink' : ((u.bump (portCounter p 2) noUnit 1).port p).link = { l with uncorr := ts } := by rw [State.bump_port, hlink]
      have hlen' : p < (u.bump (portCounter p 2) noUnit 1).ports.length := by simpa using hlen
      refine ⟨fun hd he => ?_, fun hw => ?_⟩
      · have hfirst := State.discard_first hp hlen' (by rw [hlink']; exact he)
        rw [hlink', naks_uncorr] at hfirst
        exact congrArg (answer s) (hread.trans ((if_neg (by simp [hd])).trans hfirst))
      · refine congrArg (answer s) (hread.trans ?_)
        obtain hidle | he := hw
        · exact if_pos hidle
        · rw [State.discard_again hp (by rw [hlink']; exact he), ite_self]
    · rw [hlink] at hmany
      have hst : (u.port p).link.st = .up := by rw [hlink]; exact hup
      refine congrArg (answer s) ((State.flitIn_live ho hu hlink).trans ((if_pos ⟨hup, hmany⟩).trans ?_))
      exact State.leaveUp_caused hst .frame (by omega)
  · exact congrArg (answer s) ((State.nakAgain_native ho hl).trans (if_pos ⟨he, hd⟩))
  · refine (congrArg (answer s) ((State.nakAgain_native ho hl).trans (if_neg fun hk => ?_))).trans (answer_self s hi)
    obtain he | hd := hw
    · simp [he] at hk
    · omega
  · rintro k ks u hk hd hu
    have hsilent : s.silence p = s.replay p 0 := (State.silence_native ho).trans (if_pos ⟨by simp [hk], hd⟩)
    refine ⟨fun hn => ?_, fun hn hup => ?_⟩
    · exact congrArg (answer s) (hsilent.trans ((State.replay_native ho hk hu).trans (if_neg (by omega))))
    · have hst : (u.port p).link.st = .up := by rw [port_st_of_replayed hl hu, ho.2.1, hup]
      refine congrArg (answer s) (hsilent.trans ((State.replay_native ho hk hu).trans ((if_pos hn).trans ?_)))
      exact State.leaveUp_caused hst .frame (by omega)
  · refine (congrArg (answer s) ((State.silence_native ho).trans (if_neg fun hk => ?_))).trans (answer_self s hi)
    obtain he | hd := hw
    · exact hk.1 he
    · omega
  · subst hu
    exact congrArg (answer s) ((State.corrWindow_ends hp hc).trans (if_pos ⟨h0, hover⟩))
  · subst hu
    exact congrArg (answer s) ((State.corrWindow_ends hp hc).trans (if_neg (by omega)))

end Sys2Proof.Machine

/-! Remote writes at their target, and the checks of an access (R326, R328, R358, R360, R361, R363, R384, Tables 10-6 and 10-7). -/

namespace Sys2Proof.Machine

/-! ### The checks of an access (R360, Table 10-6) -/

section
variable {s : State} {sl : Nat} {h : PktHead} {e : AncExt} {r : Right} {off n : Nat} {a : Anchor}

/-- No anchor with that tag, or a revoked one (rows 1 and 2). -/
theorem State.checkKey_unanchored (ha : a = s.anchor (e.key % 2 ^ 16))
    (hnone : a.st = .free ∨ a.st = .revoked ∨ e.key / 2 ^ 16 = 0 ∨ e.key / 2 ^ 16 ≠ a.tag) : s.checkKey h e r = 6 := by
  unfold State.checkKey
  dsimp only
  rw [← ha]
  by_cases hfirst : a.st = .free ∨ e.key / 2 ^ 16 = 0 ∨ e.key / 2 ^ 16 ≠ a.tag
  · exact if_pos hfirst
  · have hrevoked : a.st = .revoked := by
      obtain hfree | hrevoked | htag := hnone
      · exact absurd (Or.inl hfree) hfirst
      · exact hrevoked
      · exact absurd (Or.inr htag) hfirst
    rw [if_neg hfirst, if_pos hrevoked]

/-- The rights of an anchor cover an access (row 4). -/
def Anchor.gives (a : Anchor) : Right → Bool
  | .write => a.rightW
  | .flagWrite => a.rightW && a.rightF
  | .read => a.rightR

/-- Of an armed anchor with that tag, the epoch, the rights and the binding are judged (rows 3 to 5). -/
theorem State.checkKey_anchored (ha : a = s.anchor (e.key % 2 ^ 16)) (hst : a.st = .armed) (h0 : e.key / 2 ^ 16 ≠ 0)
    (htag : e.key / 2 ^ 16 = a.tag) : s.checkKey h e r =
      if h.epoch ≠ a.epoch then 5
      else if (!a.gives r) = true then 6
      else if r = .flagWrite ∧ a.bound = true ∧ (h.src ≠ a.fsrc ∨ e.sq ≠ a.fsq) then 6
      else 0 := by
  have hhere : ¬(a.st = .free ∨ e.key / 2 ^ 16 = 0 ∨ e.key / 2 ^ 16 ≠ a.tag) := by
    rintro (hfree | hzero | hother)
    · simp [hst] at hfree
    · exact h0 hzero
    · exact hother htag
  unfold State.checkKey
  dsimp only
  rw [← ha, if_neg hhere, if_neg (by simp [hst])]
  cases r with
  | write => rfl
  | flagWrite => simp only [Anchor.gives, Bool.not_and]
  | read => rfl

/-- A failing check is counted by its class. -/
theorem State.checkAccess_refused {k : Nat} (hk : s.checkKey h e r = k) (h0 : k ≠ 0) :
    s.checkAccess sl h e r off n = (s.anchorCount (if k = 6 then 0 else 1), .error k) := by
  subst hk
  exact if_pos h0

/-- Bytes beyond the anchor's length are XLATE (row 6). -/
theorem State.checkAccess_beyond (hk : s.checkKey h e r = 0) (hn : (s.anchor (e.key % 2 ^ 16)).length < off + n) :
    s.checkAccess sl h e r off n = (s.bump 0x168 noUnit 1, .error 7) := by
  have hrange : s.checkRange sl (e.key % 2 ^ 16) off n = (s, none) := if_pos hn
  simp only [State.checkAccess, hk, hrange, ne_eq, not_true_eq_false, if_false]
  rfl

end

/-! ### A ground packet that a port delivers (R326, R328) -/

section
variable {s u : State} {p type : Nat} {pkt : List Byte} {h : PktHead}

/-- A ground packet has passed its destination, is for this package, or goes on. -/
theorem ground_of_arrives (ha : Arrives s u p pkt type h) (run : PktHead → State → State) : s.ground p pkt type run =
    if u.passedDest p h then u.linkCount p (h.src % 32) 8 1
    else if h.dst = u.coord ∧ (!h.auxdst) = true then run h u
    else u.sendGround p pkt := by
  rw [State.ground, received_of_arrives ha]
  obtain ⟨-, -, rfl⟩ := ha
  rfl

/-- The rows of ground packets, each with the type that it handles (Table 9-4). -/
theorem exec_groundRow {c : Instr} (h : (type = 8 ∧ c = .write p pkt) ∨ (type = 9 ∧ c = .readReq p pkt) ∨
    (type = 0x0A ∧ c = .readResp p pkt) ∨ (type = 0x0B ∧ c = .ack p pkt)) : ∃ run, exec c s = answer s (s.ground p pkt type run) := by
  obtain ⟨rfl, rfl⟩ | ⟨rfl, rfl⟩ | ⟨rfl, rfl⟩ | ⟨rfl, rfl⟩ := h <;> exact ⟨_, rfl⟩

theorem ground_of_reaches (hr : Reaches s u p pkt type h) (run : PktHead → State → State) : s.ground p pkt type run = run h u := by
  obtain ⟨ha, hpassed, hdst, haux⟩ := hr
  rw [ground_of_arrives ha, hpassed, if_neg Bool.false_ne_true, if_pos ⟨hdst, by simp [haux]⟩]

/-! ### A WRITE at its target (R358, R361, R363) -/

variable {e : AncExt} {pay : List Byte}

/-- A packet not cut as R358 says is counted. -/
theorem State.writeIn_ill (hbad : u.auxGood p h e = false ∨ cutGood h e = false ∨ h.ext = false) :
    u.writeIn p h e pay = u.bump 0x184 noUnit 1 := by
  refine if_pos ?_
  obtain hb | hb | hb := hbad <;> simp [hb]

theorem State.writeIn_well (haux : u.auxGood p h e = true) (hcut : cutGood h e = true) (hext : h.ext = true) :
    u.writeIn p h e pay = u.targetWrite (portSlice p) h e pay := if_neg (by simp [haux, hcut, hext])

variable {sl d : Nat} {right : Right}

/-- A flag whose sequence is not new is only answered (R361). -/
theorem State.targetWrite_again (hf : e.flag_ = true) (hright : right = if e.flag_ then .flagWrite else .write)
    (hk : u.checkKey h e right = 0) (hd : d = (h.seq + 2 ^ 32 - (u.anchor (e.key % 2 ^ 16)).lastFseq) % 2 ^ 32) (hold : d = 0 ∨ 2 ^ 31 ≤ d) :
    u.targetWrite sl h e pay = (u.bump 0x170 noUnit 1).ackOut h.src e.sq h.seq e.key 2 0 false := by
  subst hright hd
  exact if_pos ⟨hf, hk, hold⟩

/-- Any other message is judged by its checks. -/
theorem State.not_again (hright : right = if e.flag_ then .flagWrite else .write)
    (hd : d = (h.seq + 2 ^ 32 - (u.anchor (e.key % 2 ^ 16)).lastFseq) % 2 ^ 32)
    (hnew : e.flag_ = false ∨ u.checkKey h e right ≠ 0 ∨ (d ≠ 0 ∧ d < 2 ^ 31)) :
    ¬(e.flag_ = true ∧ u.checkKey h e (if e.flag_ then .flagWrite else .write) = 0 ∧
      ((h.seq + 2 ^ 32 - (u.anchor (e.key % 2 ^ 16)).lastFseq) % 2 ^ 32 = 0 ∨
        (h.seq + 2 ^ 32 - (u.anchor (e.key % 2 ^ 16)).lastFseq) % 2 ^ 32 ≥ 2 ^ 31)) := by
  rw [← hright, ← hd]
  rintro ⟨hf, hk, hold⟩
  obtain hnf | hnk | ⟨h0, hlt⟩ := hnew
  · simp [hf] at hnf
  · exact hnk hk
  · exact hold.elim h0 (Nat.not_le.2 hlt)

/-- The one packet of a message that passes its checks is written, a flag is counted, and DONE goes back (R361, R363). -/
theorem State.targetWrite_written (hone : e.npm1 = 0) (hright : right = if e.flag_ then .flagWrite else .write)
    (hd : d = (h.seq + 2 ^ 32 - (u.anchor (e.key % 2 ^ 16)).lastFseq) % 2 ^ 32)
    (hnew : e.flag_ = false ∨ u.checkKey h e right ≠ 0 ∨ (d ≠ 0 ∧ d < 2 ^ 31)) {v : State} {segs : List (Nat × Nat)}
    (hc : u.checkAccess sl h e right (e.moff + h.offset) pay.length = (v, .ok segs)) :
    u.targetWrite sl h e pay = State.ackOut
      (if e.flag_ then (v.writeSegs segs pay).applyFlag (e.key % 2 ^ 16) h.src e.sq h.seq else v.writeSegs segs pay)
      h.src e.sq h.seq e.key 1 0 false := by
  have hfresh := State.not_again hright hd hnew
  unfold State.targetWrite
  dsimp only
  rw [if_neg hfresh, ← hright, hc]
  exact if_pos hone

/-- One that fails raises its class's cairn, and is answered with its class and its offset (R360, R384). -/
theorem State.targetWrite_refused (hone : e.npm1 = 0) (hright : right = if e.flag_ then .flagWrite else .write)
    (hd : d = (h.seq + 2 ^ 32 - (u.anchor (e.key % 2 ^ 16)).lastFseq) % 2 ^ 32)
    (hnew : e.flag_ = false ∨ u.checkKey h e right ≠ 0 ∨ (d ≠ 0 ∧ d < 2 ^ 31)) {v : State} {c : Nat}
    (hc : u.checkAccess sl h e right (e.moff + h.offset) pay.length = (v, .error c)) :
    u.targetWrite sl h e pay = (v.messageCairn c e.key h.src h.offset).ackOut h.src e.sq h.seq e.key c h.offset false := by
  have hfresh := State.not_again hright hd hnew
  unfold State.targetWrite
  dsimp only
  rw [if_neg hfresh, ← hright, hc]
  exact if_pos hone

end

/-- Settles O55: a ground packet by where it is; a WRITE at its target by its cutting, its sequence and its checks; the checks in their order. -/
theorem remoteWrites : Obligations.RemoteWrites := by
  refine ⟨?_, ?_⟩
  · rintro s u p pkt pay h e i d right rfl rfl rfl hright hd
    refine ⟨fun type c hrow ha => ⟨fun hpassed => ?_, fun hpassed haway => ?_⟩, fun hr => ⟨fun hill => ?_, fun haux hcut hext hone =>
      ⟨fun hf hk hold => ?_, fun hnew => ⟨fun v segs hc => ?_, fun v c hc => ?_⟩⟩⟩⟩
    · obtain ⟨run, hrun⟩ := exec_groundRow (s := s) hrow
      rw [ground_of_arrives ha, if_pos hpassed] at hrun
      exact hrun
    · obtain ⟨run, hrun⟩ := exec_groundRow (s := s) hrow
      have hnot : ¬(h.dst = u.coord ∧ (!h.auxdst) = true) := by
        rintro ⟨hdst, haux⟩
        obtain hne | haux' := haway
        · exact hne hdst
        · simp [haux'] at haux
      rw [ground_of_arrives ha, hpassed, if_neg Bool.false_ne_true, if_neg hnot] at hrun
      exact hrun
    · exact congrArg (answer s) ((ground_of_reaches hr _).trans (State.writeIn_ill hill))
    · exact congrArg (answer s) ((ground_of_reaches hr _).trans ((State.writeIn_well haux hcut hext).trans
        (State.targetWrite_again hf hright hk hd hold)))
    · exact congrArg (answer s) ((ground_of_reaches hr _).trans ((State.writeIn_well haux hcut hext).trans
        (State.targetWrite_written hone hright hd hnew hc)))
    · exact congrArg (answer s) ((ground_of_reaches hr _).trans ((State.writeIn_well haux hcut hext).trans
        (State.targetWrite_refused hone hright hd hnew hc)))
  · intro s sl h e r off n a ha
    refine ⟨fun hnone => State.checkAccess_refused (State.checkKey_unanchored ha hnone) (by omega), fun hst h0 htag =>
      ⟨fun hepoch => ?_, fun hepoch => ⟨fun hdenied => ?_, fun hgiven hn => ?_⟩⟩⟩
    · have hkey := State.checkKey_anchored (h := h) (r := r) ha hst h0 htag
      rw [if_pos hepoch] at hkey
      exact State.checkAccess_refused hkey (by omega)
    · have hkey : s.checkKey h e r = 6 := by
        rw [State.checkKey_anchored ha hst h0 htag, if_neg (not_not_intro hepoch)]
        obtain ⟨rfl, hw⟩ | ⟨rfl, hwf⟩ | ⟨rfl, hr⟩ | hbound := hdenied
        · exact if_pos (by rw [Anchor.gives, hw]; rfl)
        · obtain hw | hf := hwf
          · exact if_pos (by rw [Anchor.gives, hw]; rfl)
          · exact if_pos (by rw [Anchor.gives, hf, Bool.and_false]; rfl)
        · exact if_pos (by rw [Anchor.gives, hr]; rfl)
        · rw [if_pos hbound, ite_self]
      exact State.checkAccess_refused hkey (by omega)
    · have hgives : a.gives r = true ∧ r ≠ .flagWrite := by
        obtain ⟨rfl, hw⟩ | ⟨rfl, hr⟩ := hgiven
        · exact ⟨hw, by simp⟩
        · exact ⟨hr, by simp⟩
      have hkey := State.checkKey_anchored (h := h) (r := r) ha hst h0 htag
      rw [if_neg (not_not_intro hepoch), if_neg (by rw [hgives.1]; exact Bool.false_ne_true), if_neg fun hk => hgives.2 hk.1] at hkey
      exact State.checkAccess_beyond hkey (ha ▸ hn)

end Sys2Proof.Machine

/-! Messages of ground queues: sent, sent again and failed (R365 to R368, R376). -/

namespace Sys2Proof.Machine

/-! ### The next message of a running queue (R365, R366, R376) -/

section
variable {s : State} {q i k : Nat} {g : GroundQ} {e : RingEnt} {fl : Bool}

/-- A queue that has a message to send begins no entry. -/
theorem State.beginEntries_ready (h : (s.groundQ q).nextMessage.isSome = true) (fuel : Nat) : s.beginEntries q fuel = s := by
  cases fuel with
  | zero => rfl
  | succ fuel => exact if_pos h

theorem State.messageSend_stopped (hst : (s.groundQ q).st ≠ .running) : s.messageSend q = s := if_pos hst

/-- Within its limits the message is sent, with the next sequence number and a fresh RTO. -/
theorem State.messageSend_sends {m : OutMsg} {u : State} (hg : g = s.groundQ q) (hst : g.st = .running)
    (hnext : g.nextMessage = some (i, k)) (he : e = RingEnt.parse (s.hbmRead (g.entryAddr i) 64)) (hfl : fl = e.flagged (g.messages e) k)
    (hfree : s.outstanding < 4096) (hroom : g.out.length < g.maxOut) (halone : fl = true → g.out = [])
    (hplain : g.out.any (·.flagged) = false)
    (hm : m = ⟨g.seq, i, k, 1, 0, s.belay.count, .rto, s.belay.count + s.reg 0x50000, s.reg 0x50004, fl⟩)
    (hu : u = s.onGround q (fun g => { g with
      seq := (g.seq + 1) % 2 ^ 32, out := g.out ++ [m]
      runs := g.runs.map (fun r => if r.index = i then { r with started := r.started + 1 } else r) })) :
    s.messageSend q = (u.bump (0x4000 + 0x40 * q) (unitWord q 0 0) 1).sendPackets q m := by
  subst hg he hfl hu hm
  unfold State.messageSend
  rw [if_neg (not_not_intro hst), State.beginEntries_ready (by simp [hnext])]
  dsimp only
  rw [hnext]
  refine if_neg ?_
  rintro (hstop | hfull | hmax | ⟨hflag, hout⟩ | hany)
  · exact hstop hst
  · omega
  · omega
  · exact hout (halone hflag)
  · simp [hplain] at hany

/-- At a limit, or after a flagged message, it is not. -/
theorem State.messageSend_barred (hg : g = s.groundQ q) (hst : g.st = .running) (hnext : g.nextMessage = some (i, k))
    (he : e = RingEnt.parse (s.hbmRead (g.entryAddr i) 64)) (hfl : fl = e.flagged (g.messages e) k)
    (hbar : 4096 ≤ s.outstanding ∨ g.maxOut ≤ g.out.length ∨ (fl = true ∧ g.out ≠ []) ∨ g.out.any (·.flagged) = true) :
    s.messageSend q = s := by
  subst hg he hfl
  unfold State.messageSend
  rw [if_neg (not_not_intro hst), State.beginEntries_ready (by simp [hnext])]
  dsimp only
  rw [hnext]
  exact if_pos (.inr hbar)

theorem exec_messageSend (hq : q < 1024) (hup : s.coreUp = true) : exec (.messageSend q) s = answer s (s.messageSend q) :=
  congrArg (answer s) (if_pos ⟨hup, hq⟩)

end

/-! ### The timers of a message (R367, R368) -/

section
variable {s : State} {q seq : Nat} {m m' : OutMsg}

/-- An outstanding message is found by its sequence number. -/
theorem State.outMsg_seq (hm : s.outMsg q seq = some m) : m.seq = seq := by simpa using List.find?_some hm

/-- The timer that a message waits for has ended. -/
theorem OutMsg.timer_ended {timer : MsgTimer} {now : Nat} (htimer : m.timer = timer) (hdue : m.timerAt ≤ now) :
    ¬(m.timer ≠ timer ∨ now < m.timerAt) := by
  rintro (hother | hearly)
  · exact hother htimer
  · exact Nat.not_lt.2 hdue hearly

/-- A message sent again has a fresh RTO. -/
theorem State.resend_eq (hseq : m.seq = seq)
    (hm' : m' = { m with attempts := m.attempts + 1, timer := .rto, timerAt := s.belay.count + s.reg 0x50000 }) :
    s.resend q m = State.sendPackets ((s.onMsg q seq (fun _ => m')).bump (0x4000 + 0x40 * q + 4) (unitWord q 0 0) 1) q m' := by
  subst hseq hm'
  rfl

/-- An RTO that has expired: the eighth, or one past LIFE, ends the message. -/
theorem State.rtoExpired_due (hm : s.outMsg q seq = some m) (hst : (s.groundQ q).st ≠ .draining) (htimer : m.timer = .rto)
    (hdue : m.timerAt ≤ s.belay.count) : s.rtoExpired q seq =
      if m.silent + 1 ≥ 8 ∨ s.count ≥ m.first + s.life then s.messageFail q seq 8 0 else s.resend q { m with silent := m.silent + 1 } := by
  unfold State.rtoExpired
  rw [hm]
  exact (if_neg (OutMsg.timer_ended htimer hdue)).trans (if_neg hst)

theorem State.rtoExpired_early (hm : s.outMsg q seq = some m) (hearly : s.belay.count < m.timerAt) : s.rtoExpired q seq = s := by
  unfold State.rtoExpired
  rw [hm]
  exact if_pos (.inr hearly)

/-- A backoff that has ended: past LIFE the message ends. -/
theorem State.backoffExpired_due (hm : s.outMsg q seq = some m) (hst : (s.groundQ q).st ≠ .draining) (htimer : m.timer = .backoff)
    (hdue : m.timerAt ≤ s.belay.count) : s.backoffExpired q seq =
      if s.count ≥ m.first + s.life then s.messageFail q seq 8 0 else s.resend q m := by
  unfold State.backoffExpired
  rw [hm]
  exact (if_neg (OutMsg.timer_ended htimer hdue)).trans (if_neg hst)

theorem State.backoffExpired_early (hm : s.outMsg q seq = some m) (hearly : s.belay.count < m.timerAt) : s.backoffExpired q seq = s := by
  unfold State.backoffExpired
  rw [hm]
  exact if_pos (.inr hearly)

/-- LIFE, or the eighth RTO, ends a message. -/
theorem State.lifeExpired_eq (hm : s.outMsg q seq = some m) :
    s.lifeExpired q seq = if s.count ≥ m.first + s.life ∨ m.silent ≥ 8 then s.messageFail q seq 8 0 else s := by
  unfold State.lifeExpired
  rw [hm]

end

/-- Settles O54: the next message by the queue's limits; an outstanding one by the timer that runs, its silent expiries and LIFE. -/
theorem messagesOut : Obligations.MessagesOut := by
  intro s q g hq hup hg
  refine ⟨fun i k e fl hst hnext he hfl => ⟨fun hfree hroom halone hplain m u hm hu => ?_, fun hbar hi => ?_⟩, fun hst hi => ?_,
    fun seq m hm hst => ⟨fun htimer hdue => ⟨fun hfew hlive m' hm' => ?_, fun hend => ?_⟩,
      fun htimer hdue => ⟨fun hlive m' hm' => ?_, fun hend => ?_⟩, fun hearly hi => ⟨?_, ?_⟩, fun hend => ?_, fun hlive hfew hi => ?_⟩⟩
  · rw [exec_messageSend hq hup, State.messageSend_sends hg hst hnext he hfl hfree hroom halone hplain hm hu]
    rfl
  · rw [exec_messageSend hq hup, State.messageSend_barred hg hst hnext he hfl hbar, answer_self s hi]
  · rw [exec_messageSend hq hup, State.messageSend_stopped (hg ▸ hst), answer_self s hi]
  · have hgoes : ¬(m.silent + 1 ≥ 8 ∨ s.count ≥ m.first + s.life) := by
      rintro (hsilent | hlife)
      · omega
      · exact Nat.not_lt.2 hlife hlive
    refine congrArg (answer s) ((State.rtoExpired_due hm (hg ▸ hst) htimer hdue).trans ((if_neg hgoes).trans ?_))
    have hseq := State.outMsg_seq hm
    exact State.resend_eq (m := { m with silent := m.silent + 1 }) hseq (by rw [hm', ← htimer])
  · refine congrArg (answer s) ((State.rtoExpired_due hm (hg ▸ hst) htimer hdue).trans (if_pos ?_))
    exact hend.imp_left Nat.succ_le_succ
  · refine congrArg (answer s) ((State.backoffExpired_due hm (hg ▸ hst) htimer hdue).trans ((if_neg (Nat.not_le.2 hlive)).trans ?_))
    exact State.resend_eq (State.outMsg_seq hm) hm'
  · exact congrArg (answer s) ((State.backoffExpired_due hm (hg ▸ hst) htimer hdue).trans (if_pos hend))
  · exact (congrArg (answer s) (State.rtoExpired_early hm hearly)).trans (answer_self s hi)
  · exact (congrArg (answer s) (State.backoffExpired_early hm hearly)).trans (answer_self s hi)
  · exact congrArg (answer s) ((State.lifeExpired_eq hm).trans (if_pos hend))
  · refine (congrArg (answer s) ((State.lifeExpired_eq hm).trans (if_neg ?_))).trans (answer_self s hi)
    rintro (hlife | hsilent)
    · exact Nat.not_lt.2 hlife hlive
    · omega

end Sys2Proof.Machine

/-! Remote reads, their answers, and the answers to messages (R359, R367, R369 to R371). -/

namespace Sys2Proof.Machine

/-! ### A READ-REQ at its target (R369, R370) -/

section
variable {u : State} {p sl n : Nat} {h : PktHead} {e : AncExt} {pay : List Byte}

/-- A request of one packet with LEN 16 goes to the responder of its port's slice. -/
theorem State.readReqIn_well (haux : u.auxGood p h e = true) (hext : h.ext = true) (hfirst : h.first = true) (hlast : h.last = true)
    (hoff : h.offset = 0) (hlen : h.len = 16) (hone : e.npm1 = 0) (hplain : e.flag_ = false) :
    u.readReqIn p h e pay = u.readIn (portSlice p) h e pay :=
  if_neg (by simp [haux, hext, hfirst, hlast, hoff, hlen, hone, hplain])

/-- One that passes its checks waits at the responder, or is answered FULL. -/
theorem State.readIn_passes (hn : n = field (leNat pay) 91 72 + 1) (hk : u.checkKey h e .read = 0)
    (hin : e.moff + n ≤ (u.anchor (e.key % 2 ^ 16)).length) : u.readIn sl h e pay =
      if (u.anc.jobs.get [] sl).length ≥ 64 then u.ackOut h.src e.sq h.seq e.key 3 0 true
      else { u with anc := { u.anc with jobs := u.anc.jobs.put sl (u.anc.jobs.get [] sl ++
        [⟨h.src, e.sq, h.seq, e.key, h.epoch, e.moff, field (leNat pay) 31 0, field (leNat pay) 71 32, n, field (leNat pay) 107 92⟩]) } } := by
  subst hn
  have hgood : ¬(u.checkKey h e .read = 0 ∧ e.moff + (field (leNat pay) 91 72 + 1) > (u.anchor (e.key % 2 ^ 16)).length) := by
    rintro ⟨-, hout⟩
    omega
  unfold State.readIn
  dsimp only
  rw [if_neg hgood, hk]
  exact if_neg (not_not_intro rfl)

/-- One of bytes beyond the anchor's length is answered XLATE. -/
theorem State.readIn_beyond (hn : n = field (leNat pay) 91 72 + 1) (hk : u.checkKey h e .read = 0)
    (hout : (u.anchor (e.key % 2 ^ 16)).length < e.moff + n) : u.readIn sl h e pay =
      ((u.anchorCount 2).messageCairn 7 e.key h.src 0).ackOut h.src e.sq h.seq e.key 7 0 true := by
  subst hn
  have hxlate : (if u.checkKey h e .read = 0 ∧ e.moff + (field (leNat pay) 91 72 + 1) > (u.anchor (e.key % 2 ^ 16)).length then 7
      else u.checkKey h e .read) = 7 := if_pos ⟨hk, hout⟩
  unfold State.readIn
  dsimp only
  rw [hxlate]
  exact if_pos (by decide)

end

/-! ### The responder (R370) -/

section
variable {s v : State} {sl : Nat} {j : ReadJob} {rest : List ReadJob} {segs : List (Nat × Nat)} {bs : List Byte}

/-- The oldest request, where its answer is one packet, whose bytes the anchor gives. -/
theorem State.serveRead_answers (hj : s.anc.jobs.get [] sl = j :: rest) (hpos : 1 ≤ j.rlen) (hone : j.rlen ≤ 4096)
    (hc : State.checkAccess { s with anc := { s.anc with jobs := s.anc.jobs.put sl rest } } sl
      { (default : PktHead) with src := j.src, seq := j.seq, epoch := j.epoch } ⟨false, 0, j.sq, j.moff, j.key⟩ .read j.moff j.rlen = (v, .ok segs))
    (hbs : v.readSegs segs = some bs) : s.serveRead sl = v.respond sl j 0 1 bs := by
  have hpackets : ceilDiv j.rlen 4096 = 1 := by
    unfold ceilDiv
    omega
  have hlen : Nat.min 4096 (j.rlen - 4096 * 0) = j.rlen := Nat.min_eq_right hone
  unfold State.serveRead
  rw [hj]
  dsimp only
  rw [hpackets, List.range_one, List.foldl_cons, List.foldl_nil, if_neg Bool.false_ne_true, hlen, Nat.mul_zero, Nat.add_zero, hc]
  dsimp only
  rw [hbs]

theorem exec_readResponderServe (hup : s.coreUp = true) (hsl : sl < 8) (hf : (s.slice sl).fenced = false) :
    exec (.readResponderServe sl) s = answer s (s.serveRead sl) :=
  congrArg (answer s) (if_pos ⟨hup, hsl, by simp [hf]⟩)

end

/-! ### A READ-RESP at its reader (R371) -/

section
variable {u v : State} {p sl : Nat} {h : PktHead} {e : AncExt} {pay : List Byte} {segs : List (Nat × Nat)}

theorem State.readRespIn_well (hext : h.ext = true) (hcut : cutGood h e = true) (hplain : e.flag_ = false) :
    u.readRespIn p h e pay = u.respIn (portSlice p) h e pay :=
  if_neg (by simp [hext, hcut, hplain])

/-- The one packet of an answer is written, and its message ends DONE. -/
theorem State.respIn_written (hone : e.npm1 = 0)
    (hc : u.checkAccess sl h e .write (e.moff + h.offset) pay.length = (v, .ok segs)) :
    u.respIn sl h e pay = (v.writeSegs segs pay).messageDone e.sq h.seq := by
  unfold State.respIn
  dsimp only
  rw [hc]
  exact if_pos hone

end

/-! ### An answer to a message (R359, R367) -/

/-- Taking a packet leaves the registers. -/
theorem State.owe_regs (s : State) (p : Nat) (pkt : List Byte) : (s.owe p pkt).regs = s.regs := by
  unfold State.owe
  dsimp only
  split
  · rfl
  · split <;> rfl

theorem reg_of_arrives {s u : State} {p type : Nat} {pkt : List Byte} {h : PktHead} (ha : Arrives s u p pkt type h) (off : Nat) :
    u.reg off = s.reg off := by
  obtain ⟨-, rfl, -⟩ := ha
  exact congrArg (fun r => Tab.get (regReset off) r off) (State.owe_regs ..)

section
variable {u : State} {q seq status foff : Nat} {resp : Bool} {m : OutMsg}

theorem State.ackIn_queue {h : PktHead} {pay : List Byte} (hq : field (leNat pay) 42 32 < 1024) : u.ackIn h pay =
    u.answerIn (field (leNat pay) 42 32) h.seq h.group (field (leNat pay) 67 44) (flag (leNat pay) 43) := if_neg (Nat.not_le.2 hq)

/-- An answer for no outstanding message is counted. -/
theorem State.answerIn_unknown (hm : u.outMsg q seq = none) : u.answerIn q seq status foff resp = u.bump 0x180 noUnit 1 := by
  unfold State.answerIn
  rw [hm]
  rfl

/-- An answer of the kind that an outstanding message awaits is taken by its status. -/
theorem State.answerIn_awaited (hm : u.outMsg q seq = some m)
    (hkind : (RingEnt.parse (u.hbmRead ((u.groundQ q).entryAddr m.entry) 64)).type = 2 ↔ resp = true) :
    u.answerIn q seq status foff resp =
      if status = 1 ∨ status = 2 then u.messageDone q seq
      else if status = 3 ∨ status = 4 then
        if ((u.queueCount q 2).groundQ q).st = .draining then (u.queueCount q 2).abandon q seq
        else (u.queueCount q 2).onMsg q seq (fun m => { m with
          timer := .backoff, timerAt := (u.queueCount q 2).count + m.backoff, silent := 0
          backoff := Nat.min (2 * m.backoff) (u.queueCount q 2).rto })
      else if status = 5 ∨ status = 6 ∨ status = 7 then u.messageFail q seq status foff
      else u.anchorCount 8 := by
  unfold State.answerIn
  rw [hm]
  exact if_neg (not_not_intro (propext hkind))

/-- FULL and INCOMPLETE make the message wait for its backoff, which doubles up to RTO. -/
theorem State.answerIn_backoff (hm : u.outMsg q seq = some m)
    (hkind : (RingEnt.parse (u.hbmRead ((u.groundQ q).entryAddr m.entry) 64)).type = 2 ↔ resp = true) (hstatus : status = 3 ∨ status = 4)
    (hst : (u.groundQ q).st ≠ .draining) : u.answerIn q seq status foff resp =
      (u.bump (0x4000 + 0x40 * q + 8) (unitWord q 0 0) 1).onMsg q seq (fun m => { m with
        timer := .backoff, timerAt := u.belay.count + m.backoff, silent := 0, backoff := Nat.min (2 * m.backoff) (u.reg 0x50000) }) := by
  have hqueue : (u.queueCount q 2).groundQ q = u.groundQ q := congrArg (Tab.get GroundQ.reset · q) (State.bump_gq ..)
  have hcount : (u.queueCount q 2).count = u.belay.count := congrArg Belay.count (State.bump_belay ..)
  have hrto : (u.queueCount q 2).rto = u.reg 0x50000 := congrArg (fun r => Tab.get (regReset 0x50000) r 0x50000) (State.bump_regs ..)
  rw [State.answerIn_awaited hm hkind, if_neg (by omega), if_pos hstatus, hqueue, if_neg hst, hcount, hrto]
  rfl

end

/-- Settles O56: a READ-REQ by its range and its responder's room; the responder's oldest request; the one packet of a READ-RESP; an ACK by its
message and its status. -/
theorem readsAndAnswers : Obligations.ReadsAndAnswers := by
  rintro s u p pkt pay h e n rfl rfl hn
  refine ⟨fun hr haux hext hfirst hlast hoff hlen hone hplain => ?_, fun sl j rest v segs bs hup hsl hf hj hpos hlen hc hbs => ?_,
    fun hr hext hcut hplain hone v segs hc => ?_, fun hr q hq hlt => ?_⟩
  · have hrow : exec (.readReq p pkt) s = answer s (u.readIn (portSlice p) h (packetExt pkt) (packetPayload pkt)) :=
      congrArg (answer s) ((ground_of_reaches hr _).trans (State.readReqIn_well haux hext hfirst hlast hoff hlen hone hplain))
    rw [hrow]
    refine ⟨fun hk hin => ⟨fun hroom => ?_, fun hfull => ?_⟩, fun hk hout => ?_⟩
    · exact congrArg (answer s) ((State.readIn_passes hn hk hin).trans (if_neg (Nat.not_le.2 hroom)))
    · exact congrArg (answer s) ((State.readIn_passes hn hk hin).trans (if_pos hfull))
    · exact congrArg (answer s) (State.readIn_beyond hn hk hout)
  · rw [exec_readResponderServe hup hsl hf, State.serveRead_answers hj hpos hlen hc hbs]
    rfl
  · exact congrArg (answer s) ((ground_of_reaches hr _).trans ((State.readRespIn_well hext hcut hplain).trans (State.respIn_written hone hc)))
  · subst hq
    have hrow : exec (.ack p pkt) s = answer s (u.answerIn (field (leNat (packetPayload pkt)) 42 32) h.seq h.group
        (field (leNat (packetPayload pkt)) 67 44) (flag (leNat (packetPayload pkt)) 43)) :=
      congrArg (answer s) ((ground_of_reaches hr _).trans (State.ackIn_queue hlt))
    rw [hrow]
    refine ⟨fun hm => congrArg (answer s) (State.answerIn_unknown hm), fun x hm hkind => ⟨fun hdone => ?_, fun hwait hst => ?_, fun hfail => ?_⟩⟩
    · exact congrArg (answer s) ((State.answerIn_awaited hm hkind).trans (if_pos hdone))
    · rw [State.answerIn_backoff hm hkind hwait hst, belay_of_arrives hr.1, reg_of_arrives hr.1]
      rfl
    · refine congrArg (answer s) ((State.answerIn_awaited hm hkind).trans ?_)
      rw [if_neg (by omega), if_neg (by omega), if_pos hfail]

end Sys2Proof.Machine

/-! Anchor operations, anchor words, and the timers of the message tracker (R349, R350, R362, R363, Tables 10-1, 10-2 and 10-7). -/

namespace Sys2Proof.Machine

/-! ### Waits, where none waits (R378) -/

theorem Tab.get_eq_or_mem {β : Type} (d : β) (t : Tab β) (k : Nat) : t.get d k = d ∨ ∃ j, (j, t.get d k) ∈ t := by
  induction t with
  | nil => exact .inl rfl
  | cons x t ih =>
    rw [Tab.get]
    split
    · exact .inr ⟨x.1, List.mem_cons_self⟩
    · exact ih.imp_right fun ⟨j, hj⟩ => ⟨j, List.mem_cons_of_mem x hj⟩

section
variable {s : State}

theorem State.runs_not_waiting (h : NoWaits s) (q : Nat) : ∀ r ∈ (s.groundQ q).runs, r.waiting = false := by
  obtain hreset | ⟨j, hj⟩ := Tab.get_eq_or_mem GroundQ.reset s.gq q
  · rw [State.groundQ, hreset]
    exact fun r hr => nomatch hr
  · exact h _ hj

theorem State.releaseWait_of_noWaits (h : NoWaits s) (q : Nat) : s.releaseWait q = s := by
  have hnone : (s.groundQ q).runs.find? (fun r => r.waiting) = none :=
    List.find?_eq_none.2 fun r hr => by simp [State.runs_not_waiting h q r hr]
  unfold State.releaseWait
  dsimp only
  rw [hnone]
  exact ite_self s

theorem State.foldl_releaseWait_of_noWaits (h : NoWaits s) (qs : List Nat) : qs.foldl State.releaseWait s = s := by
  induction qs with
  | nil => rfl
  | cons q qs ih => rw [List.foldl_cons, State.releaseWait_of_noWaits h, ih]

theorem State.releaseWaits_of_noWaits (h : NoWaits s) (fuel : Nat) : s.releaseWaits fuel = s := by
  cases fuel with
  | zero => rfl
  | succ fuel =>
    unfold State.releaseWaits
    dsimp only
    rw [State.foldl_releaseWait_of_noWaits h]
    exact if_pos rfl

end

/-! ### The start of an operation (R350) -/

section
variable {s : State} {m : Master}

/-- The rows that start an operation, each with the code that it starts. -/
theorem exec_ancCtl (hm : s.mayCore m false = true) {op : Nat} {c : Instr}
    (h : (op = 1 ∧ c = .ancCtlArm m) ∨ (op = 2 ∧ c = .ancCtlRevoke m) ∨ (op = 3 ∧ c = .ancCtlDisarm m)) :
    exec c s = answer s (s.startAnchorOp op) := by
  obtain ⟨rfl, rfl⟩ | ⟨rfl, rfl⟩ | ⟨rfl, rfl⟩ := h <;> exact congrArg (answer s) (if_pos hm)

theorem State.startAnchorOp_idle (h : s.anc.busy = none) (op : Nat) : s.startAnchorOp op =
    { s with anc := { s.anc with busy := some (op, s.anc.sel), op := 1, reason := 0, index := s.anc.sel } } := if_neg (by simp [h])

theorem State.startAnchorOp_busy (h : s.anc.busy.isSome = true) (op : Nat) : s.startAnchorOp op = s := if_pos h

end

/-! ### The end of an operation (R350, Table 10-2) -/

/-- ANC_STAT once an operation on anchor `i` has ended: its reason and its code. -/
def State.opEnded (s : State) (i why code : Nat) : Anchors := { s.anc with busy := none, index := i, reason := why, op := code }

/-- Anchor `i` is ARMED with the next epoch, no flags, and FBIND's binding; its translations are gone. -/
def State.armAnchor (s : State) (i : Nat) : State :=
  { s with anc := { s.opEnded i 0 2 with
    tab := s.anc.tab.put i { s.anchor i with
      st := .armed, epoch := ((s.anchor i).epoch + 1) % 2 ^ 16, fcount := 0, lastFseq := 0, bound := (s.anchor i).fbind
      lastArm := some s.belay.count }
    trans := s.anc.trans.map (fun e => (e.1, e.2.filter (fun t => t.anchor ≠ i))) } }

/-- Anchor `i` is REVOKED, and its translations are gone. -/
def State.revokeAnchor (s : State) (i : Nat) : State :=
  { s with anc := { s.opEnded i 0 3 with
    tab := s.anc.tab.put i { s.anchor i with st := .revoked }
    trans := s.anc.trans.map (fun e => (e.1, e.2.filter (fun t => t.anchor ≠ i))) } }

section
variable {s : State} {op i : Nat}

/-- An operation that is refused changes only ANC_STAT. -/
theorem State.finishAnchorOp_refused (hb : s.anc.busy = some (op, i)) (hwhy : s.anchorRefusal op i ≠ 0) :
    s.finishAnchorOp = { s with anc := s.opEnded i (s.anchorRefusal op i) 5 } := by
  unfold State.finishAnchorOp
  rw [hb]
  dsimp only
  rw [if_pos hwhy, if_pos hwhy]
  rfl

/-- With no message of the anchor tracked, no entry is freed and no flag is answered. -/
theorem State.dropTracked_none (h : ∀ t ∈ s.anc.tracker, t.anchor ≠ i) (status : Nat) : s.dropTracked i status = s := by
  have hgone : s.anc.tracker.filter (fun t => t.anchor = i) = [] := List.filter_eq_nil_iff.2 fun t ht => by simpa using h t ht
  have hkept : s.anc.tracker.filter (fun t => t.anchor ≠ i) = s.anc.tracker := List.filter_eq_self.2 fun t ht => by simpa using h t ht
  unfold State.dropTracked
  dsimp only
  rw [hgone, hkept, List.foldl_nil]

/-- An ARM that nothing forbids. -/
theorem State.finishAnchorOp_arms (hb : s.anc.busy = some (1, i)) (hwhy : s.anchorRefusal 1 i = 0)
    (hfree : ∀ t ∈ s.anc.tracker, t.anchor ≠ i) (hw : NoWaits s) : s.finishAnchorOp = s.armAnchor i := by
  have hdone : s.finishAnchorOp = ((s.armAnchor i).dropTracked i 5).flagsChanged := by
    unfold State.finishAnchorOp
    rw [hb]
    dsimp only
    rw [hwhy]
    rfl
  rw [hdone, State.dropTracked_none (s := s.armAnchor i) hfree]
  exact State.releaseWaits_of_noWaits (s := s.armAnchor i) hw _

/-- A REVOKE of an ARMED anchor. -/
theorem State.finishAnchorOp_revokes (hb : s.anc.busy = some (2, i)) (hst : (s.anchor i).st = .armed)
    (hfree : ∀ t ∈ s.anc.tracker, t.anchor ≠ i) : s.finishAnchorOp = s.revokeAnchor i := by
  have hwhy : s.anchorRefusal 2 i = 0 := if_pos hst
  have hdone : s.finishAnchorOp = (s.revokeAnchor i).dropTracked i 6 := by
    unfold State.finishAnchorOp
    rw [hb]
    dsimp only
    rw [hwhy]
    rfl
  rw [hdone, State.dropTracked_none (s := s.revokeAnchor i) hfree]

/-- A DISARM of a REVOKED anchor. -/
theorem State.finishAnchorOp_disarms (hb : s.anc.busy = some (3, i)) (hst : (s.anchor i).st = .revoked) :
    s.finishAnchorOp = { s with anc := { s.opEnded i 0 4 with tab := s.anc.tab.put i { s.anchor i with st := .free } } } := by
  have hwhy : s.anchorRefusal 3 i = 0 := if_pos hst
  unfold State.finishAnchorOp
  rw [hb]
  dsimp only
  rw [hwhy]
  rfl

/-- A check of an operation passes, and so do those after it. -/
theorem refusal_zero_iff {refused : Prop} [Decidable refused] {why rest : Nat} (h : why ≠ 0) :
    (if refused then why else rest) = 0 ↔ ¬refused ∧ rest = 0 := by
  by_cases hr : refused
  · simp [hr, h]
  · simp [hr]

/-- Nothing forbids an ARM (Table 10-2). -/
theorem State.armRefusal_zero_iff (s : State) (i : Nat) : s.anchorRefusal 1 i = 0 ↔
    (s.anchor i).st ≠ .armed ∧ (∀ t, (s.anchor i).lastArm = some t → t + 4096 ≤ s.belay.count) ∧ (s.anchor i).tag ≠ 0 ∧
      ((s.anchor i).rightF = true ∨ (s.anchor i).rightW = true ∨ (s.anchor i).rightR = true) ∧ (s.anchor i).length ≠ 0 ∧
      (s.anchor i).resv = 0 := by
  have hrecent : (s.anchor i).lastArm.any (fun t => decide (s.count < t + 4096)) = true ↔
      ¬∀ t, (s.anchor i).lastArm = some t → t + 4096 ≤ s.belay.count := by
    cases (s.anchor i).lastArm with
    | none => simp
    | some t =>
      rw [Option.any_some, decide_eq_true_iff]
      simp [State.count]
  have hrights : ((!(s.anchor i).rightF) = true ∧ (!(s.anchor i).rightW) = true ∧ (!(s.anchor i).rightR) = true) ↔
      ¬((s.anchor i).rightF = true ∨ (s.anchor i).rightW = true ∨ (s.anchor i).rightR = true) := by simp
  simp only [State.anchorRefusal]
  rw [refusal_zero_iff (by decide), refusal_zero_iff (by decide), refusal_zero_iff (by decide), refusal_zero_iff (by decide),
    refusal_zero_iff (by decide), refusal_zero_iff (by decide), hrecent, hrights]
  simp only [Classical.not_not, ne_eq, and_true]

end

/-! ### The words of an anchor (R349, Table 10-1) -/

theorem flag_toNat (v : Word) (i : Nat) : flag v.toNat i = v.getLsbD i := by
  rw [BitVec.getLsbD, Nat.testBit_eq_decide_div_mod_eq, flag, Nat.shiftRight_eq_div_pow]
  rfl

section
variable {s : State} {m : Master}

theorem Anchor.setWord_state (a : Anchor) (v : Word) : a.setWord 0 v.toNat = { a with
    page1G := v.getLsbD 29, irq := v.getLsbD 28, fbind := v.getLsbD 27, rightF := v.getLsbD 25, rightW := v.getLsbD 24
    rightR := v.getLsbD 23, resv := a.resv / 2 ^ 7 * 2 ^ 7 + field v.toNat 22 16, tag := field v.toNat 15 0 } := by
  simp only [Anchor.setWord, flag_toNat]

theorem Anchor.setWord_length (a : Anchor) (v : Word) :
    a.setWord 3 v.toNat = { a with length := a.length / 2 ^ 32 * 2 ^ 32 + v.toNat } := by
  rw [Anchor.setWord, Nat.mod_eq_of_lt v.isLt]

theorem Anchor.setWord_pages (a : Anchor) (v : Word) : a.setWord 5 v.toNat = { a with plBase := v.toNat } := by
  rw [Anchor.setWord, Nat.mod_eq_of_lt v.isLt]

/-- The words above 5 are the engine's own. -/
theorem Anchor.setWord_engine (a : Anchor) {w : Nat} (hw : 6 ≤ w) (v : Nat) : a.setWord w v = a := by
  obtain ⟨k, rfl⟩ := Nat.exists_eq_add_of_le' hw
  rfl

/-- A word of an anchor that is not ARMED is written by the owner. -/
theorem exec_ancEWrite (hm : s.mayCore m false = true) (hst : (s.anchor s.anc.sel).st ≠ .armed) (w : Nat) (v : Word) {f : Anchor → Anchor}
    (hf : ∀ a : Anchor, a.setWord w v.toNat = f a) : exec (.ancEWrite m w v) s = answer s (s.onAnchor s.anc.sel f) := by
  obtain rfl : (fun a => a.setWord w v.toNat) = f := funext hf
  exact congrArg (answer s) ((if_pos hm).trans (if_neg hst))

theorem exec_ancEWrite_armed (hi : Inv s) (hm : s.mayCore m false = true) (hst : (s.anchor s.anc.sel).st = .armed) (w : Nat) (v : Word) :
    exec (.ancEWrite m w v) s = .next s :=
  (congrArg (answer s) ((if_pos hm).trans (if_pos hst))).trans (answer_self s hi)

end

/-! ### The timers of the tracker (R362, R363, Table 10-7) -/

section
variable {s : State} {src sq seq : Nat} {resp : Bool} {t : TrackEnt}

/-- HOLD after the last packet the entry is freed, and a WRITE is answered INCOMPLETE. -/
theorem State.holdExpired_last {last : Nat} (ht : s.track src sq seq resp = some t) (hlast : t.lastTick = some last) :
    s.holdExpired src sq seq resp = if s.count < last + s.reg 0x200030 then s
      else if resp then s.untrack src sq seq resp else (s.untrack src sq seq resp).ackOut src sq seq t.key 4 0 false := by
  unfold State.holdExpired
  rw [ht]
  dsimp only
  rw [hlast]

theorem State.holdExpired_open (ht : s.track src sq seq resp = some t) (hlast : t.lastTick = none) :
    s.holdExpired src sq seq resp = s := by
  unfold State.holdExpired
  rw [ht]
  dsimp only
  rw [hlast]

/-- AGE frees the entry of a message whose last packet has not come, and no other. -/
theorem State.ageExpired_eq (ht : s.track src sq seq resp = some t) : s.ageExpired src sq seq resp =
    if t.lastTick.isNone = true ∧ s.count ≥ t.seenTick + s.reg 0x200034 then (s.untrack src sq seq resp).anchorCount 6 else s := by
  unfold State.ageExpired
  rw [ht]

end

/-- Settles O57: an operation started, and ended by its code and its refusal; a word by the anchor's state; a tracker entry by its last packet. -/
theorem anchorEngine : Obligations.AnchorEngine := by
  refine ⟨fun s m => ⟨fun hm op c hrow => ?_, ?_, ?_⟩, ?_⟩
  · rw [exec_ancCtl hm hrow]
    exact ⟨fun hidle => congrArg (answer s) (State.startAnchorOp_idle hidle op),
      fun hbusy hi => (congrArg (answer s) (State.startAnchorOp_busy hbusy op)).trans (answer_self s hi)⟩
  · rintro op i a u hb rfl hfree hw rfl
    refine ⟨?_, ?_, ?_, ?_, State.armRefusal_zero_iff s i⟩
    · rintro rfl hwhy
      exact congrArg (answer s) (State.finishAnchorOp_arms hb hwhy hfree hw)
    · rintro rfl hst
      exact congrArg (answer s) (State.finishAnchorOp_revokes hb hst hfree)
    · rintro rfl hst
      exact congrArg (answer s) (State.finishAnchorOp_disarms hb hst)
    · rintro why rfl hwhy
      exact congrArg (answer s) (State.finishAnchorOp_refused hb hwhy)
  · rintro v a hm rfl
    refine ⟨fun hst => ⟨?_, ?_, ?_, ?_, ?_, ?_, fun w hw => ?_⟩, fun hst hi w => exec_ancEWrite_armed hi hm hst w v⟩
    · exact exec_ancEWrite hm hst 0 v (Anchor.setWord_state · v)
    · exact exec_ancEWrite hm hst 1 v fun _ => rfl
    · exact exec_ancEWrite hm hst 3 v (Anchor.setWord_length · v)
    · exact exec_ancEWrite hm hst 2 v fun _ => rfl
    · exact exec_ancEWrite hm hst 4 v fun _ => rfl
    · exact exec_ancEWrite hm hst 5 v (Anchor.setWord_pages · v)
    · exact exec_ancEWrite hm hst w v fun a => a.setWord_engine hw _
  · rintro s k t u ht rfl
    refine ⟨fun last hlast => ⟨fun hdue => ⟨fun hresp => ?_, fun hresp => ?_⟩, fun hearly hi => ?_, fun hi => ?_⟩,
      fun hopen => ⟨fun hdue => ?_, fun hearly hi => ?_, fun hi => ?_⟩⟩
    · exact congrArg (answer s) ((State.holdExpired_last ht hlast).trans ((if_neg (Nat.not_lt.2 hdue)).trans (if_neg (by simp [hresp]))))
    · exact congrArg (answer s) ((State.holdExpired_last ht hlast).trans ((if_neg (Nat.not_lt.2 hdue)).trans (if_pos hresp)))
    · exact (congrArg (answer s) ((State.holdExpired_last ht hlast).trans (if_pos hearly))).trans (answer_self s hi)
    · exact (congrArg (answer s) ((State.ageExpired_eq ht).trans (if_neg (by simp [hlast])))).trans (answer_self s hi)
    · exact congrArg (answer s) ((State.ageExpired_eq ht).trans (if_pos ⟨by simp [hopen], hdue⟩))
    · exact (congrArg (answer s) ((State.ageExpired_eq ht).trans (if_neg fun h => Nat.not_lt.2 h.2 hearly))).trans (answer_self s hi)
    · exact (congrArg (answer s) (State.holdExpired_open ht hopen)).trans (answer_self s hi)

end Sys2Proof.Machine

/-! A launch, its cancel and a STOP, and the conditions under which each is accepted (R400, R434). -/

namespace Sys2Proof.Machine

/-! ### Rows of the owner -/

section
variable {s : State} {m : Master}

/-- The owner's launch is requested, whatever becomes of the request. -/
theorem exec_glbCtlLaunch (h : s.may m false = true) (replay : Bool) :
    exec (.glbCtlLaunch m replay) s = answer s (s.requestLaunch replay) := congrArg (answer s) (if_pos h)

/-- So is the cancel. -/
theorem exec_glbCtlCancel (h : s.may m false = true) : exec (.glbCtlCancel m) s = answer s s.cancelLaunch :=
  congrArg (answer s) (if_pos h)

/-- So is the STOP. -/
theorem exec_glbCtlStop (h : s.may m false = true) : exec (.glbCtlStop m) s = answer s s.requestStop :=
  congrArg (answer s) (if_pos h)

end

section
variable {s : State}

/-- Of the requests, the conditions of every step read only whether a wake is under way. -/
theorem answer_req (hi : Inv s) {t : State} {r : Requests} (h : t = { s with req := r }) (hw : r.waking = s.req.waking) :
    answer s t = .next { s with req := r } :=
  (congrArg (answer s) h).trans (answer_of_eq hi (h2 := hw))

/-- An effect that is none, where the conditions hold. -/
theorem answer_kept (hi : Inv s) {t : State} (h : t = s) : answer s t = .next s := h.symm ▸ answer_self s hi

/-! ### A launch (R400) -/

/-- Where every condition of R400 holds there is no reason to refuse. -/
theorem State.launchRefusal_none {c : Nat} (hst : s.power.st = .ready) (hent : s.req.entering = none)
    (hg : ∀ g ∈ s.image.namedGroups, (s.groupQ g).st = 2) (hlock : s.belay.st = .locked) (hlead : s.belay.count + 62500 ≤ c)
    (hrange : c ≤ s.belay.count + 2 ^ 38) (t0 : Nat) : s.launchRefusal c t0 false = 0 := by
  have harmed : s.image.namedGroups.any (fun g => (s.groupQ g).st ≠ 2) = false := by simpa using hg
  have hlo : ¬c < s.count + 62500 := Nat.not_lt.2 hlead
  have hhi : ¬c > s.count + 2 ^ 38 := Nat.not_lt.2 hrange
  rw [State.launchRefusal, if_neg (by simp [hst, hent]), harmed, if_neg (by simp), if_neg (by simp [hlock]), if_neg hlo, if_neg hhi,
    if_neg (by simp)]

/-- Outside READY the reason is the state. -/
theorem State.launchRefusal_state (hst : s.power.st ≠ .ready) (c t0 : Nat) (replay : Bool) : s.launchRefusal c t0 replay = 1 :=
  if_pos (.inl hst)

/-- A launch that is not refused waits for its count. -/
theorem State.requestLaunch_accepted {replay : Bool} (h : s.launchRefusal (s.reg64 0x10010) (s.reg48 0x10018) replay = 0) :
    s.requestLaunch replay = { s with req := { s.req with
      launchOn := true, launch := 1, launchReason := 0, launchAt := s.reg64 0x10010, launchStep := s.reg48 0x10018, replay := replay } } :=
  if_neg (fun k => k h)

/-- A refused one leaves its reason, and the launch that waits. -/
theorem State.requestLaunch_refused {replay : Bool} {why : Nat}
    (h : s.launchRefusal (s.reg64 0x10010) (s.reg48 0x10018) replay = why) (hwhy : why ≠ 0) :
    s.requestLaunch replay = { s with req := { s.req with launch := 3, launchReason := why } } := by
  subst h
  exact if_pos hwhy

/-- A cancel is in time before c − 64. -/
theorem State.cancelLaunch_inTime (hon : s.req.launchOn = true) (h : s.belay.count + 64 < s.req.launchAt) :
    s.cancelLaunch = { s with req := { s.req with launchOn := false, launch := 4, replay := false } } := if_pos ⟨hon, h⟩

/-- From then on it has no effect. -/
theorem State.cancelLaunch_late (h : s.req.launchAt ≤ s.belay.count + 64) : s.cancelLaunch = s :=
  if_neg (fun k => Nat.not_lt.2 h k.2)

/-! ### STOP (R434) -/

/-- STOP in RUNNING is accepted up to 64 ticks before the origin of its step, and later refused as LEAD. -/
theorem State.requestStop_running (h : s.power.st = .running) :
    s.requestStop = if s.originOf (s.reg48 0x30) < s.belay.count + 64 then { s with req := { s.req with stop := 3, stopReason := 2 } }
      else { s with req := { s.req with stopOn := true, stop := 1, stopReason := 0, stopStep := s.reg48 0x30 } } :=
  if_neg (by simp [State.isRunning, h])

/-- Elsewhere it is refused as STATE. -/
theorem State.requestStop_state (h : s.power.st ≠ .running) :
    s.requestStop = { s with req := { s.req with stop := 3, stopReason := 1 } } := if_pos (by simp [State.isRunning, h])

end

/-- Settles O19: each row is a request of the owner, and each request has one line for its acceptance and one for its refusal. -/
theorem launchAndStop : Obligations.LaunchAndStop := by
  intro s m hi hm
  rw [exec_glbCtlCancel hm, exec_glbCtlStop hm]
  refine ⟨fun hst hent hg hlock hlead hrange => ?_, fun replay hst => ?_, fun hon hlead => ?_, fun hlate => ?_, fun hst hlead => ?_,
    fun hst hlate => ?_, fun hst => ?_⟩
  · rw [exec_glbCtlLaunch hm]
    exact answer_req hi (State.requestLaunch_accepted (State.launchRefusal_none hst hent hg hlock hlead hrange _)) rfl
  · rw [exec_glbCtlLaunch hm]
    exact answer_req hi (State.requestLaunch_refused (State.launchRefusal_state hst _ _ replay) Nat.one_ne_zero) rfl
  · exact answer_req hi (State.cancelLaunch_inTime hon hlead) rfl
  · exact answer_kept hi (State.cancelLaunch_late hlate)
  · exact answer_req hi ((State.requestStop_running hst).trans (if_neg (Nat.not_lt.2 hlead))) rfl
  · exact answer_req hi ((State.requestStop_running hst).trans (if_pos hlate)) rfl
  · exact answer_req hi (State.requestStop_state hst) rfl

end Sys2Proof.Machine

/-! Time between pods: the messages of a machine root and of a pod root (R391 to R393). -/

namespace Sys2Proof.Machine

section
variable {s : State} {msg : PtpMsg}

/-- Of the receiver, the conditions of every step read only the count and the state. -/
theorem answer_belay (hi : Inv s) {t : State} {b : Belay} (h : t = { s with belay := b }) (hc : b.count = s.belay.count := by rfl)
    (hst : b.st = s.belay.st := by rfl) : answer s t = .next { s with belay := b } :=
  (congrArg (answer s) h).trans (answer_of_eq hi (h9 := hc) (h10 := hst))

/-! ### Messages sent (R392) -/

/-- A LOCKED machine root sends Sync with its time. -/
theorem exec_syncSend {port : Nat} (hi : Inv s) (hr : s.belayBlock.role = 2) (hl : s.belay.st = .locked) (hup : s.carriageUp port = true) :
    exec (.syncSend port) s = .next { s with belay := { s.belay with
      ptpOut := s.belay.ptpOut ++ [(0, port, s.belay.ptpSeq, (s.belay.count : Int) * 192)], ptpSeq := (s.belay.ptpSeq + 1) % 65536 } } :=
  answer_belay hi (if_pos ⟨hr, hl, hup⟩)

/-- A pod root sends Delay_Req on a candidate, and keeps its number and its time. -/
theorem exec_delayReqSend {port : Nat} (hi : Inv s) (hr : s.belayBlock.role = 1) (hc : port ∈ s.candidates)
    (hup : s.carriageUp port = true) :
    exec (.delayReqSend port) s = .next { s with belay := { s.belay with
      ptpOut := s.belay.ptpOut ++ [(1, port, s.belay.ptpSeq, (s.belay.count : Int) * 192)], ptpSeq := (s.belay.ptpSeq + 1) % 65536
      dreq := some (s.belay.ptpSeq, (s.belay.count : Int) * 192) } } :=
  answer_belay hi (if_pos ⟨hr, List.contains_iff_mem.2 hc, hup⟩)

/-- A machine root answers a Delay_Req of its domain with the instant at which it came. -/
theorem exec_delayReq (hi : Inv s) (hs : s.power.standby = true) (hr : s.belayBlock.role = 2) (hd : msg.domain = s.belayBlock.domain)
    (hup : s.carriageUp msg.port = true) :
    exec (.delayReq msg) s = .next { s with belay := { s.belay with ptpOut := s.belay.ptpOut ++ [(3, msg.port, msg.seq, msg.stamp)] } } :=
  answer_belay hi (if_pos ⟨hs, hr, hd, hup⟩)

/-- Who is no machine root sends no Sync and answers no Delay_Req. -/
theorem exec_notMachineRoot (hi : Inv s) (hr : s.belayBlock.role ≠ 2) (port : Nat) :
    exec (.delayReq msg) s = .next s ∧ exec (.syncSend port) s = .next s :=
  ⟨answer_kept hi (if_neg fun ⟨_, hrole, _⟩ => hr hrole), answer_kept hi (if_neg fun ⟨hrole, _⟩ => hr hrole)⟩

/-- Who is no pod root sends no Delay_Req. -/
theorem exec_delayReqSend_notPodRoot (hi : Inv s) (hr : s.belayBlock.role ≠ 1) (port : Nat) : exec (.delayReqSend port) s = .next s :=
  answer_kept hi (if_neg fun ⟨hrole, _⟩ => hr hrole)

/-! ### Messages taken by a pod root (R391, R393) -/

/-- A pod root takes the messages of its domain that come in at a candidate. -/
theorem State.ptpMine_iff : s.ptpMine msg = true ↔ s.power.standby = true ∧ s.belayBlock.role = 1 ∧ msg.domain = s.belayBlock.domain ∧
    msg.port ∈ s.candidates ∧ s.carriageUp msg.port = true := by
  simp [State.ptpMine, and_assoc]

/-- Nobody else does. -/
theorem State.ptpMine_notPodRoot (hr : s.belayBlock.role ≠ 1) : s.ptpMine msg = false :=
  Bool.eq_false_iff.2 fun k => hr (State.ptpMine_iff.1 k).2.1

/-- An interval taken is the offset, the phase and the run of good or bad Syncs. -/
theorem State.takeSync_synced (s : State) (ms : Int) : Synced s ms (s.takeSync ms) := by
  simp [Synced, State.takeSync]

/-- A command that takes an interval. -/
theorem next_synced (hi : Inv s) {c : Instr} {t : State} {ms : Int} (h : exec c s = answer s t) (ht : t = s.takeSync ms) :
    ∃ t, exec c s = .next t ∧ Synced s ms t :=
  ⟨s.takeSync ms, h.trans (answer_belay hi ht), s.takeSync_synced ms⟩

/-- A one-step Sync gives its interval at once; a two-step Sync waits for its Follow_Up. -/
theorem State.syncIn_mine (h : s.ptpMine msg = true) : s.syncIn msg =
    if msg.twoStep then { s with belay := { s.belay with syncWait := some (msg.seq, msg.stamp, msg.time, msg.correction) } }
    else s.takeSync (msg.stamp - msg.time - msg.correction) := if_neg (by simp [h])

/-- The Follow_Up of the Sync that waits. -/
theorem State.followUpIn_mine (h : s.ptpMine msg = true) {stamp time corr : Int} (hw : s.belay.syncWait = some (msg.seq, stamp, time, corr)) :
    s.followUpIn msg = s.takeSync (stamp - msg.time - corr - msg.correction) := by
  simp [State.followUpIn, hw, h]

/-- The Delay_Resp to this pod root's own request. -/
theorem State.delayRespIn_mine (h : s.ptpMine msg = true) {t3 ms : Int} (hd : s.belay.dreq = some (msg.seq, t3)) (hms : s.belay.ms = some ms)
    (hp : msg.peer = s.coord) : s.delayRespIn msg =
    { s with belay := { s.belay with delay := (ms + (msg.time - t3 - msg.correction)) / 2, dreq := none } } := by
  simp [State.delayRespIn, hd, hms, h, hp]

/-- A message that is not this pod root's has no effect. -/
theorem exec_ptp_notMine (hi : Inv s) (h : s.ptpMine msg = false) :
    exec (.sync msg) s = .next s ∧ exec (.followUp msg) s = .next s ∧ exec (.delayResp msg) s = .next s := by
  have hsync : s.syncIn msg = s := if_pos (by simp [h])
  have hfollow : s.followUpIn msg = s := by
    cases hw : s.belay.syncWait <;> simp [State.followUpIn, hw, h]
  have hresp : s.delayRespIn msg = s := by
    cases hd : s.belay.dreq <;> cases hms : s.belay.ms <;> simp [State.delayRespIn, hd, hms, h]
  exact ⟨answer_kept hi hsync, answer_kept hi hfollow, answer_kept hi hresp⟩

end

/-- Settles O47: what a root sends is one guarded row each; what a pod root takes is what `ptpMine` says is its own. -/
theorem timeMessages : Obligations.TimeMessages := by
  intro s port msg hi
  refine ⟨exec_syncSend hi, exec_delayReqSend hi, exec_delayReq hi, fun hs hr hd hc hup => ?_, fun hr => ?_,
    (exec_notMachineRoot hi · port)⟩
  · have hmine : s.ptpMine msg = true := State.ptpMine_iff.2 ⟨hs, hr, hd, hc, hup⟩
    refine ⟨fun hone => ?_, fun htwo => ?_, fun stamp time corr hw => ?_, fun t3 ms hq hms hp => ?_⟩
    · exact next_synced hi rfl ((State.syncIn_mine hmine).trans (if_neg (by simp [hone])))
    · exact answer_belay hi ((State.syncIn_mine hmine).trans (if_pos htwo))
    · exact next_synced hi rfl (State.followUpIn_mine hmine hw)
    · exact answer_belay hi (State.delayRespIn_mine hmine hq hms hp)
  · obtain ⟨hsync, hfollow, hresp⟩ := exec_ptp_notMine hi (State.ptpMine_notPodRoot (msg := msg) hr)
    exact ⟨hsync, hfollow, hresp, exec_delayReqSend_notPodRoot hi hr port⟩

end Sys2Proof.Machine

/-! The belay receiver: its states, its reference, a re-lock and a jump (R388, R394 to R397, Table 11-3). -/

namespace Sys2Proof.Machine

/-! ### Out of LOCKED, and on to STALLED (R394, R395) -/

section
variable {s : State} {u p : Nat}

/-- A receiver below a root leaves LOCKED without a usable candidate, after two bad marks or two that disagree, or 2,304 ticks after
its last good one. -/
theorem State.holdoverDue_iff (hst : s.belay.st = .locked) (hr : s.belayBlock.role = 0) : s.holdoverDue = true ↔
    (s.usable s.belay.cand = false ∧ s.firstUsable = none) ∨ 2 ≤ s.belay.badRun ∨ 2 ≤ s.belay.disagree ∨
      s.belay.lastGood + 2304 ≤ s.belay.count := by
  simp [State.holdoverDue, hst, hr, or_assoc]

/-- HOLDOVER once a condition holds. -/
theorem exec_belayHoldover_due (hs : s.power.standby = true) (h : s.holdoverDue = true) :
    exec .belayHoldover s = nextOf s s.enterHoldover := congrArg (nextOf s) (if_pos ⟨hs, h⟩)

/-- Not before. -/
theorem exec_belayHoldover_stays (hi : Inv s) (h : ¬s.holdoverDue = true) : exec .belayHoldover s = .next s :=
  answer_kept hi (if_neg fun ⟨_, hdue⟩ => h hdue)

/-- STALLED once HOLD ticks have passed. -/
theorem exec_belayStall_due (hs : s.power.standby = true) (hst : s.belay.st = .holdover)
    (h : s.belay.hoStart + s.belayBlock.hold ≤ s.belay.count) : exec .belayStall s = nextOf s
      (State.belayCairn { s with belay := { s.belay with st := .stalled, holdFor := false } } 5 0) :=
  congrArg (nextOf s) (if_pos ⟨hs, hst, h⟩)

/-- Not sooner. -/
theorem exec_belayStall_early (hi : Inv s) (h : s.belay.count < s.belay.hoStart + s.belayBlock.hold) : exec .belayStall s = .next s :=
  answer_kept hi (if_neg fun ⟨_, _, hle⟩ => Nat.not_lt.2 hle h)

/-! ### To LOCKED (R394, R397) -/

/-- Below a machine root, ACQUIRE ends with enough good markers or Syncs, and the count is the upstream's. -/
theorem State.acquireLock_candidate (hs : s.power.standby = true) (hst : s.belay.st = .acquire) (him : s.img.run.isSome = true)
    (hr : s.belayBlock.role < 2) (hp : s.firstUsable = some p) (u : Nat) : s.acquireLock u =
      if s.belay.goodRun ≥ (if s.belayBlock.role = 1 then 16 else 4) then LockedOn { s with belay := { s.belay with count := u } } p else s := by
  have hmay : ¬(!s.power.standby ∨ s.belay.st ≠ .acquire ∨ s.img.run.isNone) := by
    simp [hs, hst, Option.isSome_iff_ne_none.1 him]
  rw [State.acquireLock, if_neg hmay, if_neg (Nat.ne_of_lt hr), hp]
  rfl

/-- A held count resumes when the upstream reaches it. -/
theorem exec_belayStallResume_reached (hs : s.power.standby = true) (hst : s.belay.st = .stalled) (hh : s.belay.holdFor = true)
    (h : s.belay.count ≤ u) : exec (.belayStallResume u) s = nextOf s (LockedOn s s.belay.cand) :=
  congrArg (nextOf s) (if_pos ⟨hs, hh, hst, h⟩)

/-- Not before. -/
theorem exec_belayStallResume_behind (hi : Inv s) (h : u < s.belay.count) : exec (.belayStallResume u) s = .next s :=
  answer_kept hi (if_neg fun ⟨_, _, _, hle⟩ => Nat.not_lt.2 hle h)

/-! ### The machine root's reference (R394, R396) -/

/-- A LOCKED machine root holds over without its reference. -/
theorem State.refLost_locked (hr : s.belayBlock.role = 2) (href : s.belayBlock.refsel = false) (hst : s.belay.st = .locked) :
    s.refLost = State.enterHoldover { s with belay := { s.belay with refPresent := false } } :=
  if_pos ⟨hr, congrArg not href, hst⟩

/-- With its reference back a root in ACQUIRE starts. -/
theorem State.refBack_acquire (hr : s.belayBlock.role = 2) (href : s.belayBlock.refsel = false) (him : s.img.run.isSome = true)
    (hst : s.belay.st = .acquire) : s.refBack = State.rootStart { s with belay := { s.belay with refPresent := true } } := by
  rw [State.refBack]
  refine (if_pos ⟨hr, congrArg not href, him⟩).trans ?_
  simp only [hst]

/-- One that held over or stalled resumes from where it stood. -/
theorem State.refBack_resumes (hr : s.belayBlock.role = 2) (href : s.belayBlock.refsel = false) (him : s.img.run.isSome = true)
    (hst : s.belay.st = .holdover ∨ s.belay.st = .stalled) :
    s.refBack = LockedOn { s with belay := { s.belay with refPresent := true } } 63 := by
  rw [State.refBack]
  refine (if_pos ⟨hr, congrArg not href, him⟩).trans ?_
  obtain hst | hst := hst <;> simp only [hst] <;> rfl

/-- A row of the reference while the supply is there. -/
theorem exec_reference (hs : s.power.standby = true) :
    exec .referenceInputLost s = nextOf s s.refLost ∧ exec .referenceInputPresent s = nextOf s s.refBack :=
  ⟨congrArg (nextOf s) (if_pos hs), congrArg (nextOf s) (if_pos hs)⟩

/-! ### A re-lock and a jump (R397) -/

/-- However far a jump gets count by count, it ends at its target. -/
theorem State.jumpFrom_count (u since fuel : Nat) (s : State) : (s.jumpFrom u since fuel).belay.count = u := by
  induction fuel generalizing s with
  | zero => rfl
  | succ fuel ih =>
    rw [State.jumpFrom]
    split
    · exact ih _
    · rfl

/-- So does the count step. -/
theorem State.jump_count (s : State) (u : Nat) : (s.jump u).belay.count = u := State.jumpFrom_count ..

/-- Outside RUNNING, with no launch stepped over, a re-lock takes the upstream's count. -/
theorem State.relock_idle (hrun : s.power.st ≠ .running) (h : s.power.st ≠ .ready ∨ s.req.launchOn = false) (p u : Nat) :
    s.relock p u = LockedOn { s with belay := { s.belay with count := u } } p := by
  have hlaunch : ¬(s.power.st = .ready ∧ s.req.launchOn ∧ s.req.entering.isNone ∧ s.count ≤ s.req.launchAt ∧ s.req.launchAt < u) := by
    rintro ⟨hready, hon, -⟩
    obtain h | h := h
    · exact h hready
    · simp [h] at hon
  rw [State.relock, if_neg (by simp [State.isRunning, hrun]), if_neg hlaunch]
  rfl

/-- A count too far away: HELD for cause 9, with its cairn, and the requests dropped. -/
def State.heldByJump (s : State) : State := ((s.belayCairn 7 0).hold 9).dropRequests

/-- A count that stalls has a cairn, unless it stood STALLED. -/
def State.stallCairn (s : State) : State := if s.belay.st = .stalled then s else s.belayCairn 5 0

/-- The cairn leaves the count, the pins in flight and the global state. -/
theorem State.stallCairn_frame (s : State) : s.stallCairn.belay.count = s.belay.count ∧ s.stallCairn.seq.flights = s.seq.flights ∧
    s.stallCairn.power = s.power := by
  unfold State.stallCairn State.belayCairn
  split <;> simp

/-- In RUNNING the difference of the counts says what a re-lock does. -/
theorem State.relock_running (hrun : s.power.st = .running) (p u : Nat) : s.relock p u =
    if u > s.belay.count + 2 ^ 26 ∨ s.belay.count > u + 2 ^ 26 then
      LockedOn { s.heldByJump with belay := { s.heldByJump.belay with count := u } } p
    else if u ≤ s.belay.count + 1 ∧ s.belay.count ≤ u + 1 then LockedOn s p
    else if u < s.belay.count then
      { s.stallCairn with belay := { s.stallCairn.belay with st := .stalled, cand := p, holdFor := true } }
    else LockedOn (s.jump u) p := if_pos (by simp [State.isRunning, hrun])

/-- Within a tick the receiver is LOCKED and the count stays (R388). -/
theorem State.relock_near (hrun : s.power.st = .running) (hlo : u ≤ s.belay.count + 1) (hhi : s.belay.count ≤ u + 1) :
    s.relock p u = LockedOn s p := by
  rw [State.relock_running hrun, if_neg (by omega), if_pos ⟨hlo, hhi⟩]

end

/-! ### A command that re-locks in RUNNING -/

section
variable {s : State} {p u : Nat} {k : Instr}

/-- An upstream that is behind stalls the count, with the pins in flight kept. -/
theorem relock_behind (hk : exec k s = answer s (s.relock p u)) (hrun : s.power.st = .running) (hlo : u + 1 < s.belay.count)
    (hhi : s.belay.count ≤ u + 2 ^ 26) : ∃ t, exec k s = .next t ∧ t.belay.st = .stalled ∧ t.belay.count = s.belay.count ∧
      t.belay.holdFor = true ∧ t.belay.cand = p ∧ t.seq.flights = s.seq.flights ∧ t.power = s.power := by
  rw [State.relock_running hrun, if_neg (by omega), if_neg (by omega), if_pos (by omega)] at hk
  obtain ⟨hcount, hflights, hpower⟩ := s.stallCairn_frame
  refine next_after k s _ _ hk fun x hx => ?_
  rw [hx.belay, hx.seq, hx.power]
  exact ⟨rfl, hcount, rfl, rfl, hflights, hpower⟩

/-- One that is ahead makes the count step to it. -/
theorem relock_ahead (hk : exec k s = answer s (s.relock p u)) (hrun : s.power.st = .running) (hlo : s.belay.count + 1 < u)
    (hhi : u ≤ s.belay.count + 2 ^ 26) : ∃ t, exec k s = .next t ∧ t.belay.st = .locked ∧ t.belay.count = u ∧ t.belay.cand = p := by
  rw [State.relock_running hrun, if_neg (by omega), if_neg (by omega), if_neg (by omega)] at hk
  refine next_after k s _ _ hk fun x hx => ?_
  rw [hx.belay]
  exact ⟨rfl, s.jump_count u, rfl⟩

/-- One that is too far away leaves RUNNING for HELD, cause 9, with its cairn and without pins or requests. -/
theorem relock_far (hk : exec k s = answer s (s.relock p u)) (hrun : s.power.st = .running)
    (h : s.belay.count + 2 ^ 26 < u ∨ u + 2 ^ 26 < s.belay.count) : ∃ t, exec k s = .next t ∧ t.belay.st = .locked ∧ t.belay.count = u ∧
      t.power.st = .held ∧ t.power.cause = 9 ∧ t.seq.flights = [] ∧ t.req.launchOn = false ∧ t.req.bivOn = false ∧ t.req.stopOn = false ∧
      t.cairn = s.cairn.submit s.power.cycles ⟨0x03, source 2 0, 7, 5, 0⟩ s.stamp := by
  rw [State.relock_running hrun, if_pos h] at hk
  refine next_after k s _ _ hk fun x hx => ?_
  rw [hx.belay, hx.power, hx.seq, hx.req, hx.cairn]
  exact ⟨rfl, rfl, rfl, rfl, rfl, rfl, rfl, rfl, s.raise_cairn ..⟩

end

/-! ### Rows that re-lock (R388, R397) -/

section
variable {s : State} {p u : Nat}

/-- Out of HOLDOVER, or STALLED for want of an upstream, any usable candidate makes a re-lock. -/
theorem exec_belayRelock (hs : s.power.standby = true) (hr : s.belayBlock.role ≠ 2) (hp : p ∈ s.candidates) (hu : s.usable p = true)
    (hst : s.belay.st = .holdover ∨ (s.belay.st = .stalled ∧ s.belay.holdFor = false)) :
    exec (.belayRelock p u) s = answer s (s.relock p u) :=
  congrArg (answer s) (if_pos ⟨hs, hr, by simpa using hst, hp, hu⟩)

/-- Where the candidate in use has failed, the first usable one replaces it: within 1 tick the receiver stays LOCKED. -/
theorem exec_belayCandidateChange (hs : s.power.standby = true) (hr : s.belayBlock.role ≠ 2) (hst : s.belay.st = .locked)
    (hf : s.usable s.belay.cand = false) (hp : s.firstUsable = some p) : exec (.belayCandidateChange u) s =
      answer s (if u ≤ s.belay.count + 1 ∧ s.belay.count ≤ u + 1 then LockedOn s p else s.relock p u) := by
  refine congrArg (answer s) ?_
  rw [State.changeCandidate, if_neg (by simp [hs, hr, hst, hf]), hp]
  rfl

/-- While it is usable it stays. -/
theorem exec_belayCandidateChange_stays (hi : Inv s) (hu : s.usable s.belay.cand = true) : exec (.belayCandidateChange u) s = .next s :=
  answer_kept hi (if_pos (.inr (.inr (.inr hu))))

end

/-- Settles O51: out of LOCKED and back each row has its one condition; a re-lock splits on RUNNING and on the difference of the counts. -/
theorem belayReceiver : Obligations.BelayReceiver := by
  refine ⟨fun s u hs => ⟨?_, fun hst => ⟨exec_belayStall_due hs hst, fun h hi => exec_belayStall_early hi h⟩, fun p hst him hr hp => ?_,
      fun hst hh => ⟨exec_belayStallResume_reached hs hst hh, fun h hi => exec_belayStallResume_behind hi h⟩, fun hr href => ?_⟩,
    fun s p u c hs hr hp hu hc => ⟨fun k hk => ?_, fun hst hf hfirst hlo hhi => ?_, fun _ hu hi => exec_belayCandidateChange_stays hi hu⟩⟩
  · rintro h rfl
    refine ⟨fun hst hr hcand hbad hdis => ⟨fun hdue => ?_, fun hearly hi => ?_⟩, fun hst hr hdue => ?_⟩
    · exact exec_belayHoldover_due hs ((State.holdoverDue_iff hst hr).2 (.inr (.inr (.inr hdue))))
    · refine exec_belayHoldover_stays hi fun hdue => ?_
      obtain ⟨hc, hn⟩ | hdue | hdue | hdue := (State.holdoverDue_iff hst hr).1 hdue
      · simp [hc, hn] at hcand
      · omega
      · omega
      · omega
    · refine exec_belayHoldover_due hs ((State.holdoverDue_iff hst hr).2 ?_)
      obtain hbad | hdis | hcand := hdue
      · exact .inr (.inl hbad)
      · exact .inr (.inr (.inl hdis))
      · exact .inl hcand
  · have hacquire := State.acquireLock_candidate hs hst him hr hp u
    exact ⟨fun h => congrArg (answer s) (hacquire.trans (if_pos h)),
      fun h hi => answer_kept hi (hacquire.trans (if_neg (Nat.not_le.2 h)))⟩
  · obtain ⟨hlost, hback⟩ := exec_reference hs
    rw [hlost, hback]
    refine ⟨fun hst => ?_, fun him hst => ?_, fun him hst => ?_⟩
    · rw [State.refLost_locked hr href hst]; rfl
    · rw [State.refBack_resumes hr href him hst]
    · rw [State.refBack_acquire hr href him hst]; rfl
  · subst hc
    have hrelock : exec k s = answer s (s.relock p u) := by
      obtain ⟨rfl, hst⟩ | ⟨rfl, hst, hf, hfirst, hdiff⟩ := hk
      · exact exec_belayRelock hs hr hp hu hst
      · rw [exec_belayCandidateChange hs hr hst hf hfirst, if_neg (by omega)]
    refine ⟨fun hrun h => ?_, fun hrun => ⟨fun hlo hhi => ?_, relock_behind hrelock hrun, relock_ahead hrelock hrun, relock_far hrelock hrun⟩⟩
    · exact hrelock.trans (congrArg (answer s) (State.relock_idle hrun h p u))
    · exact hrelock.trans (congrArg (answer s) (State.relock_near hrun hlo hhi))
  · subst hc
    rw [exec_belayCandidateChange hs hr hst hf hfirst, if_pos ⟨hlo, hhi⟩]
    rfl

end Sys2Proof.Machine

/-! The queue of commands, the standby cycle, and the state after standby power-on (R442, R456, Table 12-13). -/

namespace Sys2Proof.Machine

/-! ### A step by what the queue holds -/

/-- Settles O1: the branch of `step` for a queue that holds a command. -/
theorem stepRunsTheFrontCommand : Obligations.StepRunsTheFrontCommand := by
  intro s c rest hq
  rw [step, hq]

/-- Settles O3: every command answers with a settled state, and the answer puts back the queue that the command was given. -/
theorem everyCommandAnswers : Obligations.EveryCommandAnswers := by
  intro c s
  obtain ⟨e, he⟩ := exec_answers c s
  exact ⟨_, he, rfl⟩

/-- The conditions of every step do not read the standby reference. -/
theorem inv_cycles {s : State} (h : Inv s) (n : Nat) : Inv { s with power := { s.power with cycles := n } } :=
  ⟨h.ports, h.paths, h.pins, h.staging, h.sensors, h.interrupts⟩

/-- Settles O2: the standby cycle counts only where the supply is there, and leaves nothing to settle. -/
theorem emptyQueueIsAStandbyCycle : Obligations.EmptyQueueIsAStandbyCycle := by
  intro s hi hq
  have hstep : step s = .next (standbyCycle s) := by rw [step, hq]
  rw [hstep, standbyCycle]
  split
  · rw [settle_of_inv _ (inv_cycles hi _)]
  · rw [settle_of_inv s hi]

/-! ### The state after standby power-on -/

/-- Settles O4: nothing but the reset of Table 12-13 has happened to it. -/
theorem resetMeetsInv : Obligations.ResetMeetsInv :=
  inv_atReset State.reset rfl State.reset.brides

/-- Settles O6: each of its lists holds one entry throughout. -/
theorem resetState : Obligations.ResetState := by
  have hport (p : Nat) : State.reset.port p = Port.reset := getD_replicate_self 36 p Port.reset
  have hslice (i : Nat) : State.reset.slice i = Slice.reset := getD_replicate_self 8 i Slice.reset
  have hissue (st : Nat) : State.reset.seq.issue.getD st [] = [] := getD_replicate_self 10 st []
  refine ⟨rfl, rfl, rfl, rfl, rfl, rfl, rfl, rfl, fun p => ?_, fun i => ?_, hissue, rfl, rfl, rfl, rfl⟩
  · rw [hport]; rfl
  · rw [hslice]; rfl

end Sys2Proof.Machine

/-! Owners of the control plane and heartbeats (R441, R442, Table 12-10). -/

namespace Sys2Proof.Machine

/-- Where a report establishes the conditions of every step, `settle` is the report. -/
theorem settle_of_report {e : State} (h : Inv e.report) : e.settle = e.report := by
  have hidem : e.settle = e.report.settle := by
    unfold State.settle
    rw [State.report_of _ h.sensors]
  rw [hidem, settle_of_inv _ h]

/-- A report while the global state is as it was reported last. -/
theorem State.report_stateKept {e : State} (h : nth e.mgmt.sensors 0 0 = e.power.st.code) :
    e.report = { e with
      mgmt := { e.mgmt with sensors := e.sensorCodes }
      out := { e.out with
        events := if e.mgmt.receiver = 0 then e.out.events
          else e.out.events ++ (indexed e.sensorCodes).filter (fun x => nth e.mgmt.sensors x.1 0 ≠ x.2) } } := by
  unfold State.report
  simp only [h, ne_eq, not_true_eq_false, if_false]

/-- Owners have codes of their own (Table 14-6). -/
theorem Owner.code_inj {a b : Owner} : a.code = b.code ↔ a = b := by
  cases a <;> cases b <;> decide

/-- The control plane handed to an owner, with the last reply. -/
def State.handTo (s : State) (o : Owner) (reply : List Nat) : State :=
  { s with mgmt := { s.mgmt with owner := o }, out := { s.out with reply := reply } }

/-- The transfer once the state sensors have been reported (R447). -/
def State.handedTo (s : State) (o : Owner) (reply : List Nat) : State :=
  { s with
    mgmt := { s.mgmt with owner := o, sensors := [s.power.st.code, s.belay.st.code, o.code] }
    out := { s.out with
      reply := reply, events := if s.mgmt.receiver = 0 ∨ s.mgmt.owner = o then s.out.events else s.out.events ++ [(2, o.code)] } }

section
variable {s : State} {o : Owner} {reply : List Nat}

/-- Of the state sensors only the owner's has changed. -/
theorem State.handTo_report (hi : Inv s) : (s.handTo o reply).report = s.handedTo o reply := by
  have hold : s.mgmt.sensors = [s.power.st.code, s.belay.st.code, s.mgmt.owner.code] := hi.sensors
  have hstate : nth (s.handTo o reply).mgmt.sensors 0 0 = (s.handTo o reply).power.st.code := congrArg (nth · 0 0) hold
  have hchanged : (indexed (s.handTo o reply).sensorCodes).filter (fun x => nth (s.handTo o reply).mgmt.sensors x.1 0 ≠ x.2) =
      if s.mgmt.owner = o then [] else [(2, o.code)] := by
    change [(0, s.power.st.code), (1, s.belay.st.code), (2, o.code)].filter (fun x => nth s.mgmt.sensors x.1 0 ≠ x.2) = _
    rw [hold]
    by_cases ho : s.mgmt.owner = o <;> simp [nth, ho, Owner.code_inj]
  rw [State.report_stateKept hstate, hchanged, State.handedTo]
  by_cases hr : s.mgmt.receiver = 0 <;> by_cases ho : s.mgmt.owner = o <;> simp [hr, ho, State.handTo] <;> rfl

/-- The conditions of every step hold of it. -/
theorem inv_handedTo (hi : Inv s) : Inv (s.handedTo o reply) :=
  ⟨hi.ports, hi.paths, hi.pins, hi.staging, rfl, hi.interrupts⟩

/-- The row that hands the control plane over. -/
theorem next_handTo (hi : Inv s) {c : Instr} (h : exec c s = answer s (s.handTo o reply)) :
    ∃ t, exec c s = .next t ∧ OwnerIs s t o ∧ t.out.reply = reply := by
  have hsettle : (s.handTo o reply).settle = s.handedTo o reply :=
    (settle_of_report (State.handTo_report hi ▸ inv_handedTo hi)).trans (State.handTo_report hi)
  refine ⟨s.handedTo o reply, h.trans ?_, ⟨rfl, rfl, rfl, rfl, rfl, rfl, rfl, rfl, rfl⟩, rfl⟩
  rw [answer, hsettle]
  rfl

end

/-! ### The conditions of Table 12-10 -/

section
variable {s : State}

/-- CLAIM from RELEASED, or from MGMT whose heartbeat is missing. -/
theorem State.claimOwner_taken
    (h : s.mgmt.owner = .released ∨ (s.mgmt.owner = .mgmt ∧ s.mgmt.mgtHb + 2500000 ≤ s.power.cycles)) :
    s.claimOwner = s.handTo .host s.out.reply := if_pos (by simpa [State.mgmtMissing] using h)

/-- CLAIM while the management heartbeat is present. -/
theorem State.claimOwner_kept (ho : s.mgmt.owner = .mgmt) (hb : s.power.cycles < s.mgmt.mgtHb + 2500000) : s.claimOwner = s :=
  if_neg (by simp [State.mgmtMissing, ho, hb])

/-- RELEASE from HOST. -/
theorem State.releaseOwner_taken (h : s.mgmt.owner = .host) : s.releaseOwner = s.handTo .released s.out.reply := if_pos h

/-- SEIZE from RELEASED, or from HOST whose heartbeat is missing. -/
theorem State.seizeOwner_taken
    (h : s.mgmt.owner = .released ∨ (s.mgmt.owner = .host ∧ s.mgmt.hostHb + 2500000 ≤ s.power.cycles)) :
    s.seizeOwner = (s.handTo .mgmt s.out.reply, true) := if_pos (by simpa [State.hostMissing] using h)

/-- SEIZE while the host heartbeat is present: it is refused. -/
theorem State.seizeOwner_kept (ho : s.mgmt.owner = .host) (hb : s.power.cycles < s.mgmt.hostHb + 2500000) :
    s.seizeOwner = (s, false) := by
  rw [State.seizeOwner, if_neg (by simp [State.hostMissing, ho, hb]), ho]
  rfl

/-- RETURN from MGMT. -/
theorem State.returnOwner_taken (h : s.mgmt.owner = .mgmt) : s.returnOwner = (s.handTo .host s.out.reply, true) := if_pos h

/-- The rows of ownership by register, from the one master that each is for. -/
theorem exec_ownRows (hs : s.power.standby = true) :
    exec (.glbOwnClaim .host) s = answer s s.claimOwner ∧ exec (.glbOwnRelease .host) s = answer s s.releaseOwner ∧
      exec (.mgtOwnCtlSeize .mgmt) s = answer s s.seizeOwner.1 ∧ exec (.mgtOwnCtlReturn .mgmt) s = answer s s.returnOwner.1 :=
  ⟨congrArg (answer s) (if_pos (by simp [hs])), congrArg (answer s) (if_pos (by simp [hs])),
    congrArg (answer s) (if_pos (by simp [hs])), congrArg (answer s) (if_pos (by simp [hs]))⟩

/-- The same by Igvaelo, with the answer. -/
theorem exec_ownCommands (hs : s.power.standby = true) :
    exec .seize s = answer s (s.seizeOwner.1.answerWith [if s.seizeOwner.2 then 0 else 1]) ∧
      exec .igvaeloReturn s = answer s (s.returnOwner.1.answerWith [if s.returnOwner.2 then 0 else 1]) :=
  ⟨State.onBus_powered hs (fun s => s.seizeOwner.1.answerWith [if s.seizeOwner.2 then 0 else 1]),
    State.onBus_powered hs (fun s => s.returnOwner.1.answerWith [if s.returnOwner.2 then 0 else 1])⟩

/-- A heartbeat, from the one master that each row is for (R442). -/
theorem exec_heartbeats (hi : Inv s) (hs : s.power.standby = true) :
    exec (.glbHb .host) s = .next s.hostBeat ∧ exec (.mgtHb .mgmt) s = .next s.mgmtBeat ∧
      exec (.glbHb .mgmt) s = .next s ∧ exec (.mgtHb .host) s = .next s := by
  refine ⟨?_, ?_, (answer_unless (by simp)).trans (answer_self s hi), (answer_unless (by simp)).trans (answer_self s hi)⟩
  · exact (congrArg (answer s) (if_pos (by simp [hs]))).trans (answer_of_eq hi)
  · exact (congrArg (answer s) (if_pos (by simp [hs]))).trans (answer_of_eq hi)

end

/-- Settles O7: a transfer that Table 12-10 allows hands the control plane over; one that it does not leaves the state. -/
theorem ownership : Obligations.Ownership := by
  refine ⟨fun s hi hs => exec_heartbeats hi hs, fun s hi hs => ?_, fun s hi => ⟨fun ho hb => ?_, fun ho hb => ?_, fun ho hb hs => ?_⟩⟩
  · obtain ⟨hclaim, hrelease, hseize, hreturn⟩ := exec_ownRows hs
    obtain ⟨hseizeBus, hreturnBus⟩ := exec_ownCommands hs
    refine ⟨fun h => ?_, fun h => ?_, fun h => ?_, fun h => ?_⟩
    · exact next_handTo hi (State.claimOwner_taken h ▸ hclaim)
    · exact next_handTo hi (State.releaseOwner_taken h ▸ hrelease)
    · rw [State.seizeOwner_taken h] at hseize hseizeBus
      exact ⟨next_handTo hi hseize, next_handTo hi hseizeBus⟩
    · rw [State.returnOwner_taken h] at hreturn hreturnBus
      exact ⟨next_handTo hi hreturn, next_handTo hi hreturnBus⟩
  · refine answer_kept hi (ite_eq_right_iff.2 fun _ => State.claimOwner_kept ho hb)
  · refine answer_kept hi (ite_eq_right_iff.2 fun _ => congrArg Prod.fst (State.seizeOwner_kept ho hb))
  · rw [(exec_ownCommands hs).1, State.seizeOwner_kept ho hb]
    exact answer_reply hi [1]

end Sys2Proof.Machine

/-! Igvaelo: common command codes, MCTP control, PLDM, STATUS (R445 to R448, Table 12-11). -/

namespace Sys2Proof.Machine

section
variable {s : State}

/-! ### A row that acts on the bus -/

/-- A reply, while the standby supply is there. -/
theorem State.replied_powered (hi : Inv s) (hs : s.power.standby = true) (ws : List Nat) : s.replied ws = .next (s.answerWith ws) :=
  (State.onBus_powered hs (·.answerWith ws)).trans (answer_reply hi ws)

/-- A field of Igvaelo set: one of the management block that the conditions of every step do not read. -/
theorem State.onBus_onMgmt (hi : Inv s) (hs : s.power.standby = true) (f : Mgmt → Mgmt) (hc : (f s.mgmt).coord = s.mgmt.coord := by rfl)
    (ho : (f s.mgmt).owner = s.mgmt.owner := by rfl) (hn : (f s.mgmt).sensors = s.mgmt.sensors := by rfl) :
    s.onBus (·.onMgmt f) = .next (s.onMgmt f) :=
  (State.onBus_powered hs (·.onMgmt f)).trans (answer_of_eq hi (h5 := hc) (h11 := ho) (h12 := hn))

/-- The same with an answer. -/
theorem answer_onMgmt_reply (hi : Inv s) (f : Mgmt → Mgmt) (ws : List Nat) (hc : (f s.mgmt).coord = s.mgmt.coord := by rfl)
    (ho : (f s.mgmt).owner = s.mgmt.owner := by rfl) (hn : (f s.mgmt).sensors = s.mgmt.sensors := by rfl) :
    answer s ((s.onMgmt f).answerWith ws) = .next ((s.onMgmt f).answerWith ws) :=
  answer_of_eq hi (h5 := hc) (h11 := ho) (h12 := hn)

/-! ### Common command codes (R445) -/

/-- ENTDAA to a target without a dynamic address. -/
theorem exec_entdaa_unassigned (hi : Inv s) (hs : s.power.standby = true) (hd : s.mgmt.da = none) (address : Nat) :
    exec (.entdaa address) s = .next { s with mgmt := { s.mgmt with da := some (address % 128) } } := by
  have hexec : exec (.entdaa address) s = s.onBus (·.onMgmt fun m => if m.da.isNone then { m with da := some (address % 128) } else m) := rfl
  have htaken : s.onMgmt (fun m => if m.da.isNone then { m with da := some (address % 128) } else m) =
      { s with mgmt := { s.mgmt with da := some (address % 128) } } := by simp [State.onMgmt, hd]
  rw [hexec, State.onBus_powered hs, htaken]
  exact answer_of_eq hi

/-- SETDASA by the static address of the birth record. -/
theorem exec_setdasa_matching (hi : Inv s) (hs : s.power.standby = true) (hd : s.mgmt.da = none) {b : Birth} (hb : s.power.birth = some b)
    (address : Nat) : exec (.setdasa b.saddr address) s = .next { s with mgmt := { s.mgmt with da := some (address % 128) } } := by
  have heffect : exec (.setdasa b.saddr address) s = answer s { s with mgmt := { s.mgmt with da := some (address % 128) } } :=
    (State.onBus_powered hs (fun s => s.setdasa b.saddr address)).trans (congrArg (answer s) (if_pos (by simp [hb, hd])))
  exact heffect.trans (answer_of_eq hi)

/-- GETPID once the birth record has been read. -/
theorem exec_getpid_read (hi : Inv s) (hs : s.power.standby = true) {b : Birth} (hb : s.power.birth = some b) :
    exec .getpid s = .next (s.answerWith [b.pid]) := by
  have hpid : s.pid = s.answerWith [b.pid] := by rw [State.pid, hb]
  exact (State.onBus_powered hs State.pid).trans (hpid ▸ answer_reply hi [b.pid])

/-- A row that answers with a free value: the counter of free values advances. -/
theorem answer_fresh_reply (hi : Inv s) (ws : List Nat) :
    answer s (State.answerWith { s with free := s.free + 1 } ws) = .next (State.answerWith { s with free := s.free + 1 } ws) :=
  answer_of_eq hi

end

/-- Settles O8: a code that sets changes one field of the management block, a code that reads is a reply. -/
theorem i3cCommands : Obligations.I3cCommands := by
  refine ⟨fun s mask static address len hi hs => ⟨?_, ?_, ?_, fun hd => exec_entdaa_unassigned hi hs hd address, ?_, ?_, ?_, ?_⟩,
    fun s hi hs => ⟨?_, ?_, fun b hb => exec_getpid_read hi hs hb, ?_, ?_, ?_⟩⟩
  · exact State.onBus_onMgmt hi hs (fun m => { m with events := m.events ||| mask.toNat })
  · exact State.onBus_onMgmt hi hs (fun m => { m with events := clearMask m.events mask.toNat })
  · exact State.onBus_onMgmt hi hs (fun m => { m with da := none })
  · rintro b hd hb rfl
    exact exec_setdasa_matching hi hs hd hb address
  · exact State.onBus_onMgmt hi hs (fun m => { m with mwl := Nat.min 69 len })
  · exact State.onBus_onMgmt hi hs (fun m => { m with mrl := Nat.min 69 len })
  · exact State.onBus_onMgmt hi hs (fun m => { m with rstAction := mask.toNat })
  · exact State.replied_powered hi hs _
  · exact State.replied_powered hi hs _
  · exact State.replied_powered hi hs _
  · exact State.replied_powered hi hs _
  · exact (State.onBus_powered hs (fun s => s.fresh.2.answerWith [s.fresh.1 % 2 ^ 16])).trans (answer_fresh_reply hi _)

/-! ### MCTP control and PLDM base (R446, R447) -/

section
variable {s : State}

/-- An identifier that is neither null nor broadcast is taken. -/
theorem exec_setIdentifiers (hi : Inv s) (hs : s.power.standby = true) {n : Nat} (h0 : 0 < n) (h255 : n < 255) :
    exec (.setEndpointId n) s = .next (State.answerWith { s with mgmt := { s.mgmt with eid := n } } [0, n]) ∧
      exec (.setTid n) s = .next (State.answerWith { s with mgmt := { s.mgmt with tid := n } } [0]) := by
  have hvalid : ¬(n = 0 ∨ n ≥ 255) := by omega
  have heid : s.setEid n = (s.onMgmt (fun m => { m with eid := n })).answerWith [0, n] := if_neg hvalid
  have htid : s.setTid n = (s.onMgmt (fun m => { m with tid := n })).answerWith [0] := if_neg hvalid
  have hexecEid : exec (.setEndpointId n) s = answer s (s.setEid n) := State.onBus_powered hs (·.setEid n)
  have hexecTid : exec (.setTid n) s = answer s (s.setTid n) := State.onBus_powered hs (·.setTid n)
  rw [hexecEid, heid, hexecTid, htid]
  exact ⟨answer_onMgmt_reply hi _ _, answer_onMgmt_reply hi _ _⟩

/-- A version is answered of the types that the engine has (R447). -/
theorem exec_getPldmVersion_supported (hi : Inv s) (hs : s.power.standby = true) {type : Nat} (ht : type = 0 ∨ type = 2) :
    exec (.getPldmVersion type) s = .next (s.answerWith [0, Config.pldmVersion type]) := by
  have hexec : exec (.getPldmVersion type) s = s.replied (if type = 0 ∨ type = 2 then [0, Config.pldmVersion type] else [0x83]) := rfl
  rw [hexec, if_pos ht, State.replied_powered hi hs]

/-- A record is answered of those in the repository. -/
theorem exec_getPdr_listed (hi : Inv s) (hs : s.power.standby = true) {record : Nat} (hr : record < Config.pdrCount) :
    exec (.getPdr record) s = .next (s.answerWith (0 :: (Config.pdr record).map BitVec.toNat)) := by
  have hexec : exec (.getPdr record) s =
      s.replied (if record < Config.pdrCount then 0 :: (Config.pdr record).map BitVec.toNat else [0x82]) := rfl
  rw [hexec, if_pos hr, State.replied_powered hi hs]

/-- The event receiver is set. -/
theorem exec_setEventReceiver_taken (hi : Inv s) (hs : s.power.standby = true) (n : Nat) :
    exec (.setEventReceiver n) s = .next (State.answerWith { s with mgmt := { s.mgmt with receiver := n } } [0]) := by
  have hexec : exec (.setEventReceiver n) s = answer s (State.answerWith { s with mgmt := { s.mgmt with receiver := n } } [0]) :=
    State.onBus_powered hs (fun s => State.answerWith { s with mgmt := { s.mgmt with receiver := n } } [0])
  rw [hexec]
  exact answer_onMgmt_reply hi (fun m => { m with receiver := n }) [0]

end

/-- Settles O9: every request is a reply, or sets one field and replies. -/
theorem messages : Obligations.Messages := by
  refine ⟨fun s type record hi hs => ?_, fun s n hi hs => ?_⟩
  · have hreply (ws : List Nat) : s.replied ws = .next (s.answerWith ws) := State.replied_powered hi hs ws
    exact ⟨hreply _, hreply _, hreply _, hreply _, hreply _, hreply _, exec_getPldmVersion_supported hi hs, hreply _, hreply _, hreply _,
      hreply _, exec_getPdr_listed hi hs⟩
  · exact ⟨fun h0 h255 => (exec_setIdentifiers hi hs h0 h255).1, fun h0 h255 => (exec_setIdentifiers hi hs h0 h255).2,
      exec_setEventReceiver_taken hi hs n⟩

/-! ### Sensors and STATUS (R447, Table 12-11) -/

section
variable {s : State}

/-- A sensor of the core rail or of the temperature of a die that there is, and the one of the power (log 4). -/
theorem exec_getSensorReading (hi : Inv s) (hs : s.power.standby = true) {die : Nat} (hd : die < 8) :
    exec (.getSensorReading (.coreRail die)) s = .next (s.answerWith [0, s.power.now.getD die 0]) ∧
      exec (.getSensorReading (.dieTemp die)) s =
        .next (State.answerWith { s with free := s.free + 1 } [0, Config.dieTemp die s.free % 2 ^ 16]) := by
  have hexec (x : NumSensor) : exec (.getSensorReading x) s = answer s (s.numeric x) := State.onBus_powered hs (·.numeric x)
  have hrail : s.numeric (.coreRail die) = s.answerWith [0, s.power.now.getD die 0] := if_pos hd
  have htemp : s.numeric (.dieTemp die) = State.answerWith { s with free := s.free + 1 } [0, Config.dieTemp die s.free % 2 ^ 16] := if_pos hd
  rw [hexec, hexec, hrail, htemp]
  exact ⟨answer_reply hi _, answer_fresh_reply hi _⟩

end

/-- Settles O10: each sensor is a reply with what it reads, and STATUS one with seven words. -/
theorem sensorsAndStatus : Obligations.SensorsAndStatus := by
  intro s die hi hs
  have hreply (ws : List Nat) : s.replied ws = .next (s.answerWith ws) := State.replied_powered hi hs ws
  have hpower : exec (.getSensorReading .power) s =
      answer s (State.answerWith { s with free := s.free + 1 } [0, Config.power s.free % 2 ^ 32]) :=
    State.onBus_powered hs (·.numeric .power)
  refine ⟨hreply _, hreply _, hreply _, fun hd => (exec_getSensorReading hi hs hd).1, fun hd => (exec_getSensorReading hi hs hd).2,
    hpower.trans (answer_fresh_reply hi _), hreply _⟩

end Sys2Proof.Machine

/-! Interrupt registers and pop queues (R489, R490). -/

namespace Sys2Proof.Machine

variable {s : State}

/-- With the core up, interrupts are written at once and in order (R489). -/
theorem State.interrupts_sent (h : s.coreUp = true) (ns : List Nat) : ns.foldl (fun s n => s.interrupt n) s = { s with
    out := { s.out with
      msi := s.out.msi ++ ns.map (fun n => (s.reg 0xE8 + s.reg 0xEC % 2 ^ 16 * 2 ^ 32, s.reg 0xF0 + n)) } } := by
  induction ns generalizing s with
  | nil => simp
  | cons n ns ih =>
    have hsent : s.interrupt n = s.msi n := if_pos h
    rw [List.foldl_cons, hsent, ih (s := s.msi n) h]
    simp [State.msi, State.reg]

/-- A write of GLB_IRQ_EN with the core up: the register, then an interrupt for each newly enabled bit that is set. -/
theorem State.enableIrq_sent (h : s.coreUp = true) (mask : Nat) : s.enableIrq mask = { (s.setReg 0xE4 (mask % 64)) with
    out := { s.out with
      msi := s.out.msi ++ ((List.range 6).filter (fun n => flag mask n && !flag (s.reg 0xE4) n && flag (s.reg 0xE0) n)).map
        (fun n => (s.reg 0xE8 + s.reg 0xEC % 2 ^ 16 * 2 ^ 32, s.reg 0xF0 + n)) } } := by
  have hreg (off : Nat) (hoff : off ≠ 0xE4) : (s.setReg 0xE4 (mask % 64)).reg off = s.reg off := by
    rw [State.reg_setReg, if_neg hoff]
  have hsent := State.interrupts_sent (s := s.setReg 0xE4 (mask % 64)) h
    ((List.range 6).filter (fun n => flag mask n && !flag (s.reg 0xE4) n && flag (s.reg 0xE0) n))
  rw [hreg 0xE8 (by decide), hreg 0xEC (by decide), hreg 0xF0 (by decide)] at hsent
  exact hsent

/-- A read of a pop queue while the core is up. -/
theorem exec_popQueues (hs : s.power.standby = true) (hc : s.coreUp = true) (m : Master) :
    exec (.ancFlagPop m) s = answer s (s.popFlag.1.answerWith [s.popFlag.2]) ∧
      exec (.grqIrqPop m) s = answer s (s.popIrq.1.answerWith [s.popIrq.2]) :=
  ⟨congrArg (answer s) (if_pos (by simp [hs, hc])), congrArg (answer s) (if_pos (by simp [hs, hc]))⟩

/-- The word of a pop queue that holds an entry. -/
theorem popWord_cons (i : Nat) (rest : List Nat) (ovf : Bool) :
    popWord (i :: rest) ovf = 2 ^ 31 + (if ovf then 2 ^ 30 else 0) + i % 2 ^ 16 := by
  cases ovf <;> rfl

/-- Settles O13: a write changes one register and sends interrupts, a read of a pop queue takes its front entry. -/
theorem interruptRegisters : Obligations.InterruptRegisters := by
  intro s m v hi hs hc
  obtain ⟨hflag, hirq⟩ := exec_popQueues hs hc m
  refine ⟨fun ho => ?_, fun hq => ?_, fun i rest hq => ?_, fun hq => ?_, fun i rest hq => ?_⟩
  · have hm : s.may m false = true := (s.may_iff m false).2 ⟨hs, .inl ho⟩
    have hclear : exec (.glbIrqStatClear m v) s = answer s (s.clearIrq v.toNat) := congrArg (answer s) (if_pos hm)
    have henable : exec (.glbIrqEnWrite m v) s = answer s (s.enableIrq v.toNat) := congrArg (answer s) (if_pos hm)
    rw [hclear, henable, State.enableIrq_sent hc]
    exact ⟨answer_setReg hi _ _, answer_of_eq hi⟩
  · have hempty : s.popFlag = (s, 0) := by rw [State.popFlag, hq]
    rw [hflag, hempty]
    exact answer_reply hi [0]
  · have htaken : s.popFlag = ({ s with out := { s.out with flagPop := rest, flagOvf := false } }, popWord (i :: rest) s.out.flagOvf) := by
      rw [State.popFlag, hq]
    rw [hflag, htaken, popWord_cons]
    exact answer_of_eq hi
  · have hempty : s.popIrq = (s, 0) := by rw [State.popIrq, hq]
    rw [hirq, hempty]
    exact answer_reply hi [0]
  · have htaken : s.popIrq = ({ s with out := { s.out with irqPop := rest, irqOvf := false } }, popWord (i :: rest) s.out.irqOvf) := by
      rw [State.popIrq, hq]
    rw [hirq, htaken, popWord_cons]
    exact answer_of_eq hi

end Sys2Proof.Machine

/-! The cairn log: submission, the entry queue and the ring, windows, registers, LOG-READ (R464 to R468, R470 to R472, R497, Table 12-11). -/

namespace Sys2Proof.Machine

/-! ### Submission (R464 to R466) -/

namespace CairnLog

/-- The window of a class and source is open. -/
def window (l : CairnLog) (c : CairnSub) : Option CairnWin := l.windows.find? (fun w => w.cls = c.cls ∧ w.source = c.source)

/-- A log with a cairn's first record in the capture slots that were empty. -/
def captured (l : CairnLog) (c : CairnSub) (t : CairnStamp) : CairnLog :=
  (l.captureAt 0 (cairnRecord c t false false 1 0)).captureAt c.cls (cairnRecord c t false false 1 0)

/-- A window that counts one more cairn. -/
def counted (c : CairnSub) (t : CairnStamp) (w : CairnWin) : CairnWin :=
  { w with
    count := stick32 (w.count + 1), last := c, lastTime := t.time, step := t.step, bits := ofBool t.nobelay + 2 * ofBool t.suspect }

variable {l : CairnLog} {c : CairnSub} {t : CairnStamp}

/-- A capture slot after one is filled if it is empty. -/
theorem captureAt_find (slot r k : Nat) : (l.captureAt slot r).capture.find k =
    if k = slot ∧ l.capture.find k = none then some r else l.capture.find k := by
  unfold captureAt
  by_cases hk : k = slot
  · subst hk
    cases hf : l.capture.find k <;> simp [Tab.find_put, hf]
  · split <;> simp [Tab.find_put, hk]

/-- It changes the slots alone. -/
theorem captureAt_eq (slot r : Nat) : l.captureAt slot r = { l with capture := (l.captureAt slot r).capture } := by
  unfold captureAt; split <;> rfl

/-- A submitted cairn fills the global slot and that of its class where they are empty (R464). -/
theorem captured_find (k : Nat) : (l.captured c t).capture.find k =
    if (k = 0 ∨ k = c.cls) ∧ l.capture.find k = none then some (cairnRecord c t false false 1 0) else l.capture.find k := by
  rw [captured, captureAt_find, captureAt_find]
  by_cases h0 : k = 0 <;> by_cases hc : k = c.cls <;> cases hf : l.capture.find k <;> simp_all

/-- Captures change the slots alone. -/
theorem captured_eq : l.captured c t = { l with capture := (l.captured c t).capture } := by
  rw [captured, captureAt_eq, captureAt_eq]

/-- An entry into the queue changes the queue and the count of what did not fit. -/
theorem enqueue_eq (r : Nat) : l.enqueue r = { l with queue := (l.enqueue r).queue, qdrop := (l.enqueue r).qdrop } := by
  unfold enqueue; split <;> rfl

/-- Captures leave the windows. -/
theorem captured_windows : (l.captured c t).windows = l.windows := by rw [captured_eq]

/-- `submit` by whether a window is open. -/
theorem submit_eq (cyc : Nat) : l.submit cyc c t =
    match l.window c with
    | some _ => { l.captured c t with
        windows := (l.captured c t).windows.map (fun w => if w.cls = c.cls ∧ w.source = c.source then counted c t w else w) }
    | none =>
      if (l.captured c t).windows.length < 128 then
        { ((l.captured c t).enqueue (cairnRecord c t false false 1 0)) with
          windows := (l.captured c t).windows ++ [⟨c.cls, c.source, cyc, t.time, t.time, 1, c, t.step,
            ofBool t.nobelay + 2 * ofBool t.suspect⟩] }
      else (l.captured c t).enqueue (cairnRecord c t false true 1 0) := by
  rw [window, ← captured_windows (l := l) (c := c) (t := t)]
  rfl

/-- With a window open, a cairn is captured, and counted in it (R465). -/
theorem submit_counted (cyc : Nat) {w : CairnWin} (h : l.window c = some w) : l.submit cyc c t = { l.captured c t with
    windows := l.windows.map (fun w => if w.cls = c.cls ∧ w.source = c.source then counted c t w else w) } := by
  rw [submit_eq, h, captured_windows]

/-- With none open, it goes to the entry queue, and opens one while fewer than 128 are open (R465, R466). -/
theorem submit_first (cyc : Nat) (h : l.window c = none) : l.submit cyc c t =
    { (l.captured c t).enqueue (cairnRecord c t false (decide (128 ≤ l.windows.length)) 1 0) with
      windows := if l.windows.length < 128 then l.windows ++ [⟨c.cls, c.source, cyc, t.time, t.time, 1, c, t.step,
        ofBool t.nobelay + 2 * ofBool t.suspect⟩] else l.windows } := by
  rw [submit_eq, h]
  simp only [captured_windows]
  by_cases hn : l.windows.length < 128
  · simp [hn, Nat.not_le.2 hn]
  · simp only [hn, Nat.le_of_not_lt hn, if_false, decide_true]
    rw [enqueue_eq, captured_windows]

/-- What a submission leaves in the capture slots, whatever the windows (R464). -/
theorem submit_kept (cyc : Nat) : (l.submit cyc c t).capture = (l.captured c t).capture ∧ (l.submit cyc c t).ring = l.ring ∧
    (l.submit cyc c t).wr = l.wr ∧ (l.submit cyc c t).rd = l.rd := by
  cases hw : l.window c with
  | some w =>
    rw [submit_counted cyc hw, captured_eq]
    exact ⟨rfl, rfl, rfl, rfl⟩
  | none =>
    rw [submit_first cyc hw, enqueue_eq, captured_eq]
    exact ⟨rfl, rfl, rfl, rfl⟩

/-- The window that counts is found again. -/
theorem window_counted {w : CairnWin} (h : l.window c = some w) :
    (l.windows.map (fun w => if w.cls = c.cls ∧ w.source = c.source then counted c t w else w)).find?
      (fun w => w.cls = c.cls ∧ w.source = c.source) = some (counted c t w) := by
  have hkey (w : CairnWin) : (fun w : CairnWin => decide (w.cls = c.cls ∧ w.source = c.source))
      (if w.cls = c.cls ∧ w.source = c.source then counted c t w else w) = decide (w.cls = c.cls ∧ w.source = c.source) := by
    split <;> rfl
  have hfound : w.cls = c.cls ∧ w.source = c.source := by simpa using List.find?_some h
  rw [List.find?_map, show ((fun w : CairnWin => decide (w.cls = c.cls ∧ w.source = c.source)) ∘ fun w =>
    if w.cls = c.cls ∧ w.source = c.source then counted c t w else w) = _ from funext hkey]
  exact (congrArg (Option.map _) h).trans (congrArg some (if_pos hfound))


/-- What a submission does where a window counts it (R465). -/
theorem submit_window (cyc : Nat) {w : CairnWin} (h : l.window c = some w) :
    (l.submit cyc c t).queue = l.queue ∧ (l.submit cyc c t).qdrop = l.qdrop ∧
      (l.submit cyc c t).windows.length = l.windows.length ∧ (l.submit cyc c t).window c = some (counted c t w) := by
  rw [submit_counted cyc h]
  refine ⟨?_, ?_, List.length_map _, window_counted h⟩
  · rw [captured_eq]
  · rw [captured_eq]

/-- What it does where none does (R465 to R467). -/
theorem submit_queued (cyc : Nat) (h : l.window c = none) {r : Nat}
    (hr : r = cairnRecord c t false (decide (128 ≤ l.windows.length)) 1 0) :
    (l.queue.length < 256 → (l.submit cyc c t).queue = l.queue ++ [r] ∧ (l.submit cyc c t).qdrop = l.qdrop) ∧
      (256 ≤ l.queue.length → (l.submit cyc c t).queue = l.queue ∧ (l.submit cyc c t).qdrop = stick32 (l.qdrop + 1)) ∧
      (l.submit cyc c t).windows.length = Nat.min (l.windows.length + 1) (Nat.max 128 l.windows.length) := by
  rw [submit_first cyc h, ← hr]
  have hqueue : (l.captured c t).queue = l.queue := by rw [captured_eq]
  have hdrop : (l.captured c t).qdrop = l.qdrop := by rw [captured_eq]
  refine ⟨fun hlen => ?_, fun hlen => ?_, ?_⟩
  · simp [enqueue, hqueue, hdrop, hlen]
  · simp [enqueue, hqueue, hdrop, Nat.not_lt.2 hlen]
  · change (if _ then _ else _ : List CairnWin).length = min _ (max _ _)
    split
    · rw [List.length_append, List.length_singleton]; omega
    · omega

end CairnLog

/-! ### The entry queue and the ring (R467, R468, R471) -/

section
variable {s : State}

/-- The oldest record of the queue in the ring. -/
def State.entered (s : State) (r : Nat) (rest : List Nat) : State :=
  { s with cairn := { s.cairn with
    queue := rest, ring := s.cairn.ring.put (s.cairn.wr % 4096) r, wr := (s.cairn.wr + 1) % 8192
    badParity := s.cairn.badParity.filter (· ≠ s.cairn.wr % 4096) } }

/-- A record has a slot: one is free, and it is none of those kept for the classes marked Rsv unless its class is marked. -/
theorem CairnLog.enter_taken {l : CairnLog} {r : Nat} {rest : List Nat} (hq : l.queue = r :: rest) (hfull : l.unread < 4096)
    (hroom : l.unread < 4032 ∨ reservedClass (recordClass r) = true) : l.enter = ({ l with
      queue := rest, ring := l.ring.put (l.wr % 4096) r, wr := (l.wr + 1) % 8192
      badParity := l.badParity.filter (· ≠ l.wr % 4096) }, some (recordClass r)) := by
  have hslot : ¬(4096 - l.unread = 0 ∨ (4096 - l.unread ≤ 64 ∧ !reservedClass (recordClass r))) := by
    rintro (hfree | ⟨hfew, hplain⟩)
    · omega
    · obtain hroom | hrsv := hroom
      · omega
      · simp [hrsv] at hplain
  simp only [CairnLog.enter, hq]
  exact if_neg hslot

/-- A record that has none is turned away and counted. -/
theorem CairnLog.enter_refused {l : CairnLog} {r : Nat} {rest : List Nat} (hq : l.queue = r :: rest)
    (hroom : 4096 ≤ l.unread ∨ (4032 ≤ l.unread ∧ reservedClass (recordClass r) = false)) :
    l.enter = ({ l with queue := rest, rdrop := stick32 (l.rdrop + 1) }, none) := by
  have hslot : 4096 - l.unread = 0 ∨ (4096 - l.unread ≤ 64 ∧ !reservedClass (recordClass r)) := by
    obtain hfull | ⟨hfew, hplain⟩ := hroom
    · exact .inl (by omega)
    · exact .inr ⟨by omega, by simp [hplain]⟩
  simp only [CairnLog.enter, hq]
  exact if_pos hslot

/-- A record entered, with the interrupts that its class enables (R471). -/
theorem State.enterCairn_taken {r : Nat} {rest : List Nat} (hq : s.cairn.queue = r :: rest) (hfull : s.cairn.unread < 4096)
    (hroom : s.cairn.unread < 4032 ∨ reservedClass (recordClass r) = true) {y : State}
    (hy : y = if flag (s.reg 0x400018) (recordClass r) then (s.entered r rest).irq 2 else s.entered r rest) :
    s.enterCairn = if flag (s.reg 0x40001C) (recordClass r) ∧ flag s.mgmt.events 0 = false then
      { y with out := { y.out with ibi := y.out.ibi ++ [0xAE] } } else y := by
  have hentered : s.enterCairn = if flag (y.reg 0x40001C) (recordClass r) then y.inBand else y := by
    rw [State.enterCairn, CairnLog.enter_taken hq hfull hroom, hy]
    rfl
  have hreg : y.reg 0x40001C = s.reg 0x40001C := by
    rw [hy]; split
    · exact State.irq_reg _ 2 _ (by decide)
    · rfl
  have hevents : y.mgmt = s.mgmt := by
    rw [hy]; split
    · exact State.irq_mgmt _ 2
    · rfl
  rw [hentered, hreg, State.inBand, hevents]
  cases flag (s.reg 0x40001C) (recordClass r) <;> cases flag s.mgmt.events 0 <;> rfl

/-- The row CAIRN_ENTRY. -/
theorem exec_cairnEntry (hs : s.power.standby = true) : exec .cairnEntry s = answer s s.enterCairn :=
  congrArg (answer s) (if_pos hs)

/-- A record turned away. -/
theorem State.enterCairn_refused {r : Nat} {rest : List Nat} (hq : s.cairn.queue = r :: rest)
    (hroom : 4096 ≤ s.cairn.unread ∨ (4032 ≤ s.cairn.unread ∧ reservedClass (recordClass r) = false)) :
    s.enterCairn = { s with cairn := { s.cairn with queue := rest, rdrop := stick32 (s.cairn.rdrop + 1) } } := by
  rw [State.enterCairn, CairnLog.enter_refused hq hroom]

/-- An empty queue enters nothing. -/
theorem State.enterCairn_empty (hq : s.cairn.queue = []) : s.enterCairn = s := by
  have hnone : s.cairn.enter = (s.cairn, none) := by rw [CairnLog.enter, hq]
  rw [State.enterCairn, hnone]

/-! ### Windows that close (R465) -/

/-- The row COALESCING_WINDOW_CLOSE. -/
theorem exec_coalescingWindowClose (hs : s.power.standby = true) (cls src : Nat) : exec (.coalescingWindowClose cls src) s =
    answer s { s with cairn := s.cairn.closeWindow s.power.cycles cls src } := congrArg (answer s) (if_pos hs)

/-- A window that has had its 25,000 cycles closes, with a SUMMARY where it counted more than one cairn. -/
theorem CairnLog.closeWindow_due {l : CairnLog} {cyc cls src : Nat} {w : CairnWin}
    (hw : l.windows.find? (fun w => w.cls = cls ∧ w.source = src) = some w) (hdue : w.opened + 25000 ≤ cyc) : l.closeWindow cyc cls src =
      if 1 < w.count then CairnLog.enqueue { l with windows := l.windows.erase w } w.summary else { l with windows := l.windows.erase w } := by
  simp only [CairnLog.closeWindow, hw]
  exact if_neg (Nat.not_lt.2 hdue)

/-- One that has not stays open. -/
theorem CairnLog.closeWindow_early {l : CairnLog} {cyc cls src : Nat} {w : CairnWin}
    (hw : l.windows.find? (fun w => w.cls = cls ∧ w.source = src) = some w) (hearly : cyc < w.opened + 25000) :
    l.closeWindow cyc cls src = l := by
  simp only [CairnLog.closeWindow, hw]
  exact if_pos hearly

/-! ### The registers of the log (R464, R468, R470, R472, R497) -/

section
variable {m : Master}

/-- The rows of the log's registers, from a master to which they are open. -/
theorem exec_logRows (h : s.may m true = true) (v : Word) :
    exec (.crnRdWrite m v) s = nextOf s (s.setCrnRd v.toNat) ∧ exec (.crnCtlOvfClr m) s = nextOf s s.clearOverflow ∧
      exec (.crnCtlClear m) s = nextOf s s.clearLog ∧ exec (.crnCtlCntClr m) s = nextOf s s.clearCounters ∧
      exec (.crnFecClr m v) s = nextOf s (s.clearCaptures v.toNat) :=
  ⟨congrArg (answer s) (if_pos h), congrArg (answer s) (if_pos h), congrArg (answer s) (if_pos h), congrArg (answer s) (if_pos h),
    congrArg (answer s) (if_pos h)⟩

/-- The rows from a master to which they are not: they have no effect. -/
theorem exec_logRows_denied (hi : Inv s) (h : s.may m true = false) (v : Word) :
    ∀ c ∈ ([.crnRdWrite m v, .crnCtlOvfClr m, .crnCtlClear m, .crnCtlCntClr m, .crnFecClr m v] : List Instr), exec c s = .next s := by
  intro c hc
  have hrow : c ∈ openRows m 0 0 v := by
    simp only [openRows, List.mem_cons, List.not_mem_nil, or_false] at hc ⊢
    grind only
  rw [exec_openRows_denied h 0 0 v c hrow, answer_self s hi]

end

/-- The counters are cleared only while the core is up. -/
theorem State.clearCounters_up (hc : s.coreUp = true) : s.clearCounters = { s with counters := [] } := if_pos hc

/-- A capture slot whose parity holds leaves nothing else to clear. -/
theorem State.clearCaptures_parity (hp : s.cairn.badParity = []) (mask : Nat) : s.clearCaptures mask = { s with cairn := { s.cairn with
    capture := s.cairn.capture.filter (fun e => !(decide (e.1 ≤ 22) && flag mask e.1)) } } := by
  simp [State.clearCaptures, hp]

/-- The read pointer moves within the unread records (R472). -/
theorem State.setCrnRd_unread {v : Nat} (h : (v % 8192 + 8192 - s.cairn.rd) % 8192 ≤ s.cairn.unread) :
    s.setCrnRd v = { s with cairn := { s.cairn with rd := v % 8192 } } := if_pos h

/-- Any other write of it is counted. -/
theorem State.setCrnRd_outside {v : Nat} (h : s.cairn.unread < (v % 8192 + 8192 - s.cairn.rd) % 8192) :
    s.setCrnRd v = s.bump 0x388 noUnit 1 := if_neg (Nat.not_le.2 h)

/-! ### LOG-READ (Table 12-11) -/

/-- The row LOG_READ. -/
theorem exec_logRead (hs : s.power.standby = true) (first n : Nat) : exec (.logRead first n) s = nextOf s (s.logRead first n) :=
  congrArg (answer s) (if_pos hs)

/-- A ring slot whose parity holds is read as it was written. -/
theorem CairnLog.at_parity {l : CairnLog} (hp : l.badParity = []) {i : Nat} (hi : i < 4096) : l.at_ i = l.ring.get 0 i := by
  simp [CairnLog.at_, hp, hi]

/-- LOG-READ from an unread record: the records, and the read pointer past them. -/
theorem State.logRead_taken {first n k skip : Nat} (hf : first < 8192) (hskip : skip = (first + 8192 - s.cairn.rd) % 8192) (hn : 0 < n)
    (hmax : n ≤ 120) (hk : k = Nat.min n (s.cairn.unread - skip)) (hin : skip ≤ s.cairn.unread) (hp : s.cairn.badParity = [])
    (hrd : s.cairn.rd < 8192) : s.logRead first n = { s with
      cairn := { s.cairn with rd := (first + k) % 8192 }
      out := { s.out with
        reply := 0 :: ((List.range k).map (fun i => (first + i) % 4096)).flatMap (fun i => recordWords (s.cairn.ring.get 0 i)) } } := by
  have hvalid : ¬(n = 0 ∨ n > 120 ∨ skip > s.cairn.unread) := by omega
  have hwords : ((List.range k).map (fun i => (first + i) % 4096)).flatMap (fun i => recordWords (s.cairn.at_ i)) =
      ((List.range k).map (fun i => (first + i) % 4096)).flatMap (fun i => recordWords (s.cairn.ring.get 0 i)) := by
    refine List.flatMap_congr fun i hi => ?_
    obtain ⟨j, -, rfl⟩ := List.mem_map.1 hi
    rw [CairnLog.at_parity hp (Nat.mod_lt _ (by decide))]
  have hread : s.logRead first n = (s.answerWith (0 :: ((List.range k).map (fun i => (first + i) % 4096)).flatMap
      (fun i => recordWords (s.cairn.at_ i)))).setCrnRd (first + k) := by
    unfold State.logRead
    simp only [Nat.mod_eq_of_lt hf, ← hskip, hvalid, if_false, ← hk, hp]
    simp [State.bump]
  have hunread : s.cairn.unread < 8192 := Nat.mod_lt _ (by decide)
  have hle : k ≤ s.cairn.unread - skip := hk ▸ Nat.min_le_right _ _
  have hmove : ((first + k) % 8192 + 8192 - s.cairn.rd) % 8192 ≤ s.cairn.unread := by omega
  rw [hread, hwords]
  exact State.setCrnRd_unread hmove

/-- LOG-READ of no record, of too many, or from a record that is not unread. -/
theorem State.logRead_invalid {first n skip : Nat} (hf : first < 8192) (hskip : skip = (first + 8192 - s.cairn.rd) % 8192)
    (h : n = 0 ∨ 120 < n ∨ s.cairn.unread < skip) : s.logRead first n = s.answerWith [3] := by
  unfold State.logRead
  simp only [Nat.mod_eq_of_lt hf, ← hskip]
  exact if_pos h

end

/-- Settles O58: submission by the captures and by whether a window is open; each row by the state of the queue, of the window, of the
pointer. -/
theorem cairns : Obligations.Cairns := by
  refine ⟨fun l l' cyc c t hl => ?_, fun s hs => ⟨?_, ?_, ?_, ?_⟩, fun s m v => ⟨fun hm => ?_, fun hm hi => ?_, ?_⟩⟩
  · subst hl
    obtain ⟨hcapture, hring, hwr, hrd⟩ := CairnLog.submit_kept (l := l) (c := c) (t := t) cyc
    refine ⟨fun k r hk => ?_, fun h0 => ?_, fun hc => ?_, fun k h0 hc => ?_, hring, hwr, hrd, fun w hw => ?_, fun hw r hr => ?_⟩
    · rw [hcapture, CairnLog.captured_find, if_neg (by simp [hk]), hk]
    · rw [hcapture, CairnLog.captured_find, if_pos ⟨.inl rfl, h0⟩]
    · rw [hcapture, CairnLog.captured_find, if_pos ⟨.inr rfl, hc⟩]
    · rw [hcapture, CairnLog.captured_find, if_neg (by simp [h0, hc])]
    · obtain ⟨hqueue, hdrop, hlen, hfound⟩ := CairnLog.submit_window (t := t) cyc hw
      exact ⟨hqueue, hdrop, hlen, _, hfound, rfl, rfl, rfl, rfl, rfl⟩
    · exact CairnLog.submit_queued cyc hw hr
  · intro r rest x y hq hfull hroom hx hy
    subst hx
    rw [exec_cairnEntry hs, State.enterCairn_taken hq hfull hroom hy]
    rfl
  · intro r rest hq hroom
    rw [exec_cairnEntry hs, State.enterCairn_refused hq hroom]
    rfl
  · intro hq hi
    rw [exec_cairnEntry hs, State.enterCairn_empty hq, answer_self s hi]
  · intro cls src w hw
    rw [exec_coalescingWindowClose hs]
    refine ⟨fun hdue l hl => ⟨fun hone => ?_, fun hmore => ?_⟩, fun hearly hi => ?_⟩
    · rw [CairnLog.closeWindow_due hw hdue, if_neg (Nat.not_lt.2 hone), ← hl]
      rfl
    · rw [CairnLog.closeWindow_due hw hdue, if_pos hmore, ← hl]
      rfl
    · rw [CairnLog.closeWindow_early hw hearly]
      exact answer_self s hi
  · obtain ⟨hrd, hovf, hclear, hcnt, hfec⟩ := exec_logRows hm v
    refine ⟨fun hin => ?_, fun hout => ?_, hovf, hclear, fun hc => ?_, fun hc hi => ?_, fun hp => ?_⟩
    · rw [hrd, State.setCrnRd_unread hin]
    · rw [hrd, State.setCrnRd_outside hout]
    · rw [hcnt, State.clearCounters_up hc]
    · rw [hcnt, State.clearCounters, if_neg (by simp [hc])]
      exact answer_self s hi
    · rw [hfec, State.clearCaptures_parity hp]
  · simpa only [List.forall_mem_cons, List.not_mem_nil, false_imp_iff, implies_true, and_true] using exec_logRows_denied hi hm v
  · intro first n k skip hs hf hskip
    rw [exec_logRead hs]
    refine ⟨fun hn hmax hk hin hp hrd => ?_, fun h => ?_⟩
    · rw [State.logRead_taken hf hskip hn hmax hk hin hp hrd]
    · rw [State.logRead_invalid hf hskip h]

end Sys2Proof.Machine

/-! Loading: HBM ready, the checks of a copy, and phases out of time (R429, R430, Table 12-7). -/

namespace Sys2Proof.Machine

section
variable {s t u : State} {im : Image} {b : Bool}

/-! ### A load that fails -/

/-- A failed load clears what a load clears, raises its cairn, and holds the engine (Table 12-8). -/
theorem State.loadFailed_eq (s : State) (cause check copy : Nat) : s.loadFailed cause check copy =
    { (s.clearForLoad.raise 0x14 (source 0 3) 0 cause (copy + check * 256)).stopRun with
      power := { s.power with st := .held, cause := cause, phase := 0, check := check } } := by
  have hpower : (s.clearForLoad.raise 0x14 (source 0 3) 0 cause (copy + check * 256)).power = s.power := State.raise_power ..
  rw [← hpower]
  rfl

/-- It is HELD for the cause. -/
theorem State.loadFailed_power (s : State) (cause check copy : Nat) : (s.loadFailed cause check copy).power =
    { s.power with st := .held, cause := cause, phase := 0, check := check } := by rw [State.loadFailed_eq]

/-- Its cairn names the cause, the copy and the check. -/
theorem State.loadFailed_cairn (s : State) (cause check copy : Nat) : (s.loadFailed cause check copy).cairn =
    s.cairn.submit s.power.cycles ⟨0x14, source 0 3, 0, cause, copy + check * 256⟩ s.stamp := by
  have hstamp : s.clearForLoad.stamp = s.stamp := State.stamp_congr _ _ rfl rfl rfl
  rw [State.loadFailed_eq]
  exact (State.raise_cairn ..).trans (by rw [hstamp]; rfl)

/-- The image, queues and memories that it leaves. -/
theorem State.loadFailed_left (s : State) (cause check copy : Nat) : (s.loadFailed cause check copy).img = s.clearForLoad.img ∧
    (s.loadFailed cause check copy).groups = [] ∧ (s.loadFailed cause check copy).gq = [] ∧
    (s.loadFailed cause check copy).hbm = s.hbm ∧ (s.loadFailed cause check copy).store = s.store ∧
    (s.loadFailed cause check copy).mgmt = s.mgmt ∧ (s.loadFailed cause check copy).seq.running = false := by
  rw [State.loadFailed_eq]
  simp only [State.stopRun_img, State.stopRun_groups, State.stopRun_gq, State.stopRun_hbm, State.stopRun_store, State.stopRun_mgmt,
    State.raise_img, State.raise_groups, State.raise_gq, State.raise_hbm, State.raise_store, State.raise_mgmt]
  exact ⟨trivial, rfl, rfl, rfl, rfl, rfl, rfl⟩

/-! ### An image put in place (Table 12-7, phase 7) -/

/-- A state but for HBM and the registers. -/
def State.sansTables (s : State) : State := { s with hbm := [], hbmBad := [], regs := [] }

/-- The tables of an image change HBM alone. -/
theorem State.placeTables_sansTables (s : State) (im : Image) (fresh : Nat → Nat → Bool) :
    (s.placeTables im fresh).sansTables = s.sansTables := by
  unfold State.placeTables
  refine foldl_keeps State.sansTables _ (fun s sl => ?_) _ _
  refine foldl_keeps State.sansTables _ (fun s e => ?_) _ _
  dsimp only
  split <;> rfl

/-- The locked registers of CONFIG change the registers alone. -/
theorem State.writeLocked_sansTables (s : State) (fs : List (Nat × Nat × Nat)) : (s.writeLocked fs).sansTables = s.sansTables := by
  unfold State.writeLocked
  apply foldl_keeps State.sansTables
  exact fun _ _ => rfl

/-- The state of a load with the image's tables and locked registers in place. -/
def State.placed (s : State) (im : Image) : State := (s.clearForLoad.placeTables im (fun _ _ => true)).writeLocked im.config.rwl

/-- But for HBM and the registers it is what the load cleared. -/
theorem State.placed_sansTables (s : State) (im : Image) : (s.placed im).sansTables = s.clearForLoad.sansTables :=
  (State.writeLocked_sansTables _ _).trans (State.placeTables_sansTables _ _ _)

theorem State.placed_power (s : State) (im : Image) : (s.placed im).power = s.power := by
  have h := congrArg State.power (s.placed_sansTables im); exact h
theorem State.placed_img (s : State) (im : Image) : (s.placed im).img = s.clearForLoad.img := by
  have h := congrArg State.img (s.placed_sansTables im); exact h
theorem State.placed_mgmt (s : State) (im : Image) : (s.placed im).mgmt = s.mgmt := by
  have h := congrArg State.mgmt (s.placed_sansTables im); exact h
theorem State.placed_groups (s : State) (im : Image) : (s.placed im).groups = [] := by
  have h := congrArg State.groups (s.placed_sansTables im); exact h
theorem State.placed_anc (s : State) (im : Image) : (s.placed im).anc = Anchors.reset := by
  have h := congrArg State.anc (s.placed_sansTables im); exact h
theorem State.placed_store (s : State) (im : Image) : (s.placed im).store = s.store := by
  have h := congrArg State.store (s.placed_sansTables im); exact h

/-! ### HBM ready (R430) -/

/-- With HBM ready in LOADING the load runs. -/
theorem exec_hbmReady_loading (hs : s.power.standby = true) (hst : s.power.st = .loading) :
    exec .hbmReady s = answer s (State.loadNow { s with power := { s.power with hbmReady := true } }) := by
  refine congrArg (answer s) ?_
  rw [if_neg (by simp [hs])]
  exact if_pos hst

/-- A copy chosen, with none that is newer and invalid, and good by the checks: it is installed (R429). -/
theorem State.loadNow_ok (hu : u = { t with power := { t.power with key := t.readKey, phase := 4 } })
    (hc : u.chooseCopy u.power.loadCopy = .copy b []) (him : u.checkedImage b = .ok im) : t.loadNow = u.installImage im := by
  subst hu
  simp only [State.loadNow, hc, List.foldl_nil, him]

/-- One that fails a check is not kept. -/
theorem State.loadNow_error (hu : u = { t with power := { t.power with key := t.readKey, phase := 4 } })
    (hc : u.chooseCopy u.power.loadCopy = .copy b []) {n : Nat} (him : u.checkedImage b = .error n) :
    t.loadNow = u.loadFailed 6 n (ofBool b) := by
  subst hu
  simp only [State.loadNow, hc, List.foldl_nil, him]

/-- A phase of a load out of time (Table 12-7). -/
theorem exec_loadPhaseTimeout_loading (hs : s.power.standby = true) (hst : s.power.st = .loading) {phase : Nat} (hp : phase = 2 ∨ phase = 3) :
    exec (.loadPhaseTimeout phase) s = answer s (s.loadFailed (if phase = 2 then 3 else 5) 0 0) := by
  refine congrArg (answer s) ?_
  obtain rfl | rfl := hp <;> simp [State.phaseTimeout, hs, hst]

end

/-- Settles O16: HBM ready installs the chosen copy or fails the load; a phase out of time fails it too. -/
theorem loading : Obligations.Loading := by
  refine ⟨fun s u b hs hst hu hc => ?_, fun s phase hs hst hp => ?_⟩
  · have hexec := exec_hbmReady_loading hs hst
    have hload : u.chooseCopy u.power.loadCopy = .copy b [] := by rw [hu] at hc ⊢; exact hc
    refine ⟨fun im him => ?_, fun n herr => ?_⟩
    · rw [State.loadNow_ok hu hload him] at hexec
      refine next_after _ s _ _ hexec fun x hx => ?_
      rw [hx.power, hx.img, hx.mgmt, hx.seq, hx.groups, hx.anc, hx.gq, hx.store]
      have hready : (u.placed im).power.hbmReady = true := by rw [State.placed_power, hu]
      have hcoord : (u.placed im).mgmt.coordReg = s.mgmt.coordReg := by rw [State.placed_mgmt, hu]
      have hstore : (u.placed im).store = s.store := by rw [State.placed_store, hu]
      exact ⟨rfl, rfl, hready, rfl, rfl, rfl, rfl, congrArg ImgSt.launched (u.placed_img im), congrArg (· % 2 ^ 16) hcoord, rfl,
        u.placed_groups im, u.placed_anc im, rfl, hstore⟩
    · rw [State.loadNow_error hu hload herr] at hexec
      refine next_after _ s _ _ hexec fun x hx => ?_
      obtain ⟨himg, hgroups, hgq, hhbm, hstore, -⟩ := u.loadFailed_left 6 n (ofBool b)
      rw [hx.power, hx.img, hx.groups, hx.gq, hx.hbm, hx.store, himg, hgroups, hgq, hhbm, hstore,
        State.loadFailed_power, hu]
      exact ⟨rfl, rfl, rfl, rfl, rfl, rfl, rfl, rfl, rfl⟩
  · refine next_after _ s _ _ (exec_loadPhaseTimeout_loading hs hst hp) fun x hx => ?_
    obtain ⟨himg, -, -, hhbm, hstore, hmgmt, hrun⟩ := s.loadFailed_left (if phase = 2 then 3 else 5) 0 0
    rw [hx.power, hx.img, hx.seq, hx.hbm, hx.store, hx.mgmt, hx.cairn, himg, hhbm, hstore, hmgmt, State.loadFailed_power,
      State.loadFailed_cairn]
    exact ⟨rfl, rfl, rfl, hrun, rfl, rfl, rfl, rfl⟩

end Sys2Proof.Machine

/-! The core reset and the management restart, and the supply monitor (R444, R452 to R454, R456, Table 12-13). -/

namespace Sys2Proof.Machine

/-! ### Lists and tables -/

/-- A table without the entries of some keys gives the default at each of them. -/
theorem Tab.get_filter_absent {β : Type} (d : β) (t : Tab β) {keep : Nat → Bool} {k : Nat} (h : keep k = false) :
    Tab.get d (t.filter (fun e => keep e.1)) k = d := by
  induction t with
  | nil => rfl
  | cons e t ih =>
    obtain ⟨k', v⟩ := e
    rw [List.filter_cons]
    split
    · next hkeep =>
      have hne : k ≠ k' := by rintro rfl; simp [h] at hkeep
      rw [Tab.get, if_neg hne, ih]
    · exact ih

/-- A slice is one of the list, or as at reset. -/
theorem State.slice_mem_or_reset (s : State) (i : Nat) : s.slice i ∈ s.slices ∨ s.slice i = Slice.reset := by
  unfold State.slice
  by_cases hi : i < s.slices.length
  · exact .inl (by rw [getD_eq _ _ _ hi]; exact List.getElem_mem hi)
  · exact .inr (List.getD_eq_default _ _ (Nat.le_of_not_lt hi))

/-! ### What every step keeps, read off -/

section
variable {s : State}

/-- Outside RUNNING no pin is latched (R432). -/
theorem issue_of_inv (h : Inv s) (hr : s.isRunning = false) (st : Nat) : s.seq.issue.getD st [] = [] := by
  by_cases hst : st < s.seq.issue.length
  · refine Decidable.byContradiction fun hne => ?_
    simpa [hr] using (h.pins st hst hne).1
  · exact List.getD_eq_default _ _ (Nat.le_of_not_lt hst)

/-- In OFF, without a wake, every port is OFF (Table 9-9). -/
theorem ports_off_of_inv (h : Inv s) (hst : s.power.st = .off) (hw : s.req.waking = false) :
    ∀ p < s.ports.length, (s.port p).link.st = .off := fun p hp => ((h.ports p hp).1.2 (State.mayTrain_off hst hw p))

/-- Without the core's power `settle` counts nothing. -/
theorem State.settle_counters_down (h : s.coreUp = false) : s.settle.counters = s.counters := by
  have hdown : s.report.sendOwed.conformPins.coreUp = false := by simpa [State.coreUp] using h
  have hcount : s.report.sendOwed.conformPins.countOff = s.report.sendOwed.conformPins := by
    rw [State.countOff, hdown]; rfl
  simp [State.settle, hcount]

end

/-! ### The core reset (Table 12-13) -/

/-- What a core reset of `s` leaves: what it clears, then what it keeps. -/
structure CoreCleared (s t : State) : Prop where
  st : t.power.st = .off
  rail : t.power.rail = false
  waking : t.req.waking = false
  running : t.seq.running = false
  flights : t.seq.flights = []
  bufs : ∀ i, (t.slice i).bufs = []
  stations : t.stations = []
  groups : t.groups = []
  anc : t.anc = Anchors.reset
  gq : t.gq = []
  reg : ∀ off, coreRegister off = true → t.reg off = regReset off
  counters : t.counters = []
  brides : ∀ b ∈ t.brides, b.st = .closedActive
  launched : t.img.launched = false
  fenced : ∀ i, (t.slice i).fenced = (s.slice i).fenced
  warn : t.power.warn = s.power.warn
  belay : t.belay = s.belay
  cairn : t.cairn = s.cairn
  run : t.img.run = s.img.run
  owner : t.mgmt.owner = s.mgmt.owner
  hbm : t.hbm = s.hbm
  store : t.store = s.store

section
variable {s : State}

/-- A slice after a core reset. -/
def Slice.coreCleared (sl : Slice) : Slice := { Slice.reset with fenced := sl.fenced, carry := sl.carry }

/-- The slices after a core reset that aborts no staging. -/
theorem State.coreReset_slice (ho : s.power.st ≠ .off) (hg : s.img.staging.st ≠ 1) (i : Nat) :
    s.coreReset.slice i = (s.slice i).coreCleared := by
  have hslices : s.coreReset.slices = s.slices.map Slice.coreCleared := by
    have habort : (if s.img.staging.byMgmt then s else s.abortStaging) = s := by
      rw [State.abortStaging, if_pos hg, ite_self]
    rw [State.coreReset, if_neg ho, habort]
    exact List.map_map
  have hreset : Slice.reset = Slice.reset.coreCleared := rfl
  rw [State.slice, hslices, hreset, List.getD_map]
  rfl

/-- A core reset that aborts no staging (Table 12-13). -/
theorem State.coreReset_cleared (ho : s.power.st ≠ .off) (hg : s.img.staging.st ≠ 1) : CoreCleared s s.coreReset := by
  have hslice := State.coreReset_slice ho hg
  have habort : (if s.img.staging.byMgmt then s else s.abortStaging) = s := by
    rw [State.abortStaging, if_pos hg, ite_self]
  have hdef := Eq.refl s.coreReset
  conv_rhs at hdef => rw [State.coreReset, if_neg ho, habort]
  exact
    { st := by rw [hdef], rail := by rw [hdef], waking := by rw [hdef], running := by rw [hdef]; rfl, flights := by rw [hdef]; rfl
      bufs := fun i => by rw [hslice]; rfl
      stations := by rw [hdef], groups := by rw [hdef], anc := by rw [hdef], gq := by rw [hdef]
      reg := fun off hoff => by
        rw [hdef]
        exact Tab.get_filter_absent (keep := fun off => !coreRegister off) _ _ (by simp [hoff])
      counters := by rw [hdef]
      brides := fun b hb => by
        rw [hdef] at hb
        obtain ⟨b, -, rfl⟩ := List.mem_map.1 hb
        rfl
      launched := by rw [hdef]
      fenced := fun i => by rw [hslice]; rfl
      warn := by rw [hdef]; rfl, belay := by rw [hdef]; rfl, cairn := by rw [hdef]; rfl, run := by rw [hdef]; rfl
      owner := by rw [hdef]; rfl, hbm := by rw [hdef]; rfl, store := by rw [hdef]; rfl }

/-- It stays so through `settle`, which also takes the latched pins and turns every port off. -/
theorem CoreCleared.settle {e : State} (h : CoreCleared s e) : CoreCleared s e.settle := by
  have hx := after_settle e
  have hup : e.coreUp = false := by simp [State.coreUp, h.st]
  exact
    { st := by rw [hx.power, h.st], rail := by rw [hx.power, h.rail], waking := by rw [hx.req, h.waking]
      running := by rw [hx.seq]; exact h.running
      flights := by rw [hx.seq]; exact h.flights
      bufs := fun i => by
        cases hf : (e.slice i).fenced with
        | false => rw [hx.slice i hf, h.bufs]
        | true =>
          obtain hmem | hreset := e.settle.slice_mem_or_reset i
          · exact hx.inv.staging _ hmem (by rw [hx.fenced, hf])
          · rw [hreset]; rfl
      stations := by rw [hx.stations, h.stations], groups := by rw [hx.groups, h.groups], anc := by rw [hx.anc, h.anc]
      gq := by rw [hx.gq, h.gq]
      reg := fun off hoff => by
        have hne : off ≠ 0xE0 := by rintro rfl; simp [coreRegister] at hoff
        rw [hx.reg off hne, h.reg off hoff]
      counters := by rw [State.settle_counters_down hup, h.counters]
      brides := by rw [hx.brides]; exact h.brides
      launched := by rw [hx.img, h.launched]
      fenced := fun i => by rw [hx.fenced, h.fenced]
      warn := by rw [hx.power, h.warn], belay := by rw [hx.belay, h.belay], cairn := by rw [hx.cairn, h.cairn]
      run := by rw [hx.img, h.run]
      owner := by rw [hx.mgmt]; exact h.owner
      hbm := by rw [hx.hbm, h.hbm], store := by rw [hx.store, h.store] }

/-- The queue of commands is no part of it. -/
theorem coreCleared_pending {t : State} (h : CoreCleared s t) (q : List Instr) : CoreCleared s { t with pending := q } := { h with }

/-- A command whose effect is a core reset. -/
theorem next_coreReset {c : Instr} {u e : State} {P : State → Prop} (h : exec c s = answer s e) (hc : CoreCleared u e)
    (k : ∀ x, CoreCleared u x → Inv x → P x) : ∃ t, exec c s = .next t ∧ P t :=
  next_of c s e P h (k _ (coreCleared_pending hc.settle s.pending) (after_pending e e.settle s.pending (after_settle e)).inv)

/-! ### The rows that reset -/

/-- A reply after a core reset. -/
theorem coreCleared_answerWith {t : State} (h : CoreCleared s t) (ws : List Nat) : CoreCleared s (t.answerWith ws) := { h with }

/-- A package reset, the register's and Igvaelo's are core resets. -/
theorem exec_coreResetRows {m : Master} (hm : s.may m true = true) (ho : s.power.st ≠ .off) (hg : s.img.staging.st ≠ 1) :
    ∀ c ∈ ([.coreReset, .glbCtlResetCore m, .reset .core] : List Instr), ∃ e, exec c s = answer s e ∧ CoreCleared s e := by
  have hs := State.standby_of_may hm
  have hc := State.coreReset_cleared ho hg
  have hpackage : exec .coreReset s = answer s s.coreReset := congrArg (answer s) (if_pos hs)
  have hregister : exec (.glbCtlResetCore m) s = answer s s.coreReset := congrArg (answer s) (if_pos hm)
  have higvaelo : exec (.reset .core) s = answer s (s.coreReset.answerWith [0]) := congrArg (answer s) (if_pos hs)
  simp only [List.forall_mem_cons, List.not_mem_nil, false_imp_iff, implies_true, and_true]
  exact ⟨⟨_, hpackage, hc⟩, ⟨_, hregister, hc⟩, ⟨_, higvaelo, coreCleared_answerWith hc [0]⟩⟩

/-- The management controller restarts, by itself or by the host once its heartbeat is missing (R444). -/
theorem exec_restartRows (hi : Inv s) (hs : s.power.standby = true) (m : Master) :
    (∀ c ∈ ([.managementRestart, .firmwareWatchdog] : List Instr), exec c s = .next s.restartMgmt) ∧
      (s.may m false = true → s.mgmt.mgtHb + 2500000 ≤ s.power.cycles → exec (.glbCtlMgtRestart m) s = .next s.restartMgmt) ∧
      (s.power.cycles < s.mgmt.mgtHb + 2500000 → exec (.glbCtlMgtRestart m) s = .next s) := by
  have hanswer : answer s s.restartMgmt = .next s.restartMgmt := answer_of_eq hi
  have hrestart : exec .managementRestart s = .next s.restartMgmt := (congrArg (answer s) (if_pos hs)).trans hanswer
  have hwatchdog : exec .firmwareWatchdog s = .next s.restartMgmt := (congrArg (answer s) (if_pos hs)).trans hanswer
  refine ⟨?_, fun hm hb => ?_, fun hb => ?_⟩
  · simp only [List.forall_mem_cons, List.not_mem_nil, false_imp_iff, implies_true, and_true]
    exact ⟨hrestart, hwatchdog⟩
  · exact (congrArg (answer s) (if_pos (by simp [hm, State.mgmtMissing, hb]))).trans hanswer
  · exact (answer_unless (by simp [State.mgmtMissing, hb])).trans (answer_self s hi)

end

/-- Settles O18: every row that resets the core leaves what Table 12-13 says; a restart changes the management block alone. -/
theorem resets : Obligations.Resets := by
  refine ⟨fun s m hs ho hg hm c hc => ?_, fun s m hi hs => exec_restartRows hi hs m⟩
  obtain ⟨e, hexec, hcleared⟩ := exec_coreResetRows hm ho hg c hc
  refine next_coreReset hexec hcleared fun x hx hinv => ?_
  have hstopped : x.isRunning = false := by simp [State.isRunning, hx.st]
  exact ⟨hx.st, hx.rail, hx.running, hx.flights, issue_of_inv hinv hstopped, hx.fenced, hx.bufs, hx.stations, hx.groups, hx.anc, hx.gq,
    hx.reg, hx.counters, hx.brides, ports_off_of_inv hinv hx.st hx.waking, hx.belay, hx.cairn, hx.run, hx.launched, hx.owner, hx.hbm, hx.store⟩

/-! ### The supply monitor (R452 to R454) -/

section
variable {s : State} {die mv : Nat}

/-- The reading of a dip taken. -/
def State.warned (s : State) (die mv : Nat) : State := { s with power := s.power.reading die mv true }

/-- A dip, while the rail is up, in the range of the warning. -/
theorem State.railDip_warned (hs : s.power.standby = true) (hr : s.power.rail = true) (hd : die < 8) (hlo : 540 ≤ mv) (hhi : mv < 565) :
    s.railDip die mv = if s.power.suspects.any (fun w => w.die == die) then
        { s.warned die mv with power := { s.power.reading die mv true with
          suspects := s.power.suspects.map (fun w => if w.die = die then { w with low := Nat.min w.low mv } else w) } }
      else (s.warned die mv).openSuspect die mv := by
  have hmon : s.monitors = true := by simp [State.monitors, hs, hr]
  exact if_neg (by simp [hmon, hd, hlo, hhi])

/-- A window opens outside RUNNING and outside a pause: it marks no step yet (R453). -/
theorem State.openSuspect_idle (hrun : s.isRunning = false) (hb : s.power.st ≠ .bivouac) (hent : s.req.entering = none) :
    s.openSuspect die mv = { s with power := { s.power with suspects := s.power.suspects ++ [⟨die, s.belay.count, mv, true, 0⟩] } } := by
  simp [State.openSuspect, hrun, hb, hent, State.count]

/-- The row of a warning that clears: the window closes with its cairn (R453). -/
theorem State.supplyClear_closed (hs : s.power.standby = true) (hd : die < 8) (hw : nth s.power.warn die false = true) {w : Suspect}
    (hfind : s.power.suspects.find? (fun x => x.die = die) = some w) : s.supplyClear die =
      { (State.raise { s with free := s.free + 1 } 0x11 (source 1 die) 0 w.low (s.belay.count - w.start)) with
        power := { s.power with suspects := s.power.suspects.erase w }.reading die (575 + Config.freeValue s.free % 3521) false } := by
  have hclose : State.closeSuspect { s with free := s.free + 1 } die =
      { (State.raise { s with free := s.free + 1 } 0x11 (source 1 die) 0 w.low (s.belay.count - w.start)) with
        power := { s.power with suspects := s.power.suspects.erase w } } := by
    simp only [State.closeSuspect, hfind, State.raise_power]
    rfl
  have hdef : s.supplyClear die = { State.closeSuspect { s with free := s.free + 1 } die with
      power := (State.closeSuspect { s with free := s.free + 1 } die).power.reading die (575 + Config.freeValue s.free % 3521) false } :=
    if_neg (by simp [hs, hd, hw])
  rw [hdef, hclose]

/-- The state in which a fall below the reset level leaves the engine, before the reset: the cairn, and the reading. -/
def State.railFell (s : State) (die mv : Nat) : State :=
  { s.raise 0x11 (source 1 die) 0xC mv 0 with power := { s.power.reading die mv true with suspects := [] } }

/-- It raises the cairn, and keeps the image and the memories. -/
theorem State.railFell_left (s : State) (die mv : Nat) : (s.railFell die mv).img = s.img ∧ (s.railFell die mv).store = s.store ∧
    (s.railFell die mv).hbm = s.hbm ∧
    (s.railFell die mv).cairn = s.cairn.submit s.power.cycles ⟨0x11, source 1 die, 0xC, mv, 0⟩ s.stamp :=
  ⟨State.raise_img s 0x11 (source 1 die) 0xC mv 0, State.raise_store s 0x11 (source 1 die) 0xC mv 0,
    State.raise_hbm s 0x11 (source 1 die) 0xC mv 0, State.raise_cairn s 0x11 (source 1 die) 0xC mv 0⟩

/-- A fall below the reset level with no window open (R454). -/
theorem State.railReset_fell (hs : s.power.standby = true) (hr : s.power.rail = true) (hd : die < 8) (hmv : mv < 540)
    (hsus : s.power.suspects = []) : s.railReset die mv = (s.railFell die mv).coreReset := by
  have hmon : s.monitors = true := by simp [State.monitors, hs, hr]
  have hguard : ¬(!s.monitors ∨ die ≥ 8 ∨ mv ≥ 540) := by simp [hmon, hd, hmv]
  rw [State.railReset, if_neg hguard]
  simp [hsus, State.railFell]

end

/-- Settles O17: a dip opens a window or lowers one, its end closes it, and a fall below the reset level is a core reset. -/
theorem supplyMonitor : Obligations.SupplyMonitor := by
  refine fun s die mv hs hd => ⟨fun hr hlo hhi => ⟨fun hnone hrun hb hent => ?_, fun hopen => ?_⟩, fun w hw hfind => ?_,
    fun hr hmv ho hsus hg => ?_⟩
  · have hdip := State.railDip_warned hs hr hd hlo hhi
    rw [hnone, if_neg Bool.false_ne_true, State.openSuspect_idle (s := s.warned die mv) hrun hb hent] at hdip
    exact next_settle _ s _ (congrArg (answer s) hdip) rfl
  · have hdip := State.railDip_warned hs hr hd hlo hhi
    rw [if_pos hopen] at hdip
    exact next_settle _ s _ (congrArg (answer s) hdip) rfl
  · have hqueue := State.raise_pending { s with free := s.free + 1 } 0x11 (source 1 die) 0 w.low (s.belay.count - w.start)
    exact next_settle _ s _ (congrArg (answer s) (State.supplyClear_closed hs hd hw hfind)) hqueue
  · obtain ⟨himg, hstore, hhbm, hcairn⟩ := s.railFell_left die mv
    have hcleared : CoreCleared (s.railFell die mv) (s.railFell die mv).coreReset := State.coreReset_cleared ho (by rwa [himg])
    refine next_coreReset (congrArg (answer s) (State.railReset_fell hs hr hd hmv hsus)) hcleared fun x hx _ => ?_
    rw [hx.warn, hx.cairn, hx.store, hx.hbm]
    exact ⟨hx.st, hx.rail, rfl, hcairn, hstore, hhbm⟩

end Sys2Proof.Machine

/-! Bivouac and wake: requests, entry, return (R449 to R451, R482). -/

namespace Sys2Proof.Machine

section
variable {s : State} {t w : Nat}

/-! ### Requests (R449) -/

/-- A request in RUNNING for a step to come, without a wake count. -/
theorem State.requestBivouac_running (hst : s.power.st = .running) (hent : s.req.entering = none) (hstep : s.seq.step < t)
    (hlead : s.belay.count + 64 < s.originOf t) : s.requestBivouac t 0 = ({ s with req := { s.req with
      bivOn := true, biv := 1, bivReason := 0, bivStep := t, entryAt := s.originOf t } }, true) := by
  have hrun : s.isRunning = true := by simp [State.isRunning, hst]
  have hintime : ¬(t ≤ s.seq.step ∨ s.originOf t ≤ s.count + 64) := by unfold State.count; omega
  rw [State.requestBivouac, if_neg (by simp [hent])]
  dsimp only
  rw [if_pos hrun, if_neg hintime, if_pos rfl]

/-- A request outside RUNNING and READY is refused as STATE. -/
theorem State.requestBivouac_state (hrun : s.power.st ≠ .running) (hready : s.power.st ≠ .ready) :
    s.requestBivouac t w = ({ s with req := { s.req with biv := 3, bivReason := 1 } }, false) := by
  have hstop : s.isRunning = false := by simp [State.isRunning, hrun]
  rw [State.requestBivouac]
  dsimp only
  split
  · rfl
  · exact if_neg (by simp [hstop])

/-- A wake count in BIVOUAC that is neither EARLY nor without LEAD, where none is in force. -/
theorem State.setWake_accepted (hst : s.power.st = .bivouac) (hwaking : s.req.waking = false) (hon : s.req.wakeOn = false)
    (hearly : s.req.entryAt + 500000 ≤ w) (hlead : s.belay.count + 62500 ≤ w) : s.setWake w = ({ s with req := { s.req with
      wakeOn := true, wake := 1, wakeAt := w, bivReason := if s.req.biv = 3 then s.req.bivReason else 0 } }, true) := by
  have hnotEarly : ¬w < s.req.entryAt + 500000 := Nat.not_lt.2 hearly
  have hnotLead : ¬w < s.count + 62500 := Nat.not_lt.2 hlead
  simp [State.setWake, hst, hwaking, hon, hnotEarly, hnotLead]

/-- One before the entry's count and 500,000 ticks is EARLY. -/
theorem State.setWake_early (hst : s.power.st = .bivouac) (hearly : w < s.req.entryAt + 500000) :
    s.setWake w = ({ s with req := { s.req with wake := 2, bivReason := 3 } }, false) := by
  simp [State.setWake, hst, hearly]

/-- The rows of the registers, which are open to management. -/
theorem exec_pauseRegisters {m : Master} (hm : s.may m true = true) :
    exec (.glbCtlBivouac m) s = answer s (s.requestBivouac (s.reg48 0x38) (s.reg64 0x88)).1 ∧
      exec (.glbCtlWake m) s = answer s (s.setWake (s.reg64 0x88)).1 :=
  ⟨congrArg (answer s) (if_pos hm), congrArg (answer s) (if_pos hm)⟩

/-- Igvaelo's request for a step, without a wake count. -/
theorem exec_bivouac_running (hi : Inv s) (hs : s.power.standby = true) (hst : s.power.st = .running) (hent : s.req.entering = none)
    (hstep : s.seq.step < t) (h48 : t < 2 ^ 48) (hlead : s.belay.count + 64 < s.originOf t) :
    exec (.bivouac t 0) s = .next { (s.setReg64 0x38 t).setReg64 0x88 0 with
      req := { s.req with bivOn := true, biv := 1, bivReason := 0, bivStep := t, entryAt := s.originOf t }
      out := { s.out with reply := [0] } } := by
  have hexec : exec (.bivouac t 0) s = answer s
      ((((s.setReg64 0x38 (t % 2 ^ 48)).setReg64 0x88 0).requestBivouac (t % 2 ^ 48) (0 % 2 ^ 64)).1.answerWith
        [if (((s.setReg64 0x38 (t % 2 ^ 48)).setReg64 0x88 0).requestBivouac (t % 2 ^ 48) (0 % 2 ^ 64)).2 then 0 else 1]) :=
    congrArg (answer s) (if_pos hs)
  have hreq := State.requestBivouac_running (s := (s.setReg64 0x38 t).setReg64 0x88 0) hst hent hstep hlead
  rw [hexec, Nat.mod_eq_of_lt h48, Nat.zero_mod, hreq]
  exact answer_of_eq hi

/-- Igvaelo's wake count. -/
theorem exec_wake (hs : s.power.standby = true) (h64 : w < 2 ^ 64) : exec (.wake w) s = answer s
    (((s.setReg64 0x88 w).setWake w).1.answerWith [if ((s.setReg64 0x88 w).setWake w).2 then 0 else 1]) := by
  have hexec : exec (.wake w) s = answer s
      (((s.setReg64 0x88 w).setWake (w % 2 ^ 64)).1.answerWith [if ((s.setReg64 0x88 w).setWake (w % 2 ^ 64)).2 then 0 else 1]) :=
    congrArg (answer s) (if_pos hs)
  rw [hexec, Nat.mod_eq_of_lt h64]

/-! ### Entry (R450) -/

/-- A state but for what the entry of records into the cairn log changes. -/
def State.sansLog (s : State) : State := { s with cairn := State.reset.cairn, regs := [], out := State.reset.out }

/-- An interrupt is no part of it. -/
theorem State.irq_sansLog (s : State) (n : Nat) : (s.irq n).sansLog = s.sansLog := by
  have hsent (u : State) : (u.interrupt n).sansLog = u.sansLog := by unfold State.interrupt; split <;> rfl
  unfold State.irq
  dsimp only
  split
  · rfl
  · split
    · rw [hsent]; rfl
    · rfl

/-- A record entered changes nothing else. -/
theorem State.enterCairn_sansLog (s : State) : s.enterCairn.sansLog = s.sansLog := by
  have hband (u : State) (b : Bool) : (if b then u.inBand else u).sansLog = u.sansLog := by
    unfold State.inBand
    split
    · split <;> rfl
    · rfl
  have hirq (u : State) (b : Bool) : (if b then u.irq 2 else u).sansLog = u.sansLog := by
    split
    · exact State.irq_sansLog u 2
    · rfl
  unfold State.enterCairn
  dsimp only
  split
  · rfl
  · rw [hband, hirq]; rfl

/-- Nor do all of them. -/
theorem State.flushCairns_sansLog (s : State) (fuel : Nat) : (s.flushCairns fuel).sansLog = s.sansLog := by
  induction fuel generalizing s with
  | zero => rfl
  | succ fuel ih =>
    rw [State.flushCairns]
    split
    · rfl
    · rw [ih, State.enterCairn_sansLog]

/-- What entry to bivouac from `s` leaves (R450, R482): what is saved, what is gone, what stays. -/
structure Paused (s x : State) : Prop where
  power : x.power = { s.power with st := .bivouac, prior := s.power.st, rail := false }
  entering : x.req.entering = none
  groups : x.groups = []
  anc : x.anc = Anchors.reset
  gq : x.gq = []
  brides : x.brides = s.brides.map (fun b => { b with st := .closedActive })
  belay : x.belay = s.belay
  img : x.img = s.img
  hbm : x.hbm = s.hbm
  saved : x.saved = some ⟨s.groups, { s.anc with tracker := [], trans := [], jobs := [] }, s.gq,
    s.regs.filter (fun e => coreRegister e.1), s.counters⟩

/-- The cairn log is no part of it. -/
theorem paused_congr {x u : State} (h : x.sansLog = u.sansLog) (hu : Paused s u) : Paused s x where
  power := (congrArg State.power h).trans hu.power
  entering := (congrArg (fun z : State => z.req.entering) h).trans hu.entering
  groups := (congrArg State.groups h).trans hu.groups
  anc := (congrArg State.anc h).trans hu.anc
  gq := (congrArg State.gq h).trans hu.gq
  brides := (congrArg State.brides h).trans hu.brides
  belay := (congrArg State.belay h).trans hu.belay
  img := (congrArg State.img h).trans hu.img
  hbm := (congrArg State.hbm h).trans hu.hbm
  saved := (congrArg State.saved h).trans hu.saved

/-- Once quiet, entry is completed. -/
theorem State.finishEntry_paused (h : s.entryQuiet = true) : Paused s s.finishEntry := by
  have hdef := Eq.refl s.finishEntry
  conv_rhs at hdef => rw [State.finishEntry, if_neg (by simp [h])]
  exact paused_congr ((congrArg State.sansLog hdef).trans (State.flushCairns_sansLog _ _)) ⟨rfl, rfl, rfl, rfl, rfl, rfl, rfl, rfl, rfl, rfl⟩

/-! ### Wake (R451) -/

/-- A state but for its brides. -/
def State.sansBrides (s : State) : State := { s with brides := [] }

/-- A wake that begins opens brides, and is under way. -/
theorem State.beginWake_sansBrides (hst : s.power.st = .bivouac) (hon : s.req.wakeOn = true) (hwaking : s.req.waking = false)
    (hdue : s.req.wakeAt ≤ s.belay.count) : s.beginWake.sansBrides = { s with req := { s.req with waking := true } }.sansBrides := by
  rw [State.beginWake, if_pos ⟨hst, hon, by simp [hwaking], hdue⟩]
  refine foldl_keeps State.sansBrides _ (fun s r => ?_) _ _
  unfold State.openBride
  split <;> rfl

/-- A wake without the rail fails, with a cairn of the lowest reading, in a core reset. -/
theorem State.wakeFailed_reset (hst : s.power.st = .bivouac) (hwaking : s.req.waking = true) (hr : s.power.rail = false)
    (hdue : s.req.wakeAt + 20000 ≤ s.belay.count) : s.wakeFailed =
      (s.raise 0x11 (source 1 s.power.lowestDie) 0xB (nth s.power.now s.power.lowestDie 0) 0).coreReset :=
  if_pos ⟨hst, hwaking, by simp [hr], hdue⟩

/-- What entry saved, back in its place. -/
def State.resumed (s : State) (a : SaveArea) : State :=
  { s with
    saved := none, groups := a.groups, anc := a.anc, gq := a.gq
    regs := a.regs.foldl (fun t e => t.put e.1 e.2) s.regs
    counters := a.counters }

/-- The queues that entry suspended resume (R381). -/
def State.resumeQueues (s : State) : State :=
  ((s.gq.filter (fun e => e.2.bivSusp)).map (·.1)).foldl (fun s q =>
    let s := s.onGround q (fun g => { g with bivSusp := false })
    if (s.groundQ q).st = .suspended ∨ (s.groundQ q).st = .suspending then s.queueEvent q .resume else s) s

/-- `restore`, where entry saved something: fences take effect on it, and queues resume. -/
theorem State.restore_saved {a : SaveArea} (h : s.saved = some a) :
    s.restore = ((s.resumed a).fencedSlices.foldl State.fenceEffect (s.resumed a)).resumeQueues := by
  rw [State.restore, h]
  rfl

/-- With no slice fenced and no queue suspended by entry, what was saved is back as it was. -/
theorem State.restore_plain {a : SaveArea} (h : s.saved = some a) (hf : s.fencedSlices = []) (hq : ∀ e ∈ a.gq, e.2.bivSusp = false) :
    s.restore = s.resumed a := by
  have hfences : (s.resumed a).fencedSlices = [] := hf
  have hqueues : (s.resumed a).gq.filter (fun e => e.2.bivSusp) = [] :=
    List.filter_eq_nil_iff.2 fun e he => by simp [hq e he]
  rw [State.restore_saved h, hfences, List.foldl_nil, State.resumeQueues, hqueues, List.map_nil, List.foldl_nil]

/-- A wake that completes reaches the prior state, with the next origin. -/
theorem State.completeWake_due (hst : s.power.st = .bivouac) (hwaking : s.req.waking = true) (hr : s.power.rail = true)
    (hdue : s.req.wakeAt + 60000 ≤ s.belay.count) : s.completeWake = { s.restore with
      power := { s.restore.power with st := s.restore.power.prior, prior := .off }
      req := { s.restore.req with waking := false, wakeOn := false, wake := 0 }
      seq := { s.restore.seq with
        nextOrigin := Nat.max (s.req.wakeAt + 60000) s.belay.count, origin := Nat.max (s.req.wakeAt + 60000) s.belay.count } } :=
  if_pos ⟨hst, hwaking, hr, hdue⟩

end

/-- Settles O20: each request has its line for acceptance and for refusal; entry, the beginning, the failure and the end of a wake are one
operation each. -/
theorem bivouacCommands : Obligations.BivouacCommands := by
  refine ⟨fun s m step wake hi => ⟨fun hm hst hent hw hstep hlead => ?_, fun hm hrun hready => ?_,
    fun hs hst hent hstep h48 hlead => exec_bivouac_running hi hs hst hent hstep h48 hlead,
    fun hst hwaking hon => ⟨fun hm hearly hlead => ?_, fun hs h64 hearly hlead => ?_, fun hs hearly h64 => ?_⟩⟩,
    fun s => ⟨fun hquiet => ?_, fun hst hon => ⟨fun hwaking hdue => ?_, fun hwaking hr hg hdue => ?_,
      fun a hwaking hr hsaved hf hq hdue => ?_⟩⟩⟩
  · rw [(exec_pauseRegisters hm).1, hw, State.requestBivouac_running hst hent hstep hlead]
    exact answer_req hi rfl rfl
  · rw [(exec_pauseRegisters hm).1, State.requestBivouac_state hrun hready]
    exact answer_req hi rfl rfl
  · rw [(exec_pauseRegisters hm).2, State.setWake_accepted hst hwaking hon hearly hlead]
    exact answer_req hi rfl rfl
  · have hset := State.setWake_accepted (s := s.setReg64 0x88 wake) hst hwaking hon hearly hlead
    rw [exec_wake hs h64, hset]
    exact answer_of_eq hi
  · have hset := State.setWake_early (s := s.setReg64 0x88 wake) hst hearly
    rw [exec_wake hs h64, hset]
    exact answer_of_eq hi
  · have hp := State.finishEntry_paused hquiet
    refine next_after .bivouacQueuesQuiet s s.finishEntry _ rfl fun x hx => ?_
    have hdown (p : Nat) : x.mayTrain p = false := by simp [State.mayTrain, hx.power, hp.power]
    rw [hx.power, hx.req, hx.groups, hx.anc, hx.gq, hx.brides, hx.belay, hx.img, hx.hbm, hx.saved, hp.power, hp.brides, hp.saved]
    refine ⟨rfl, rfl, rfl, hp.entering, hp.groups, hp.anc, hp.gq, fun b hb => ?_, fun p hlen => (hx.inv.ports p hlen).1.2 (hdown p),
      hp.belay, hp.img, hp.hbm, rfl, rfl, rfl, rfl⟩
    obtain ⟨b, -, rfl⟩ := List.mem_map.1 hb
    rfl
  · have hbegun := State.beginWake_sansBrides hst hon hwaking hdue
    refine next_after .wakeBegin s s.beginWake _ rfl fun x hx => ?_
    rw [hx.power, hx.req, hx.saved, hx.img]
    have hpower := congrArg State.power hbegun
    have hreq := congrArg State.req hbegun
    have hsaved := congrArg State.saved hbegun
    have himg := congrArg State.img hbegun
    exact ⟨hpower, hreq, hsaved, himg⟩
  · have hfailed := State.wakeFailed_reset hst hwaking hr hdue
    have hcleared := State.coreReset_cleared
      (s := s.raise 0x11 (source 1 s.power.lowestDie) 0xB (nth s.power.now s.power.lowestDie 0) 0)
      (by rw [State.raise_power, hst]; decide) (by rwa [State.raise_img])
    refine next_coreReset (congrArg (answer s) hfailed) hcleared fun x hx _ => ?_
    exact ⟨hx.st, hx.waking, hx.cairn.trans (State.raise_cairn ..)⟩
  · refine next_after .wakeComplete s s.completeWake _ rfl fun x hx => ?_
    rw [hx.power, hx.req, hx.groups, hx.anc, hx.gq, hx.saved, hx.img, hx.seq, State.completeWake_due hst hwaking hr hdue,
      State.restore_plain hsaved hf hq]
    exact ⟨rfl, rfl, rfl, rfl, rfl, rfl, rfl, rfl, rfl⟩

end Sys2Proof.Machine

/-! Staging of images by management and by the host (R435 to R437, R448, Tables 12-11 and 14-16). -/

namespace Sys2Proof.Machine

section
variable {s : State} {m : Master} {len : Nat}

/-- A staging runs exactly in state 1 (Table 14-14). -/
theorem State.stages_iff : s.stages = true ↔ s.img.staging.st = 1 := by simp [State.stages]

/-- None runs in any other. -/
theorem State.stages_false : s.stages = false ↔ s.img.staging.st ≠ 1 := by simp [State.stages]

/-- A SEQ above the loaded copy's is not stale (R435). -/
theorem State.seq_newer {q : Nat} (h : s.img.loaded = false ∨ s.img.seq < q) : ¬(s.img.loaded = true ∧ q ≤ s.img.seq) := by
  rintro ⟨hl, hle⟩
  obtain hnone | hlt := h
  · simp [hnone] at hl
  · exact Nat.not_lt.2 hle hlt

/-! ### The steps of R436 -/

/-- A staging that begins is what the statement writes out. -/
theorem State.beginStaging_eq (byMgmt : Bool) : s.beginStaging byMgmt len = StagingBegun s byMgmt len := by
  have hprep : (if s.img.prep = 1 then s.img.prep else 0) = if s.img.prep = 1 then 1 else 0 := ite_congr rfl id fun _ => rfl
  rw [StagingBegun, ← hprep]
  rfl

/-- A staging that ends aborted (R437). -/
def State.stagingAborted (s : State) : State :=
  State.irq { s with
    store := if s.img.staging.header then s.store.blank (copyBase s.img.staging.toB) 4096 else s.store
    img := { s.img with staging := { s.img.staging with st := 4, header := false } } } 5

/-- Where one runs, that is what an abort leaves. -/
theorem State.abortStaging_running (h : s.img.staging.st = 1) : s.abortStaging = s.stagingAborted := by
  rw [State.abortStaging, if_neg (not_not.2 h), State.stagingAborted]
  dsimp only
  split <;> rfl

/-- A staging whose copy has been committed (R436). -/
def State.stagingCommitted (s : State) (h : List Byte) : State :=
  State.irq { s with
    store := Memory.writeN storeBlank s.store (copyBase s.img.staging.toB + 4096 * headUsed h) (commitMarker h)
    img := { s.img with staging := { s.img.staging with st := 2, header := false } } } 5

/-- A copy that reads back as a VALID one would is committed. -/
theorem State.commitStaging_good {h : List Byte} (hh : h = s.copyHead s.img.staging.toB) (hgood : headGood h = true)
    (hchecks : s.copyChecks s.img.staging.toB h = true) : s.commitStaging = (s.stagingCommitted h, true) := by
  subst hh
  simp only [State.commitStaging, hgood, hchecks, Bool.and_self, if_true, State.stagingCommitted, State.storeProgram]

/-- A copy refused: its header is erased, and an IMAGE cairn raised. -/
def State.stagingRefused (s : State) : State :=
  (s.storeErase (copyBase s.img.staging.toB) 4096).raise 0x14 (source 0 2) 0 6 (ofBool s.img.staging.toB)

/-- Any other is refused. -/
theorem State.commitStaging_bad {h : List Byte} (hh : h = s.copyHead s.img.staging.toB)
    (hbad : headGood h = false ∨ s.copyChecks s.img.staging.toB h = false) :
    s.commitStaging = (State.irq { s.stagingRefused with
      img := { s.stagingRefused.img with staging := { s.img.staging with st := 3, header := false } } } 5, false) := by
  subst hh
  have hnot : (headGood (s.copyHead s.img.staging.toB) && s.copyChecks s.img.staging.toB (s.copyHead s.img.staging.toB)) = false := by
    obtain hbad | hbad := hbad <;> simp [hbad]
  simp only [State.commitStaging, hnot, Bool.false_eq_true, if_false, State.stagingRefused]

/-- The refusal erases the header, keeps the rest of the image block, and raises its cairn. -/
theorem State.stagingRefused_left (s : State) : s.stagingRefused.img = s.img ∧
    s.stagingRefused.store = s.store.blank (copyBase s.img.staging.toB) 4096 ∧
    s.stagingRefused.cairn = s.cairn.submit s.power.cycles ⟨0x14, source 0 2, 0, 6, ofBool s.img.staging.toB⟩ s.stamp := by
  have hstamp : (s.storeErase (copyBase s.img.staging.toB) 4096).stamp = s.stamp := State.stamp_congr _ _ rfl rfl rfl
  refine ⟨State.raise_img .., State.raise_store .., ?_⟩
  rw [State.stagingRefused, State.raise_cairn, hstamp]
  rfl

/-! ### Management's staging (Table 12-11) -/

/-- The rows of management's staging, while the standby supply is there. -/
theorem exec_stageRows (hs : s.power.standby = true) :
    (∀ len, exec (.stageBegin len) s = nextOf s (s.stageBegin len)) ∧
      (∀ off bs, exec (.stageData off bs) s = nextOf s (s.stageData off bs)) ∧ exec .stageEnd s = nextOf s s.stageEnd ∧
      exec .stageAbort s = nextOf s (if s.stages then s.abortStaging.answerWith [0] else s.answerWith [1]) :=
  ⟨fun _ => congrArg (answer s) (if_pos hs), fun _ _ => congrArg (answer s) (if_pos hs), congrArg (answer s) (if_pos hs),
    congrArg (answer s) (if_pos hs)⟩

/-- STAGE-BEGIN where nothing stages or loads: INVALID without room, else the staging begins. -/
theorem State.stageBegin_idle (hg : s.stages = false) (hst : s.power.st ≠ .loading) : s.stageBegin len =
    if len < 4096 ∨ copyRoom < roundUp len 4096 + 4096 then s.answerWith [3] else (StagingBegun s true len).answerWith [0] := by
  rw [State.stageBegin, if_neg (by simp [hg, hst]), State.beginStaging_eq]

/-- STAGE-DATA in a staging of management, within the copy's room. -/
theorem State.stageData_taken (hg : s.img.staging.st = 1) (hm : s.img.staging.byMgmt = true) {off : Nat} {bs : List Byte} (hne : bs ≠ [])
    (hmax : bs.length ≤ 4000) (hroom : off + bs.length ≤ roundUp s.img.staging.len 4096) : s.stageData off bs = State.answerWith { s with
      store := Memory.writeN storeBlank s.store (copyBase s.img.staging.toB + off) bs
      img := { s.img with staging := { s.img.staging with
        progress := Nat.min s.img.staging.len (s.img.staging.progress + bs.length)
        header := s.img.staging.header || decide (off < 4096) } } } [0] := by
  have hvalid : ¬(bs = [] ∨ bs.length > 4000 ∨ off + bs.length > roundUp s.img.staging.len 4096) := by simp [hne, hmax, hroom]
  rw [State.stageData, if_neg (by simp [State.stages, hg, hm])]
  dsimp only
  rw [if_neg hvalid]
  rfl

/-- STAGE-END in a staging of management whose SEQ is above the loaded copy's. -/
theorem State.stageEnd_judged (hg : s.img.staging.st = 1) (hm : s.img.staging.byMgmt = true)
    (hseq : s.img.loaded = false ∨ s.img.seq < headSeq (s.copyHead s.img.staging.toB)) :
    s.stageEnd = s.commitStaging.1.answerWith [if s.commitStaging.2 then 0 else 1] :=
  if_neg (not_or.2 ⟨by simp [State.stages, hg], not_or.2 ⟨by simp [hm], State.seq_newer hseq⟩⟩)

/-- Where no staging runs, management's commands are REFUSED. -/
theorem State.stage_refused (hg : s.stages = false) :
    s.stageEnd = s.answerWith [1] ∧ ∀ off bs, s.stageData off bs = s.answerWith [1] :=
  ⟨if_pos (.inl (by simp [hg])), fun _ _ => if_pos (.inl (by simp [hg]))⟩

/-! ### The host's staging (Table 14-16) -/

/-- The rows of the host's staging, from the owner. -/
theorem exec_hostStageRows (hm : s.may m false = true) : exec (.imgCtlStage m) s = nextOf s s.hostStage ∧
    exec (.imgCtlAbort m) s =
      nextOf s (if !s.stages then s.imgRefuse 1 else if s.img.staging.byMgmt then s.imgRefuse 8 else s.abortStaging) :=
  ⟨congrArg (answer s) (if_pos hm), congrArg (answer s) (if_pos hm)⟩

/-- The bytes of the copy that the host placed in HBM. -/
def State.hostCopy (s : State) : List Byte := s.hbmRead (s.reg 0x20010 * 4096) (Nat.min (s.reg 0x20014 * 4096) copyRoom)

/-- The copy programmed, its header last (R436). -/
def State.hostStaged (s : State) (len : Nat) : State :=
  let u := StagingBegun s false len
  { u with
    store := Memory.writeN storeBlank (Memory.writeN storeBlank u.store (copyBase s.stageTarget + 4096) (s.hostCopy.drop 4096))
      (copyBase s.stageTarget) (s.hostCopy.take 4096)
    img := { u.img with staging := { u.img.staging with progress := len, header := true } } }

/-- IMG_CTL.STAGE of a copy newer than the loaded one (R435). -/
theorem State.hostStage_taken (hg : s.stages = false) (hst : s.power.st = .ready ∨ s.power.st = .held ∨ s.power.st = .running)
    (hseq : s.img.loaded = false ∨ s.img.seq < s.hbmNat (s.reg 0x20010 * 4096 + 8) 8) :
    s.hostStage = s.hostStaged (s.reg 0x20014 * 4096) := by
  have hidle : ¬(s.stages || s.power.st == .loading) = true := by
    obtain h | h | h := hst <;> rw [hg, h] <;> decide
  have hup : ¬(s.power.st ≠ .ready ∧ s.power.st ≠ .held ∧ s.power.st ≠ .running) := by
    rintro ⟨h1, h2, h3⟩
    obtain h | h | h := hst
    · exact h1 h
    · exact h2 h
    · exact h3 h
  have hstaged : s.hostStage = _ := (if_neg hidle).trans ((if_neg hup).trans (if_neg (State.seq_newer hseq)))
  rw [hstaged, State.beginStaging_eq]
  rfl

/-- It is refused as BUSY while a staging or a load runs, and as STATE in OFF and BIVOUAC. -/
theorem State.hostStage_refused {r : Nat} (h : (s.stages = true ∨ s.power.st = .loading) ∧ r = 6 ∨
    (s.stages = false ∧ (s.power.st = .off ∨ s.power.st = .bivouac) ∧ r = 1)) : s.hostStage = s.imgRefuse r := by
  obtain ⟨hbusy, rfl⟩ | ⟨hg, hdown, rfl⟩ := h
  · exact if_pos (by simpa using hbusy)
  · refine (if_neg ?_).trans (if_pos ?_)
    · obtain hd | hd := hdown <;> rw [hg, hd] <;> decide
    · obtain hd | hd := hdown <;> rw [hd] <;> decide

/-- STAGING_COMPLETE in a staging of the host. -/
theorem exec_stagingComplete (hs : s.power.standby = true) (hg : s.img.staging.st = 1) (hm : s.img.staging.byMgmt = false) :
    exec .stagingComplete s = nextOf s s.commitStaging.1 := congrArg (answer s) (if_pos (by simp [hs, State.stages, hg, hm]))

/-- Elsewhere it has no effect. -/
theorem exec_stagingComplete_none (hi : Inv s) (h : s.img.staging.st ≠ 1 ∨ s.img.staging.byMgmt = true) :
    exec .stagingComplete s = .next s := by
  refine (answer_unless ?_).trans (answer_self s hi)
  obtain hg | hm := h
  · simp [State.stages, hg]
  · simp [hm]

end

/-- Settles O59: each command by whether a staging runs and whose it is; an end by the checks of the copy. -/
theorem stagingOfImages : Obligations.StagingOfImages := by
  refine ⟨fun s g hs hg => ?_, fun s m hm => ⟨?_, fun r hr => ?_, fun g hg => ?_⟩⟩
  · subst hg
    obtain ⟨hbegin, hdata, hend, habort⟩ := exec_stageRows hs
    refine ⟨fun len hidle hst hlen hroom => ?_, fun len hbusy => ?_, fun len hidle hst hbad => ?_, fun hg hm => ⟨?_, ?_⟩, fun hg => ?_,
      fun hg => ⟨?_, ?_, fun off bs => ?_⟩⟩
    · rw [hbegin, State.stageBegin_idle hidle hst, if_neg (by omega)]
    · rw [hbegin, State.stageBegin, if_pos hbusy]
    · rw [hbegin, State.stageBegin_idle hidle hst, if_pos hbad]
    · intro off bs hne hmax hroom
      rw [hdata, State.stageData_taken hg hm hne hmax hroom]
    · intro h c hh hc hseq
      have hjudged := State.stageEnd_judged hg hm (hh ▸ hseq)
      refine ⟨fun hgood hchecks => ?_, fun hbad => ?_⟩
      · rw [hend, hjudged, State.commitStaging_good hh hgood hchecks, hc]
        rfl
      · rw [hjudged, State.commitStaging_bad hh hbad] at hend
        refine next_after _ s _ _ hend fun x hx => ?_
        obtain ⟨-, hstore, hcairn⟩ := s.stagingRefused_left
        rw [hx.out, hx.img, hx.store, hx.cairn, hc]
        exact ⟨rfl, congrArg (fun i : ImgSt => i.staging.st) (State.irq_img _ 5), (State.irq_store _ 5).trans hstore,
          (State.irq_cairn _ 5).trans hcairn⟩
    · rw [habort, if_pos (State.stages_iff.2 hg), State.abortStaging_running hg]
      rfl
    · rw [habort, if_neg (by simp [State.stages_false.2 hg])]
    · rw [hend, (State.stage_refused (State.stages_false.2 hg)).1]
    · rw [hdata, (State.stage_refused (State.stages_false.2 hg)).2]
  · rintro base len bytes u rfl rfl rfl hidle hst hseq rfl
    have hexec := (exec_hostStageRows hm).1
    rw [State.hostStage_taken hidle hst hseq] at hexec
    refine next_after _ s _ _ hexec fun x hx => ?_
    rw [hx.img, hx.store, hx.hbm, hx.power]
    exact ⟨rfl, rfl, rfl, rfl⟩
  · rw [(exec_hostStageRows hm).1, State.hostStage_refused hr]
    rfl
  · subst hg
    have habort := (exec_hostStageRows hm).2
    refine ⟨fun hg hhost => ?_, fun r hr => ?_, fun h hg hhost hh hgood hchecks => ?_, fun h hi => exec_stagingComplete_none hi h⟩
    · rw [habort, if_neg (by simp [State.stages, hg]), if_neg (by simp [hhost]), State.abortStaging_running hg]
      rfl
    · rw [habort]
      obtain ⟨hg, rfl⟩ | ⟨hg, hmgmt, rfl⟩ := hr
      · rw [if_pos (by simp [State.stages, hg])]
        rfl
      · rw [if_neg (by simp [State.stages, hg]), if_pos hmgmt]
        rfl
    · rw [exec_stagingComplete (State.standby_of_may hm) hg hhost, State.commitStaging_good hh hgood hchecks]
      rfl

end Sys2Proof.Machine

/-! Loads, recovery, keys, preparation and re-thread (R427, R429, R432, R438, R439, R448, Tables 12-9, 12-11 and 14-16). -/

namespace Sys2Proof.Machine

section
variable {s : State} {m : Master} {n r : Nat}

/-! ### Loads (R429, R432) -/

/-- LOADING entered for a named copy, waiting for HBM. -/
def State.awaitingCopy (s : State) (n : Nat) : State :=
  let t := s.clearForLoad
  { t with
    power := { t.power with st := .loading, phase := 2, cause := 0, check := 0, loadCopy := n }
    seq := { t.seq with variant := 0 } }

/-- After phase 1 with a birth record, a store and no HBM yet, the load of a named copy waits (Table 12-7). -/
theorem State.enterLoading_named (h1 : s.power.phase1 = true) (hb : s.power.birth.isSome = true) (hmode : s.power.storeMode ≠ 3)
    (hh : s.power.hbmReady = false) (n : Nat) : s.enterLoading n = s.awaitingCopy n := by
  have hnone : s.power.birth.isNone = false := by simpa using hb
  have hphase : (if s.power.phase1 = true ∧ s.power.birth.isSome = true then s else s.phaseOne) = s := if_pos ⟨h1, hb⟩
  simp only [State.enterLoading, State.awaitingCopy, hphase, State.clearForLoad_power, hmode, hnone, hh, if_false, Bool.false_eq_true]

/-- A load is not refused in READY or HELD with no staging under way (Table 12-9). -/
theorem State.loadRefusal_none (hg : s.stages = false) (hst : s.power.st = .ready ∨ s.power.st = .held) : s.loadRefusal = 0 := by
  have hstate : ¬(s.power.st ≠ .ready ∧ s.power.st ≠ .held) := by
    rintro ⟨hr, hh⟩
    exact hst.elim hr hh
  rw [State.loadRefusal, if_neg (by simp [hg]), if_neg hstate]

/-- While a staging runs the reason is BUSY. -/
theorem State.loadRefusal_busy (hg : s.stages = true) : s.loadRefusal = 6 := if_pos hg

/-- Else, in another state, it is STATE. -/
theorem State.loadRefusal_state (hg : s.stages = false) (hr : s.power.st ≠ .ready) (hh : s.power.st ≠ .held) : s.loadRefusal = 1 := by
  rw [State.loadRefusal, if_neg (by simp [hg]), if_pos ⟨hr, hh⟩]

/-- The rows of a load, while the standby supply is there. -/
theorem exec_igvaeloLoad (hs : s.power.standby = true) (n : Nat) : exec (.load n) s = nextOf s (s.igvaeloLoad n) :=
  congrArg (answer s) (if_pos hs)

/-- The owner's rows on the image registers. -/
theorem exec_imgCtlRows (hm : s.may m false = true) : (∀ n, exec (.imgCtlLoad m n) s = nextOf s (s.ctlLoad n)) ∧
    exec (.imgCtlRecover m) s = nextOf s s.recover ∧ exec (.imgCtlPrepare m) s = nextOf s s.prepare ∧
    exec (.imgCtlRethread m) s = nextOf s s.rethread ∧ exec (.imgCtlCancel m) s = nextOf s s.cancelRethread :=
  ⟨fun _ => congrArg (answer s) (if_pos hm), congrArg (answer s) (if_pos hm), congrArg (answer s) (if_pos hm),
    congrArg (answer s) (if_pos hm), congrArg (answer s) (if_pos hm)⟩

/-- A load that is not refused enters LOADING for the copy named. -/
theorem State.ctlLoad_entered (hn : n ≤ 2) (hnot : s.loadRefusal = 0) : s.ctlLoad n = s.enterLoading n := by
  rw [State.ctlLoad, if_pos hnot, if_neg (by omega)]

/-- A refused one leaves its reason. -/
theorem State.ctlLoad_refused (hr : s.loadRefusal = r) (hne : r ≠ 0) : s.ctlLoad n = s.imgRefuse r := by
  subst hr
  exact if_neg hne

/-- LOAD by the owner management. -/
theorem State.igvaeloLoad_entered (ho : s.mgmt.owner = .mgmt) (hn : n ≤ 2) (hst : s.power.st = .ready ∨ s.power.st = .held)
    (hnot : s.loadRefusal = 0) : s.igvaeloLoad n = (s.enterLoading n).answerWith [0] := by
  have hup : ¬(s.power.st = .off ∨ s.power.st = .bivouac) := by
    obtain h | h := hst <;> rw [h] <;> decide
  rw [State.igvaeloLoad, if_neg (by simp [ho]), if_neg (by omega), if_neg hup, hnot, if_neg (by decide), if_neg (by decide)]

/-- What LOAD answers where it does not load: NOT-OWNER, INVALID, UNAVAILABLE, BUSY, REFUSED, the first that applies (R448). -/
theorem State.igvaeloLoad_refused (h : (s.mgmt.owner ≠ .mgmt ∧ r = 4) ∨ (s.mgmt.owner = .mgmt ∧ 2 < n ∧ r = 3) ∨
    (s.mgmt.owner = .mgmt ∧ n ≤ 2 ∧ (s.power.st = .off ∨ s.power.st = .bivouac) ∧ r = 5) ∨
    (s.mgmt.owner = .mgmt ∧ n ≤ 2 ∧ s.power.st ≠ .off ∧ s.power.st ≠ .bivouac ∧ s.stages = true ∧ r = 2) ∨
    (s.mgmt.owner = .mgmt ∧ n ≤ 2 ∧ (s.power.st = .loading ∨ s.power.st = .running) ∧ s.stages = false ∧ r = 1)) :
    s.igvaeloLoad n = s.answerWith [r] := by
  rw [State.igvaeloLoad]
  obtain ⟨ho, rfl⟩ | ⟨ho, hn, rfl⟩ | ⟨ho, hn, hdown, rfl⟩ | ⟨ho, hn, hoff, hbiv, hg, rfl⟩ | ⟨ho, hn, hst, hg, rfl⟩ := h
  · rw [if_pos ho]
  · rw [if_neg (by simp [ho]), if_pos hn]
  · rw [if_neg (by simp [ho]), if_neg (by omega), if_pos hdown]
  · rw [if_neg (by simp [ho]), if_neg (by omega), if_neg (by simp [hoff, hbiv]), if_pos (State.loadRefusal_busy hg)]
  · have hup : ¬(s.power.st = .off ∨ s.power.st = .bivouac) := by
      obtain h | h := hst <;> rw [h] <;> decide
    have hwhy : s.loadRefusal = 1 := by
      apply State.loadRefusal_state hg <;> obtain h | h := hst <;> rw [h] <;> decide
    rw [if_neg (by simp [ho]), if_neg (by omega), if_neg hup, hwhy, if_neg (by decide), if_pos rfl]

/-- A row whose effect is a load that waits for HBM. -/
theorem next_awaitingCopy {c : Instr} {e : State} {reply : List Nat} (h : exec c s = answer s e)
    (he : e = (s.awaitingCopy n).answerWith reply) (hreply : c = .load n → reply = [0]) :
    ∃ t, exec c s = .next t ∧ t.power.st = .loading ∧ t.power.phase = 2 ∧ t.power.loadCopy = n ∧ t.img.run = none ∧
      t.img.loaded = false ∧ t.groups = [] ∧ t.gq = [] ∧ t.anc = Anchors.reset ∧ t.store = s.store ∧
      (c = .load n → t.out.reply = [0]) := by
  subst he
  refine next_after c s _ _ h fun x hx => ?_
  rw [hx.power, hx.img, hx.groups, hx.gq, hx.anc, hx.store, hx.out]
  exact ⟨rfl, rfl, rfl, rfl, rfl, rfl, rfl, rfl, rfl, hreply⟩

/-! ### Key enrolment (R427) -/

/-- The row ENROLL_KEY. -/
theorem exec_enrollKey (hs : s.power.standby = true) (rec : List Byte) : exec (.enrollKey rec) s = nextOf s (s.enroll rec) :=
  congrArg (answer s) (if_pos hs)

/-- A valid record that is newer than the one in the store is written. -/
theorem State.enroll_written {rec : List Byte} {k : OwnerKey} (hlen : rec.length = 4096) (hk : keyRecord rec = some k)
    (hnew : ∀ o, s.readKey = some o → o.kseq < k.kseq) : s.enroll rec = (s.writeKey rec).answerWith [0] := by
  simp only [State.enroll, if_pos hlen, hk]
  cases hnow : s.readKey with
  | none => simp
  | some o => simp [hnew o hnow]

/-- Any other is refused with an IMAGE cairn. -/
theorem State.enroll_refused {rec : List Byte} (h : rec.length ≠ 4096 ∨ keyRecord rec = none ∨
    ∃ k o, keyRecord rec = some k ∧ s.readKey = some o ∧ k.kseq ≤ o.kseq) :
    s.enroll rec = (s.raise 0x14 (source 0 2) 0 6 0).answerWith [1] := by
  by_cases hlen : rec.length = 4096
  · obtain hbad | hnone | ⟨k, o, hk, hnow, hold⟩ := h
    · exact absurd hlen hbad
    · simp only [State.enroll, if_pos hlen, hnone]
    · have hnot : ¬o.kseq < k.kseq := Nat.not_lt.2 hold
      simp [State.enroll, hlen, hk, hnow, hnot]
  · simp only [State.enroll, if_neg hlen]

/-! ### Preparation (R438) -/

/-- A preparation starts in RUNNING, with no re-thread ARMED, no staging and none under way. -/
theorem State.prepare_started (hst : s.power.st = .running) (hre : s.img.rethread ≠ 1) (hg : s.stages = false) (hp : s.img.prep ≠ 1) :
    s.prepare = { s with img := { s.img with prep := 1, pcause := 0, prepared := none } } := by
  rw [State.prepare, if_neg (by simp [State.isRunning, hst, hre]), if_neg (by simp [hg]), if_neg hp]

/-- It is refused as STATE, or as BUSY while a staging runs. -/
theorem State.prepare_refused (h : ((s.power.st ≠ .running ∨ s.img.rethread = 1) ∧ r = 1) ∨
    (s.power.st = .running ∧ s.img.rethread ≠ 1 ∧ s.stages = true ∧ r = 6)) : s.prepare = s.imgRefuse r := by
  obtain ⟨hst, rfl⟩ | ⟨hst, hre, hg, rfl⟩ := h
  · exact if_pos (by simpa [State.isRunning] using hst)
  · rw [State.prepare, if_neg (by simp [State.isRunning, hst, hre]), if_pos hg]

/-- The outcome of a preparation: the image of a VALID copy that passes the checks, or the cause that failed. -/
theorem State.prepared_ok {im : Image} (hc : s.copyClass s.stageTarget = .valid) (him : s.checkedImage s.stageTarget = .ok im) :
    s.prepared = .ok im := by simp only [State.prepared, hc, him]

/-- CHECK for a VALID copy that fails one, HALF-WRITTEN, or NO-IMAGE. -/
theorem State.prepared_error {c : Nat} (h :
    (s.copyClass s.stageTarget = .valid ∧ (∃ n, s.checkedImage s.stageTarget = .error n) ∧ c = 6) ∨
    (s.copyClass s.stageTarget = .halfWritten ∧ c = 2) ∨
    ((s.copyClass s.stageTarget = .empty ∨ s.copyClass s.stageTarget = .invalid) ∧ c = 1)) : s.prepared = .error c := by
  obtain ⟨hc, ⟨n, hn⟩, rfl⟩ | ⟨hc, rfl⟩ | ⟨hc | hc, rfl⟩ := h
  · simp only [State.prepared, hc, hn]
  · simp only [State.prepared, hc]
  · simp only [State.prepared, hc]
  · simp only [State.prepared, hc]

/-- PREPARATION_COMPLETE of one that succeeds. -/
theorem State.preparationDone_ok {im : Image} (hp : s.img.prep = 1) (h : s.prepared = .ok im) : s.preparationDone =
    State.irq { s with img := { s.img with prep := 2, prepared := some im, pcause := 0 } } 5 := by
  rw [State.preparationDone, if_neg (not_not.2 hp), h]

/-- PREPARATION_COMPLETE of one that fails. -/
theorem State.preparationDone_error {c : Nat} (hp : s.img.prep = 1) (h : s.prepared = .error c) : s.preparationDone =
    State.irq { s with img := { s.img with prep := 3, prepared := none, pcause := c } } 5 := by
  rw [State.preparationDone, if_neg (not_not.2 hp), h]

/-! ### Re-thread (R439) -/

/-- A re-thread that is not refused is ARMED for its step. -/
theorem State.rethread_armed (h : s.rethreadRefusal (s.reg48 0x20018) = 0) :
    s.rethread = { s with img := { s.img with rethread := 1, rethreadStep := s.reg48 0x20018 } } := if_neg (not_not.2 h)

/-- A refused one leaves its reason, and interrupts. -/
theorem State.rethread_refused (h : s.rethreadRefusal (s.reg48 0x20018) = r) (hr : r ≠ 0) :
    s.rethread = State.irq { s with img := { s.img with rethread := 2, reason := r } } 5 := by
  subst h
  exact if_pos hr

/-- The reasons of R439 against a prepared image, in RUNNING: the first that applies. -/
theorem State.rethreadRefusal_prepared {im : Image} (hst : s.power.st = .running) (hp : s.img.prepared = some im) (t : Nat) :
    s.rethreadRefusal t = if im.conf ≠ s.image.conf then 3 else if im.layoutKey ≠ s.image.layoutKey then 4
      else if s.originOf t < s.belay.count + 62500 then 5 else 0 := by
  rw [State.rethreadRefusal, if_neg (by simp [State.isRunning, hst]), hp]
  rfl

/-- The reason by the condition that fails. -/
theorem State.rethreadRefusal_eq {t : Nat} (h :
    (s.power.st ≠ .running ∧ r = 1) ∨ (s.power.st = .running ∧ s.img.prepared = none ∧ r = 2) ∨
    (s.power.st = .running ∧ ∃ im, s.img.prepared = some im ∧ ((im.conf ≠ s.image.conf ∧ r = 3) ∨
      (im.conf = s.image.conf ∧ im.layoutKey ≠ s.image.layoutKey ∧ r = 4) ∨
      (im.conf = s.image.conf ∧ im.layoutKey = s.image.layoutKey ∧ s.originOf t < s.belay.count + 62500 ∧ r = 5)))) :
    s.rethreadRefusal t = r ∧ r ≠ 0 := by
  obtain ⟨hst, rfl⟩ | ⟨hst, hp, rfl⟩ | ⟨hst, im, hp, hwhy⟩ := h
  · exact ⟨if_pos (by simp [State.isRunning, hst]), by decide⟩
  · rw [State.rethreadRefusal, if_neg (by simp [State.isRunning, hst]), hp]
    exact ⟨rfl, by decide⟩
  · rw [State.rethreadRefusal_prepared hst hp]
    obtain ⟨hc, rfl⟩ | ⟨hc, hl, rfl⟩ | ⟨hc, hl, ho, rfl⟩ := hwhy
    · exact ⟨if_pos hc, by decide⟩
    · rw [if_neg (not_not.2 hc), if_pos hl]
      exact ⟨rfl, by decide⟩
    · rw [if_neg (not_not.2 hc), if_neg (not_not.2 hl), if_pos ho]
      exact ⟨rfl, by decide⟩

/-- CANCEL of an ARMED re-thread in time. -/
theorem State.cancelRethread_taken (hre : s.img.rethread = 1) (hlead : s.belay.count + 64 < s.originOf s.img.rethreadStep) :
    s.cancelRethread = State.irq { s with img := { s.img with rethread := 4 } } 5 := by
  have hintime : ¬s.originOf s.img.rethreadStep ≤ s.count + 64 := Nat.not_le.2 hlead
  rw [State.cancelRethread, if_neg (not_not.2 hre), if_neg hintime]

/-- CANCEL without one, or too late. -/
theorem State.cancelRethread_refused (h : (s.img.rethread ≠ 1 ∧ r = 1) ∨
    (s.img.rethread = 1 ∧ s.originOf s.img.rethreadStep ≤ s.belay.count + 64 ∧ r = 5)) : s.cancelRethread = s.imgRefuse r := by
  obtain ⟨hre, rfl⟩ | ⟨hre, hlate, rfl⟩ := h
  · exact if_pos hre
  · exact (if_neg (not_not.2 hre)).trans (if_pos hlate)

end

/-- Settles O60: each row by the reason that refuses it, the first that applies, or by what it does where none does. -/
theorem storeCommands : Obligations.StoreCommands := by
  refine ⟨fun s m n hs => ⟨fun hn hg hst h1 hb hmode hh c hc => ?_, fun r hr => ?_, fun hm => ⟨fun r hr => ?_, fun r hr => ⟨?_, ?_⟩⟩,
      fun rec => ⟨fun k hlen hk hnew => ?_, fun h => ?_⟩⟩,
    fun s m img step himg hstep => ⟨fun hm => ?_, fun hp => ⟨fun im hc him => ?_, fun c hc => ?_⟩, fun hp hi => ?_⟩⟩
  · have hnot := State.loadRefusal_none hg hst
    have hload := State.enterLoading_named h1 hb hmode hh n
    obtain ⟨rfl, hm⟩ | ⟨rfl, ho⟩ := hc
    · have hexec := (exec_imgCtlRows hm).1 n
      rw [State.ctlLoad_entered hn hnot, hload] at hexec
      exact next_awaitingCopy (reply := s.out.reply) hexec rfl nofun
    · have hexec := exec_igvaeloLoad hs n
      rw [State.igvaeloLoad_entered ho hn hst hnot, hload] at hexec
      exact next_awaitingCopy hexec rfl fun _ => rfl
  · rw [exec_igvaeloLoad hs, State.igvaeloLoad_refused hr]
  · rw [(exec_imgCtlRows hm).1]
    obtain ⟨hg, rfl⟩ | ⟨hg, hready, hheld, rfl⟩ := hr
    · rw [State.ctlLoad_refused (State.loadRefusal_busy hg) (by decide)]
      rfl
    · rw [State.ctlLoad_refused (State.loadRefusal_state hg hready hheld) (by decide)]
      rfl
  · intro hzero
    have hwhy : s.recoverRefusal = 0 := hr.symm.trans hzero
    rw [(exec_imgCtlRows hm).2.1, State.recover, if_pos hwhy]
  · intro hne
    have hwhy : s.recoverRefusal = r := hr.symm
    rw [(exec_imgCtlRows hm).2.1, State.recover, hwhy, if_neg hne]
    rfl
  · rw [exec_enrollKey hs, State.enroll_written hlen hk hnew]
    rfl
  · rw [exec_enrollKey hs, State.enroll_refused h]
  · subst himg hstep
    obtain ⟨-, -, hprepare, hrethread, hcancel⟩ := exec_imgCtlRows hm
    rw [hprepare, hrethread, hcancel]
    refine ⟨fun hst hre hg hp => ?_, fun r hr => ?_, fun im hst hp hconf hlay hlead => ?_, fun r hr => ?_, fun hre hlead => ?_,
      fun r hr => ?_⟩
    · rw [State.prepare_started hst hre hg hp]
    · rw [State.prepare_refused hr]
      rfl
    · have hnone : s.rethreadRefusal (s.reg48 0x20018) = 0 := by
        rw [State.rethreadRefusal_prepared hst hp, if_neg (not_not.2 hconf), if_neg (not_not.2 hlay), if_neg (Nat.not_lt.2 hlead)]
      rw [State.rethread_armed hnone]
    · obtain ⟨hwhy, hne⟩ := State.rethreadRefusal_eq hr
      rw [State.rethread_refused hwhy hne]
    · rw [State.cancelRethread_taken hre hlead]
    · rw [State.cancelRethread_refused hr]
      rfl
  · subst himg
    exact congrArg (answer s) (State.preparationDone_ok hp (State.prepared_ok hc him))
  · subst himg
    exact congrArg (answer s) (State.preparationDone_error hp (State.prepared_error hc))
  · subst himg
    exact answer_kept hi (if_pos hp)

end Sys2Proof.Machine

/-! Expert slots, and the order of micro-batches (R90, R247). -/

namespace Sys2Proof.Machine

/-! ### The slots of an expert (R247) -/

section
variable (key cap : Nat)

theorem takeSlots_length (cs : List (Option Nat)) (t : Tab Nat) : (takeSlots key cap false t cs).2.length = cs.length := by
  induction cs generalizing t with
  | nil => rfl
  | cons c cs ih => cases c with
    | none => simp [takeSlots, ih]
    | some e => simp only [takeSlots]; split <;> simp [ih]

theorem takeSlots_count (cs : List (Option Nat)) (t : Tab Nat) {e : Nat} (h : t.get 0 (key + e) ≤ cap) :
    (takeSlots key cap false t cs).1.get 0 (key + e) = min cap (t.get 0 (key + e) + cs.count (some e)) := by
  induction cs generalizing t with
  | nil => simp [takeSlots, h]
  | cons c cs ih => cases c with
    | none => simpa [takeSlots] using ih t h
    | some x =>
      rw [List.count_cons]
      by_cases hx : x = e
      · subst hx
        by_cases hfull : cap ≤ t.get 0 (key + x)
        · simp only [takeSlots, hfull, or_true, if_true, beq_self_eq_true]
          rw [ih t h]
          omega
        · have ht : (t.put (key + x) (t.get 0 (key + x) + 1)).get 0 (key + x) = t.get 0 (key + x) + 1 := by simp [Tab.get_put]
          simp only [takeSlots, hfull, or_false, Bool.false_eq_true, if_false, beq_self_eq_true, if_true]
          rw [ih _ (by omega), ht]
          omega
      · have ht : ∀ n, (t.put (key + x) n).get 0 (key + e) = t.get 0 (key + e) := fun n => by
          rw [Tab.get_put, if_neg (by omega)]
        have hb : ((some x : Option Nat) == some e) = false := by simpa using hx
        simp only [takeSlots, hb, Bool.false_eq_true, if_false, Nat.add_zero]
        split
        · exact ih t h
        · rw [ih _ (by rwa [ht]), ht]

theorem takeSlots_word_none (cs : List (Option Nat)) (t : Tab Nat) {i : Nat} (hi : i < cs.length) (hc : nth cs i none = none) :
    nth (takeSlots key cap false t cs).2 i 0 = choiceBits 4 0 0 := by
  induction cs generalizing t i with
  | nil => simp at hi
  | cons c cs ih =>
    cases i with
    | zero =>
      obtain rfl : c = none := hc
      simp [takeSlots, nth]
    | succ i =>
      have hi' : i < cs.length := by simpa using hi
      cases c with
      | none => simpa [takeSlots, nth] using ih t hi' hc
      | some x =>
        simp only [takeSlots]
        split
        · simpa [nth] using ih t hi' hc
        · simpa [nth] using ih _ hi' hc

theorem takeSlots_word_some (cs : List (Option Nat)) (t : Tab Nat) {i e : Nat} (hi : i < cs.length) (hc : nth cs i none = some e)
    (h : t.get 0 (key + e) ≤ cap) : nth (takeSlots key cap false t cs).2 i 0 =
      if t.get 0 (key + e) + (cs.take i).count (some e) < cap
        then choiceBits 6 (t.get 0 (key + e) + (cs.take i).count (some e)) e else choiceBits 3 0 e := by
  induction cs generalizing t i with
  | nil => simp at hi
  | cons c cs ih =>
    cases i with
    | zero =>
      obtain rfl : c = some e := hc
      by_cases hfull : cap ≤ t.get 0 (key + e)
      · simp [takeSlots, hfull, nth, Nat.not_lt.2 hfull]
      · simp [takeSlots, hfull, nth, Nat.not_le.1 hfull]
    | succ i =>
      have hi' : i < cs.length := by simpa using hi
      cases c with
      | none => simpa [takeSlots, nth] using ih t hi' hc h
      | some x =>
        rw [List.take_succ_cons, List.count_cons]
        by_cases hx : x = e
        · subst hx
          by_cases hfull : cap ≤ t.get 0 (key + x)
          · simp only [takeSlots, hfull, or_true, if_true, beq_self_eq_true]
            refine (ih t hi' hc h).trans ?_
            rw [if_neg (by omega), if_neg (by omega)]
          · have ht : (t.put (key + x) (t.get 0 (key + x) + 1)).get 0 (key + x) = t.get 0 (key + x) + 1 := by simp [Tab.get_put]
            simp only [takeSlots, hfull, or_false, Bool.false_eq_true, if_false, beq_self_eq_true, if_true]
            refine (ih _ hi' hc (by omega)).trans ?_
            rw [ht, Nat.add_assoc, Nat.add_comm 1]
        · have ht : ∀ n, (t.put (key + x) n).get 0 (key + e) = t.get 0 (key + e) := fun n => by
            rw [Tab.get_put, if_neg (by omega)]
          have hb : ((some x : Option Nat) == some e) = false := by simpa using hx
          simp only [takeSlots, hb, Bool.false_eq_true, if_false, Nat.add_zero]
          split
          · exact ih t hi' hc h
          · refine (ih _ hi' hc (by rwa [ht])).trans ?_
            rw [ht]

end

/-! ### Micro-batches (R90) -/

section
variable {b n : BlockSt} {mbs mb : Nat} {final : Bool}

theorem BlockSt.accept_none_iff : b.accept mbs mb final = none ↔ mbs < mb ∨ (b.window = false ∧ mb < b.j) := by
  unfold BlockSt.accept
  split
  · next h => simp [h]
  · next h => split <;> simp_all

theorem BlockSt.accept_some (h : b.accept mbs mb final = some n) : n = { b with
    j := if mb = b.j then b.j + 1 else b.j
    outOfOrder := b.outOfOrder || (!b.window && mb > b.j) || (final ≠ (mb == mbs))
    window := (b.window || mb > b.j || (mb == mbs && !final)) && !final
    complete := b.complete || (!b.window && mb == b.j && mb == mbs && final &&
      !(b.outOfOrder || (!b.window && mb > b.j) || (final ≠ (mb == mbs)))) } := by
  unfold BlockSt.accept at h
  split at h
  · cases h
  · split at h
    · cases h
    · simpa using h.symm

theorem BlockSt.accept_window (h : b.accept mbs mb final = some n) :
    n.window = true ↔ final = false ∧ (b.window = true ∨ b.j < mb ∨ mb = mbs) := by
  rw [BlockSt.accept_some h]
  cases final <;> simp [or_assoc]

theorem BlockSt.accept_outOfOrder (h : b.accept mbs mb final = some n) :
    n.outOfOrder = true ↔ b.outOfOrder = true ∨ (b.window = false ∧ b.j < mb) ∨ ¬(final = true ↔ mb = mbs) := by
  rw [BlockSt.accept_some h]
  cases final <;> simp [or_assoc]

theorem BlockSt.accept_complete (h : b.accept mbs mb final = some n) (hb : b.complete = false) :
    n.complete = true ↔ b.window = false ∧ mb = b.j ∧ mb = mbs ∧ final = true ∧ b.outOfOrder = false := by
  rw [BlockSt.accept_some h]
  cases final with
  | false => simp [hb]
  | true =>
    simp only [hb, Bool.false_or, Bool.and_eq_true, Bool.not_eq_true', beq_iff_eq, Bool.or_eq_false_iff, and_true]
    constructor
    · rintro ⟨⟨⟨hw, hj⟩, hm⟩, ⟨ho, -⟩, -⟩
      exact ⟨hw, hj, hm, trivial, ho⟩
    · rintro ⟨hw, hj, hm, -, ho⟩
      simp [hw, ← hj, hm, ho]

end

/-- Settles O39: the slots by induction on the choices, the micro-batches by the fields of the accepted block. -/
theorem expertSlotsAndMicroBatches : Obligations.ExpertSlotsAndMicroBatches := by
  unfold Obligations.ExpertSlotsAndMicroBatches
  refine ⟨fun key cap t cs => ⟨takeSlots_length key cap cs t, fun e h => takeSlots_count key cap cs t h, ?_⟩,
    fun b mbs mb final => ⟨BlockSt.accept_none_iff, fun n h => ⟨?_, BlockSt.accept_window h, BlockSt.accept_outOfOrder h,
      BlockSt.accept_complete h, ?_, ?_⟩⟩⟩
  · rintro i hi w rfl
    cases hc : nth cs i none with
    | none => exact takeSlots_word_none key cap cs t hi hc
    | some e => exact takeSlots_word_some key cap cs t hi hc
  all_goals rw [BlockSt.accept_some h]

end Sys2Proof.Machine

/-! Heat codes, and the blocks that a budget takes (R97, R98). -/

namespace Sys2Proof.Machine

/-! ### Heat codes (R97) -/

/-- From 2^11 on, a code is an exponent `k` and a significand `m` of 12 bits, the top one set: it stands for `m 2^k`. -/
theorem heatValue_eq {k m : Nat} (h1 : 2 ^ 11 ≤ m) (h2 : m ≤ 2 ^ 12) : heatValue (k * 2 ^ 11 + m) = m * 2 ^ k := by
  unfold heatValue
  by_cases hm : m = 2 ^ 12
  · subst hm
    have h3 : ¬k * 2 ^ 11 + 2 ^ 12 < 2 ^ 12 := by omega
    have h4 : (k * 2 ^ 11 + 2 ^ 12) % 2 ^ 11 = 0 := by omega
    have h5 : (k * 2 ^ 11 + 2 ^ 12) / 2 ^ 11 - 1 = k + 1 := by omega
    rw [if_neg h3, h4, h5, Nat.pow_succ]
    ring
  · have h4 : (k * 2 ^ 11 + m) % 2 ^ 11 + 2 ^ 11 = m := by omega
    have h5 : (k * 2 ^ 11 + m) / 2 ^ 11 - 1 = k := by omega
    rw [h4, h5]
    split
    · obtain rfl : k = 0 := by omega
      simp
    · rfl

theorem heatValue_small {c : Nat} (h : c ≤ 2 ^ 12) : heatValue c = c := by
  by_cases h1 : c < 2 ^ 12
  · exact if_pos h1
  · obtain rfl : c = 2 ^ 12 := by omega
    decide

theorem heatValue_mono {a b : Nat} (h : a ≤ b) : heatValue a ≤ heatValue b := by
  refine monotone_nat_of_le_succ (fun c => ?_) h
  by_cases hc : c < 2 ^ 12
  · rw [heatValue_small (by omega), heatValue_small (by omega)]
    omega
  · obtain ⟨k, m, h1, h2, rfl⟩ : ∃ k m, 2 ^ 11 ≤ m ∧ m < 2 ^ 12 ∧ c = k * 2 ^ 11 + m :=
      ⟨c / 2 ^ 11 - 1, c % 2 ^ 11 + 2 ^ 11, by omega, by omega, by omega⟩
    rw [Nat.add_assoc, heatValue_eq h1 (by omega), heatValue_eq (by omega) (by omega)]
    exact Nat.mul_le_mul_right _ (by omega)

/-- A code's exponent and significand: the heat is cut to its 12 top bits. -/
theorem heatCode_eq (g : Nat) : ∃ k, heatCode g = k * 2 ^ 11 + g / 2 ^ k ∧ g / 2 ^ k < 2 ^ 12 ∧
    (k = 0 ∨ (2 ^ 11 ≤ g / 2 ^ k ∧ 2 ^ (k + 11) ≤ g)) := by
  by_cases hs : g < 2 ^ 12
  · refine ⟨0, ?_, by simpa using hs, .inl rfl⟩
    unfold heatCode bitlen
    dsimp only
    by_cases h0 : g = 0
    · simp [h0]
    · rw [if_neg h0]
      have h1 : g.log2 < 12 := (Nat.log2_lt h0).2 hs
      split
      · simp
      · next h2 =>
        have h3 : g.log2 = 11 := by omega
        have h4 : 2 ^ 11 ≤ g := h3 ▸ Nat.log2_self_le h0
        simp only [h3, Nat.reduceAdd, Nat.reduceSub, Nat.pow_zero, Nat.div_one]
        omega
  · have h0 : g ≠ 0 := by omega
    have hl : 12 ≤ g.log2 := (Nat.le_log2 h0).2 (by omega)
    obtain ⟨k, hk⟩ : ∃ k, g.log2 = k + 11 := ⟨g.log2 - 11, by omega⟩
    have hlow : 2 ^ (k + 11) ≤ g := hk ▸ Nat.log2_self_le h0
    have hhigh : g < 2 ^ (k + 12) := by
      have := Nat.lt_log2_self (n := g)
      rwa [hk] at this
    have hm1 : 2 ^ 11 ≤ g / 2 ^ k := (Nat.le_div_iff_mul_le (by positivity)).2 (by rwa [← Nat.pow_add, Nat.add_comm])
    have hm2 : g / 2 ^ k < 2 ^ 12 := (Nat.div_lt_iff_lt_mul (by positivity)).2 (by rwa [← Nat.pow_add, Nat.add_comm])
    refine ⟨k, ?_, hm2, .inr ⟨hm1, hlow⟩⟩
    have h5 : k + 11 + 1 - 11 = k + 1 := by omega
    have h6 : k + 11 + 1 - 12 = k := by omega
    unfold heatCode bitlen
    simp only [if_neg h0, hk, h5, h6]
    rw [if_neg (by omega)]
    omega

theorem heatValue_heatCode_le (g : Nat) : heatValue (heatCode g) ≤ g := by
  obtain ⟨k, hc, hm, rfl | ⟨hm1, -⟩⟩ := heatCode_eq g
  · simp only [Nat.pow_zero, Nat.div_one, Nat.zero_mul, Nat.zero_add] at hc hm
    rw [hc, heatValue_small (by omega)]
  · rw [hc, heatValue_eq hm1 (by omega)]
    exact Nat.div_mul_le_self g (2 ^ k)

theorem lt_heatValue_heatCode_succ (g : Nat) : g < heatValue (heatCode g + 1) := by
  obtain ⟨k, hc, hm, rfl | ⟨hm1, -⟩⟩ := heatCode_eq g
  · simp only [Nat.pow_zero, Nat.div_one, Nat.zero_mul, Nat.zero_add] at hc hm
    rw [hc, heatValue_small (by omega)]
    omega
  · rw [hc, Nat.add_assoc, heatValue_eq (by omega) (by omega)]
    exact Nat.lt_mul_of_div_lt (Nat.lt_succ_self _) (by positivity)

theorem heatCode_mono {a b : Nat} (h : a ≤ b) : heatCode a ≤ heatCode b := by
  by_contra hlt
  have h1 : heatValue (heatCode b + 1) ≤ heatValue (heatCode a) := heatValue_mono (by omega)
  have h2 := heatValue_heatCode_le a
  have h3 := lt_heatValue_heatCode_succ b
  omega

theorem heatCode_small {g : Nat} (h : g < 2 ^ 12) : heatCode g = g := by
  obtain ⟨k, hc, hm, rfl | ⟨-, hk⟩⟩ := heatCode_eq g
  · simpa using hc
  · have h1 : 2 ^ (k + 11) < 2 ^ 12 := by omega
    obtain rfl : k = 0 := by
      have := (Nat.pow_lt_pow_iff_right (by omega : 1 < 2)).1 h1
      omega
    simpa using hc

theorem heatCode_bound {g : Nat} (h : g < 2 ^ 31) : heatCode g ≤ 43007 := by
  obtain ⟨k, hc, hm, rfl | ⟨-, hk⟩⟩ := heatCode_eq g
  · simp only [Nat.pow_zero, Nat.div_one] at hc hm
    omega
  · have h1 : 2 ^ (k + 11) < 2 ^ 31 := by omega
    have h2 : k + 11 < 31 := (Nat.pow_lt_pow_iff_right (by omega : 1 < 2)).1 h1
    omega

/-! ### The threshold of a budget (R98) -/

/-- What the threshold `r` of the codes `cs` has: the blocks above it do not pass the budget, and with those at it they meet it. -/
structure Threshold (cs : List Nat) (n : Nat) (r : Nat × Nat) : Prop where
  above : r.2 = cs.countP (fun c => decide (r.1 < c))
  within : r.2 ≤ n
  meets : n ≤ r.2 + cs.countP (fun c => decide (c = r.1))

theorem countP_above (cs : List Nat) (t : Nat) :
    cs.countP (fun c => decide (t < c)) = cs.countP (fun c => decide (t + 1 < c)) + cs.countP (fun c => decide (c = t + 1)) := by
  induction cs with
  | nil => rfl
  | cons c cs ih =>
    simp only [List.countP_cons, ih, decide_eq_true_eq]
    split <;> split <;> split <;> omega

theorem thresholdFrom_threshold {cs : List Nat} {n : Nat} (hn : n ≤ cs.length) (t : Nat) {above : Nat}
    (ha : above = cs.countP (fun c => decide (t < c))) (hw : above ≤ n) : Threshold cs n (thresholdFrom cs n t above) := by
  induction t generalizing above with
  | zero =>
    refine ⟨ha, hw, ?_⟩
    show n ≤ above + cs.countP (fun c => decide (c = 0))
    have hsplit := cs.length_eq_countP_add_countP (fun c => decide (0 < c))
    have heq : cs.countP (fun c => decide ¬(decide (0 < c)) = true) = cs.countP (fun c => decide (c = 0)) :=
      List.countP_congr (by simp)
    omega
  | succ t ih =>
    have hcount : (cs.filter (· = t + 1)).length = cs.countP (fun c => decide (c = t + 1)) := List.countP_eq_length_filter.symm
    have hstep := countP_above cs t
    simp only [thresholdFrom]
    split
    · exact ih (by omega) (by omega)
    · exact ⟨ha, hw, show n ≤ above + cs.countP (fun c => decide (c = t + 1)) by omega⟩

/-! ### The hottest of a list of blocks (R98) -/

section
variable {hc cands : List Nat} {n : Nat}

theorem hottest_perm (hc cands : List Nat) (n : Nat) : ∃ r : Nat × Nat, r = thresholdFrom (cands.map (fun b => nth hc b 0)) n 65535 0 ∧
    (hottest hc cands n).Perm (cands.filter (fun b => nth hc b 0 > r.1) ++ (cands.filter (fun b => nth hc b 0 = r.1)).take (n - r.2)) :=
  ⟨_, rfl, List.mergeSort_perm _ _⟩

theorem mem_of_mem_hottest {b : Nat} (h : b ∈ hottest hc cands n) : b ∈ cands := by
  obtain ⟨r, -, hp⟩ := hottest_perm hc cands n
  rcases List.mem_append.1 (hp.mem_iff.1 h) with h | h
  · exact (List.mem_filter.1 h).1
  · exact (List.mem_filter.1 (List.mem_of_mem_take h)).1

theorem hottest_nodup (h : cands.Nodup) : (hottest hc cands n).Nodup := by
  obtain ⟨r, -, hp⟩ := hottest_perm hc cands n
  refine hp.nodup_iff.2 (List.Nodup.append (h.filter _) ((h.filter _).sublist (List.take_sublist _ _)) ?_)
  intro b h1 h2
  have h3 := (List.mem_filter.1 h1).2
  have h4 := (List.mem_filter.1 (List.mem_of_mem_take h2)).2
  simp only [decide_eq_true_eq] at h3 h4
  omega

theorem hottest_threshold (hcode : ∀ b ∈ cands, nth hc b 0 < 2 ^ 16) (hn : n ≤ cands.length) :
    Threshold (cands.map (fun b => nth hc b 0)) n (thresholdFrom (cands.map (fun b => nth hc b 0)) n 65535 0) := by
  refine thresholdFrom_threshold (by simpa using hn) _ ?_ (Nat.zero_le n)
  refine (List.countP_eq_zero.2 fun c hc' => ?_).symm
  obtain ⟨b, hb, rfl⟩ := List.mem_map.1 hc'
  have := hcode b hb
  simp only [decide_eq_true_eq]
  omega

theorem hottest_length (hcode : ∀ b ∈ cands, nth hc b 0 < 2 ^ 16) (hn : n ≤ cands.length) : (hottest hc cands n).length = n := by
  obtain ⟨r, hr, hp⟩ := hottest_perm hc cands n
  obtain ⟨habove, hwithin, hmeets⟩ := hr ▸ hottest_threshold hcode hn
  rw [List.countP_map, List.countP_eq_length_filter] at habove hmeets
  simp only [Function.comp_def] at habove hmeets
  rw [hp.length_eq, List.length_append, List.length_take]
  simp only [gt_iff_lt]
  omega

/-- A block that the selection leaves is colder than one that it takes, or as hot and of a higher index. -/
theorem hottest_beats (hsorted : cands.Pairwise (· < ·)) {a b : Nat} (ha : a ∈ hottest hc cands n) (hb : b ∈ cands) (hnb : b ∉ hottest hc cands n) :
    nth hc b 0 < nth hc a 0 ∨ (nth hc b 0 = nth hc a 0 ∧ a < b) := by
  obtain ⟨r, -, hp⟩ := hottest_perm hc cands n
  rw [hp.mem_iff, List.mem_append, List.mem_filter, decide_eq_true_eq] at ha hnb
  obtain ⟨hcold, htie⟩ := not_or.1 hnb
  have hle : nth hc b 0 ≤ r.1 := Nat.not_lt.1 fun h => hcold ⟨hb, h⟩
  rcases ha with ⟨-, hhot⟩ | htake
  · omega
  · have hat : nth hc a 0 = r.1 := by simpa using (List.mem_filter.1 (List.mem_of_mem_take htake)).2
    rcases Nat.lt_or_eq_of_le hle with hlt | heq
    · omega
    · refine .inr ⟨by omega, ?_⟩
      have hbt : b ∈ cands.filter (fun b => nth hc b 0 = r.1) := List.mem_filter.2 ⟨hb, by simpa using heq⟩
      rw [← List.take_append_drop (n - r.2) (cands.filter _), List.mem_append] at hbt
      have hpair := hsorted.filter (fun b => decide (nth hc b 0 = r.1))
      rw [← List.take_append_drop (n - r.2) (cands.filter _), List.pairwise_append] at hpair
      exact hpair.2.2 a htake b (hbt.resolve_left htie)

end

/-! ### The sets of a tensor (R98, R100, R101) -/

/-- The wide set is taken out of the blocks selected, so both sets together are those blocks. -/
theorem settleOf_perm (pol : Policy) (hc : List Nat) : ((settleOf pol hc).1 ++ (settleOf pol hc).2).Perm
    (if pol.runMode = 3 then hottest hc (List.range pol.n) pol.budget else List.range pol.n) := by
  unfold settleOf
  dsimp only
  generalize hsel : (if pol.runMode = 3 then hottest hc (List.range pol.n) pol.budget else List.range pol.n) = sel
  generalize hwide : (if pol.wideK = 0 then ([] : List Nat) else _) = wide
  have hnodup : sel.Nodup := by
    subst hsel
    split
    · exact hottest_nodup List.nodup_range
    · exact List.nodup_range
  have hw : wide.Nodup ∧ ∀ b ∈ wide, b ∈ sel := by
    subst hwide
    split
    · simp
    · split
      · exact ⟨hnodup.filter _, fun b hb => (List.mem_filter.1 hb).1⟩
      · exact ⟨hottest_nodup (hnodup.filter _), fun b hb => (List.mem_filter.1 (mem_of_mem_hottest hb)).1⟩
  refine (List.perm_ext_iff_of_nodup (List.Nodup.append (hnodup.filter _) hw.1 fun b h1 h2 => ?_) hnodup).2 fun b => ?_
  · simp [h2] at h1
  · by_cases hb : b ∈ wide
    · simp [hb, hw.2 b hb]
    · simp [hb]

/-- Settles O30: codes by their exponent and significand, the selection by the threshold of its budget. -/
theorem heat : Obligations.Heat := by
  unfold Obligations.Heat
  refine ⟨⟨fun a b => heatCode_mono, fun g => ⟨heatValue_heatCode_le g, lt_heatValue_heatCode_succ g⟩,
    fun g hg => ⟨heatCode_bound hg, fun h => ⟨heatCode_small h, heatValue_small (Nat.le_of_lt h)⟩⟩⟩, ?_⟩
  rintro pol hc sel hmode hlen hcode hbudget rfl
  have hperm := settleOf_perm pol hc
  rw [if_pos hmode] at hperm
  have hrange : ∀ b ∈ List.range pol.n, nth hc b 0 < 2 ^ 16 := fun b hb => by
    have hb' : b < hc.length := by simpa [hlen] using hb
    rw [nth, getD_eq hc 0 b hb']
    exact hcode _ (List.getElem_mem hb')
  refine ⟨?_, hperm.nodup_iff.2 (hottest_nodup List.nodup_range), fun a ha => ?_⟩
  · rw [hperm.length_eq]
    exact hottest_length hrange (by simpa using hbudget)
  · have ha' := hperm.mem_iff.1 ha
    refine ⟨List.mem_range.1 (mem_of_mem_hottest ha'), fun b hb hnb => ?_⟩
    exact hottest_beats List.pairwise_lt_range ha' (List.mem_range.2 hb) (fun h => hnb (hperm.mem_iff.2 h))

end Sys2Proof.Machine

/-! Group formation, and the owner's doorbells and disables (R120, R121, R189 to R192, R477, Tables 4-2 and 5-11). -/

namespace Sys2Proof.Machine

/-! ### Group queues (R120, Table 4-2) -/

section
variable {s : State} {m : Master} {g : Nat}

theorem State.groupQ_onGroup (s : State) (g k : Nat) (f : GroupQ → GroupQ) :
    (s.onGroup g f).groupQ k = if k = g then f (s.groupQ g) else s.groupQ k := Tab.get_put _ _ _ _ _

theorem exec_gqCtlArm (hm : s.mayCore m false = true) : exec (.gqCtlArm m g) s = answer s (s.armGroup g) :=
  congrArg (answer s) (if_pos hm)

theorem exec_gqCtlDisarm (hm : s.mayCore m false = true) : exec (.gqCtlDisarm m g) s = answer s (s.disarmGroup g) :=
  congrArg (answer s) (if_pos hm)

theorem State.armGroup_idle (hr : s.power.st = .ready) (hst : (s.groupQ g).st = 0) (hg : g < 256) : s.armGroup g =
    s.onGroup g (fun q => { q with st := 1, refuse := 0, done := 0, armTick := s.belay.count }) := if_pos ⟨hr, hst, hg⟩

theorem State.disarmGroup_formed (hr : s.power.st = .ready ∨ s.power.st = .held) (hst : (s.groupQ g).st = 2 ∨ (s.groupQ g).st = 3)
    (hg : g < 256) : s.disarmGroup g = s.onGroup g (fun q => { q with st := 0 }) := if_pos ⟨hr, hst, hg⟩

theorem exec_gqCtl_stays_of_arm (hi : Inv s) (h : s.mayCore m false = false ∨ s.power.st ≠ .ready ∨ (s.groupQ g).st ≠ 0) :
    exec (.gqCtlArm m g) s = .next s := by
  rcases Bool.eq_false_or_eq_true (s.mayCore m false) with hm | hm
  · have hno : ¬(s.power.st = .ready ∧ (s.groupQ g).st = 0 ∧ g < 256) := fun ⟨hr, hst, _⟩ => by simp [hm, hr, hst] at h
    exact (exec_gqCtlArm hm).trans (answer_kept hi (if_neg hno))
  · exact (answer_unless hm).trans (answer_self s hi)

theorem exec_gqCtl_stays_of_disarm (hi : Inv s) (h : s.mayCore m false = false ∨ ((s.groupQ g).st ≠ 2 ∧ (s.groupQ g).st ≠ 3)) :
    exec (.gqCtlDisarm m g) s = .next s := by
  rcases Bool.eq_false_or_eq_true (s.mayCore m false) with hm | hm
  · have hno : ¬((s.power.st = .ready ∨ s.power.st = .held) ∧ ((s.groupQ g).st = 2 ∨ (s.groupQ g).st = 3) ∧ g < 256) :=
      fun ⟨_, hst, _⟩ => by rcases hst with hst | hst <;> simp [hm, hst] at h
    exact (exec_gqCtlDisarm hm).trans (answer_kept hi (if_neg hno))
  · exact (answer_unless hm).trans (answer_self s hi)

/-! ### The formation exchange (R121) -/

/-- A command that refuses a group leaves it REFUSED and the engine HELD (R121, R431). -/
theorem groupRefused_of_answer {c : Instr} {refuse qual b : Nat} (h : exec c s = answer s (s.refuseGroup g refuse qual b)) :
    ∃ t, exec c s = .next t ∧ GroupRefused s g refuse qual b t := by
  refine next_after c s _ _ h fun x hx => ?_
  have hgroups : ∀ k, x.groupQ k = if k = g then { s.groupQ g with st := 3, refuse := refuse } else s.groupQ k := fun k => by
    unfold State.groupQ
    rw [hx.groups]
    simp only [State.refuseGroup, State.dropRequests, State.hold, State.stopRun_groups, State.raise_groups]
    exact State.groupQ_onGroup s g k _
  refine ⟨by simp [hgroups], ?_, ?_, ?_, ?_, ?_, ?_, fun k hk => by simp [hgroups, hk]⟩
  · rw [hx.power]; rfl
  · rw [hx.power]; rfl
  · rw [hx.seq]; rfl
  · rw [hx.seq]; rfl
  · rw [hx.req]; rfl
  · rw [hx.cairn]
    exact State.raise_cairn _ _ _ _ _ _

/-- The maxima of an exchange with this member's own values (R121). -/
def State.formationMax (s : State) (g : Nat) (mx : List Nat) (i : Nat) : Nat := Nat.max (nth mx i 0) (nth (s.formationValues g) i 0)

variable {mx : List Nat} (hst : (s.groupQ g).st = 1) (hup : s.coreUp = true)
include hst hup

theorem State.formed_eq : s.formed g mx =
    if !(agreed (s.formationMax g mx 0) (s.formationMax g mx 2) && agreed (s.formationMax g mx 1) (s.formationMax g mx 3)) then
      s.refuseGroup g 1 0 0
    else if !agreed (s.formationMax g mx 4) (s.formationMax g mx 5) then s.refuseGroup g 2 0 0
    else s.onGroup g (fun q => { q with st := 2 }) := if_neg (by simp [hst, hup])

theorem State.formationTimeout_due (h : (s.groupQ g).armTick + 2500000 ≤ s.belay.count) : s.formationTimeout g = s.refuseGroup g 3 8 1 :=
  if_pos ⟨hst, hup, h⟩

omit hst hup in
theorem State.formationTimeout_stays (h : (s.groupQ g).st ≠ 1 ∨ s.belay.count < (s.groupQ g).armTick + 2500000) : s.formationTimeout g = s :=
  if_neg fun ⟨hst, _, ht⟩ => h.elim (fun hn => hn hst) (Nat.not_lt.2 ht)

end

/-! ### The dynamic pin queue (R189 to R191, Table 5-11) -/

section
variable {s : State} {m : Master}

theorem exec_glbDpqDb (hm : s.mayCore m false = true) (tail : Word) : exec (.glbDpqDb m tail) s = answer s (s.dpqDoorbell tail.toNat) :=
  congrArg (answer s) (if_pos hm)

theorem State.dpqDoorbell_waits (h : s.power.st ≠ .running) (tail : Nat) : s.dpqDoorbell tail = s.setReg 0xA0 tail :=
  if_neg (by simp [State.isRunning, h])

/-- An entry that can be read, of reason `reason`: the outcome in the status ring, and the head one further. -/
theorem State.takeDynamic_read {u : State} {i slot reason : Nat} {bytes : List Byte} {p : Pin} (hi : i = u.reg 0xB0) (hslot : slot = i % u.dpqSize)
    (hbytes : bytes = u.hbmRead (u.reg (2 ^ 24 + 0xA8) * 4096 + 16 * slot) 16)
    (hgood : u.hbmFaulty (u.reg (2 ^ 24 + 0xA8) * 4096 + 16 * slot) 16 = false) (hp : p = Pin.ofNat (leNat bytes)) (hreason : reason = u.dynReason p) :
    u.takeDynamic = ((if reason = 0 then { u with
        seq := { u.seq with dyn := u.seq.dyn ++ [p], dynAccepted := u.seq.dynAccepted + 1 }
        srec := { u.srec with dpins := u.srec.dpins ++ [bytes] } } else u : State).hbmWrite (u.reg (2 ^ 24 + 0xAC) * 4096 + 8 * slot)
          (leBytes 8 (i + reason * 2 ^ 32))).setReg 0xB0 (i + 1) := by
  subst hi hslot hbytes hp hreason
  unfold State.takeDynamic
  simp only [hgood, Bool.false_eq_true, if_false]
  split <;> rfl

/-- A ring holds at least 16 entries. -/
theorem State.dpqSize_ge (s : State) : 16 ≤ s.dpqSize := by
  unfold State.dpqSize
  rw [Nat.pow_add]
  exact Nat.le_mul_of_pos_left _ (by positivity)

/-- The doorbell of one new entry takes that entry and no other. -/
theorem State.dpqDoorbell_one {i : Nat} {tail : Word} {x : State} (hr : s.power.st = .running) (hi : i = s.reg 0xB0) (hn : i + 1 = tail.toNat)
    (hx : (s.setReg 0xA0 tail.toNat).takeDynamic = x.setReg 0xB0 (i + 1)) (hregs : x.regs = (s.setReg 0xA0 tail.toNat).regs) :
    s.dpqDoorbell tail.toNat = x.setReg 0xB0 (i + 1) := by
  have htail : tail.toNat % 2 ^ 32 = tail.toNat := Nat.mod_eq_of_lt tail.isLt
  have hA0 : x.reg 0xA0 = tail.toNat := by
    have h : x.reg 0xA0 = (s.setReg 0xA0 tail.toNat).reg 0xA0 := by unfold State.reg; rw [hregs]
    rw [h, State.reg_setReg, if_pos rfl, htail]
  obtain ⟨n, hsize⟩ : ∃ n, s.dpqSize = n + 2 := ⟨s.dpqSize - 2, by have := s.dpqSize_ge; omega⟩
  have hsize' : (s.setReg 0xA0 tail.toNat).dpqSize = n + 2 := by
    rw [← hsize]
    unfold State.dpqSize
    rw [State.reg_setReg, if_neg (by decide)]
  have hnew : ¬((s.setReg 0xA0 tail.toNat).reg 0xB0 = (s.setReg 0xA0 tail.toNat).reg 0xA0) := by
    rw [State.reg_setReg, State.reg_setReg, if_neg (by decide), if_pos rfl, htail]
    omega
  have hend : (x.setReg 0xB0 (i + 1)).reg 0xB0 = (x.setReg 0xB0 (i + 1)).reg 0xA0 := by
    rw [State.reg_setReg, State.reg_setReg, if_pos rfl, if_neg (by decide), hA0, hn, htail]
  have hrun : (s.setReg 0xA0 tail.toNat).isRunning = true := by simp [State.isRunning, hr]
  simp only [State.dpqDoorbell, hrun, if_true, hsize', State.takeDynamics, if_neg hnew, hx, if_pos hend]

/-- A pin that Table 5-11's first check lets pass is answered WINDOW in replay mode, while the queue is disabled, and outside every window. -/
theorem State.dynReason_window {u : State} {p : Pin} (hgood : p.dynamicGood = true) (hdash : p.dashes = true) (henc : p.encodings = true)
    (h : u.req.replay = true ∨ flag (u.reg 0xB4) 12 = true ∨ u.dynWindow p = none) : u.dynReason p = 2 := by
  unfold State.dynReason
  rw [if_neg (by simp [hgood, hdash, henc])]
  split
  · rfl
  · next hno =>
    have hnone : u.dynWindow p = none := by
      rcases h with h | h | h
      · exact absurd (.inl h) hno
      · exact absurd (.inr h) hno
      · exact h
    rw [hnone]

/-- A pin of a window that comes less than 256 ticks ahead is answered LATE. -/
theorem State.dynReason_late {u : State} {p : Pin} {w : DynWin} (hgood : p.dynamicGood = true) (hdash : p.dashes = true) (henc : p.encodings = true)
    (hp : u.req.replay = false) (hd : flag (u.reg 0xB4) 12 = false) (hw : u.dynWindow p = some w) (hv : u.voidWindow w = false)
    (h : u.seq.origin + p.tick < u.belay.count + 256) : u.dynReason p = 3 := by
  unfold State.dynReason
  rw [if_neg (by simp [hgood, hdash, henc]), if_neg (by simp [hp, hd]), hw]
  dsimp only
  rw [hv, if_neg Bool.false_ne_true]
  exact if_pos h

/-! ### The other doorbells and disables (R192, R477) -/

theorem exec_glbStepDb (hm : s.mayCore m false = true) : exec (.glbStepDb m) s = answer s s.stepDoorbell := congrArg (answer s) (if_pos hm)

theorem exec_glbDpqCtlDisable (hm : s.mayCore m false = true) (d : Bool) : exec (.glbDpqCtlDisable m d) s = answer s (s.dpqDisable d) :=
  congrArg (answer s) (if_pos hm)

theorem State.onSlice_onSlice (s : State) (i : Nat) (f g : Slice → Slice) : (s.onSlice i f).onSlice i g = s.onSlice i (g ∘ f) := by
  simp [State.onSlice, List.modify_modify_eq]

theorem State.writeCodeCtl_eq {ctx : Nat} (hctx : ctx < 128) (sl : Nat) (d : Bool) : s.writeCodeCtl sl ctx d = s.onSlice sl (fun x => { x with
    ctxSel := ctx
    ctxs := x.ctxs.put ctx (if d then { x.ctxs.get CtxSt.reset ctx with disable := true, enableDue := false }
      else { x.ctxs.get CtxSt.reset ctx with enableDue := (x.ctxs.get CtxSt.reset ctx).disable }) }) := by
  unfold State.writeCodeCtl State.onCtx
  rw [Nat.mod_eq_of_lt hctx, State.onSlice_onSlice]
  rfl

end

/-- Settles O52: the rows of GQ_CTL and the exchange by their guards, the doorbell of one entry by the two turns of its loop. -/
theorem groupsAndDoorbells : Obligations.GroupsAndDoorbells := by
  unfold Obligations.GroupsAndDoorbells
  refine ⟨?_, ?_⟩
  · rintro s m g mx w c v hg rfl rfl rfl
    refine ⟨fun hm => ⟨fun hr hst => ?_, fun hr hst => ?_⟩, fun h hi => exec_gqCtl_stays_of_arm hi h, fun h hi => exec_gqCtl_stays_of_disarm hi h,
      fun hst hup => ?_, fun hst hi => ?_⟩
    · exact (exec_gqCtlArm hm).trans (congrArg (answer s) (State.armGroup_idle hr hst hg))
    · exact (exec_gqCtlDisarm hm).trans (congrArg (answer s) (State.disarmGroup_formed hr hst hg))
    · have hformed := State.formed_eq (mx := mx) hst hup
      refine ⟨fun h0 h1 h4 => ?_, fun h => groupRefused_of_answer (congrArg (answer s) (hformed.trans (if_pos ?_))),
        fun h0 h1 h4 => groupRefused_of_answer (congrArg (answer s) (hformed.trans ?_)),
        fun ht => groupRefused_of_answer (congrArg (answer s) (State.formationTimeout_due hst hup ht)),
        fun ht hi => answer_kept hi (State.formationTimeout_stays (.inr ht))⟩
      · have h0' : agreed (s.formationMax g mx 0) (s.formationMax g mx 2) = true := beq_iff_eq.2 h0
        have h1' : agreed (s.formationMax g mx 1) (s.formationMax g mx 3) = true := beq_iff_eq.2 h1
        have h4' : agreed (s.formationMax g mx 4) (s.formationMax g mx 5) = true := beq_iff_eq.2 h4
        simp only [h0', h1', h4', Bool.and_self, Bool.not_true, Bool.false_eq_true, if_false] at hformed
        exact congrArg (answer s) hformed
      · rcases h with h | h
        · have h' : agreed (s.formationMax g mx 0) (s.formationMax g mx 2) = false := beq_eq_false_iff_ne.2 h
          simp [h']
        · have h' : agreed (s.formationMax g mx 1) (s.formationMax g mx 3) = false := beq_eq_false_iff_ne.2 h
          simp [h']
      · have h0' : agreed (s.formationMax g mx 0) (s.formationMax g mx 2) = true := beq_iff_eq.2 h0
        have h1' : agreed (s.formationMax g mx 1) (s.formationMax g mx 3) = true := beq_iff_eq.2 h1
        have h4' : agreed (s.formationMax g mx 4) (s.formationMax g mx 5) = false := beq_eq_false_iff_ne.2 h4
        simp [h0', h1', h4']
    · exact ⟨answer_kept hi (if_pos (.inl hst)), answer_kept hi (State.formationTimeout_stays (.inl hst))⟩
  · intro s m hm
    refine ⟨fun hlt hw => ?_, fun hge => ?_, fun tail hst => ?_, ?_, ⟨?_, ?_⟩, fun sl ctx d hsl hctx => ?_, fun k d hk => ?_⟩
    · refine (exec_glbStepDb hm).trans (congrArg (answer s) ((if_neg (Nat.not_le.2 hlt)).trans ?_))
      simp [hw]
    · exact (exec_glbStepDb hm).trans (congrArg (answer s) (if_pos hge))
    · exact (exec_glbDpqDb hm tail).trans (congrArg (answer s) (State.dpqDoorbell_waits hst tail.toNat))
    · intro tail i slot bytes p u v reason hr hi hn hslot hu hbytes hgood hp hreason hv
      subst hu
      have hB0 : (s.setReg 0xA0 tail.toNat).reg 0xB0 = s.reg 0xB0 := by rw [State.reg_setReg, if_neg (by decide)]
      have hA4 : (s.setReg 0xA0 tail.toNat).reg (2 ^ 24 + 0xA4) = s.reg (2 ^ 24 + 0xA4) := by rw [State.reg_setReg, if_neg (by decide)]
      have hA8 : (s.setReg 0xA0 tail.toNat).reg (2 ^ 24 + 0xA8) = s.reg (2 ^ 24 + 0xA8) := by rw [State.reg_setReg, if_neg (by decide)]
      have hAC : (s.setReg 0xA0 tail.toNat).reg (2 ^ 24 + 0xAC) = s.reg (2 ^ 24 + 0xAC) := by rw [State.reg_setReg, if_neg (by decide)]
      have hB4 : (s.setReg 0xA0 tail.toNat).reg 0xB4 = s.reg 0xB4 := by rw [State.reg_setReg, if_neg (by decide)]
      have hsize : (s.setReg 0xA0 tail.toNat).dpqSize = s.dpqSize := by unfold State.dpqSize; rw [hA4]
      have htake := State.takeDynamic_read (u := s.setReg 0xA0 tail.toNat) (hi.trans hB0.symm) (hslot.trans (by rw [hsize]))
        (hbytes.trans (by rw [hA8]; rfl)) (by rw [hA8]; exact hgood) hp hreason
      rw [← hv, hAC] at htake
      refine ⟨?_, fun hg hd he => ⟨fun h => ?_, fun w hp' hd' hw hvoid hlate => ?_⟩⟩
      · refine (exec_glbDpqDb hm tail).trans (congrArg (answer s) (State.dpqDoorbell_one hr hi hn htake ?_))
        rw [State.hbmWrite_regs, hv]
        split <;> rfl
      · rw [hreason]
        refine State.dynReason_window hg hd he ?_
        rw [hB4]
        exact h
      · rw [hreason]
        exact State.dynReason_late (w := w) hg hd he hp' (by rw [hB4]; exact hd') hw hvoid hlate
    · exact (exec_glbDpqCtlDisable hm true).trans (congrArg (answer s) (by simp [State.dpqDisable, ofBool]))
    · exact (exec_glbDpqCtlDisable hm false).trans (congrArg (answer s) (by simp [State.dpqDisable, ofBool]))
    · exact congrArg (answer s) ((if_pos ⟨hm, hsl⟩).trans (State.writeCodeCtl_eq hctx sl d))
    · exact congrArg (answer s) (if_pos ⟨hm, hk⟩)

end Sys2Proof.Machine

/-! Cutoffs of pitches and token windows, and pins of step gate mode (R149, R154, R183, R193, R259, R261). -/

namespace Sys2Proof.Machine

/-! ### What a cutoff leaves -/

/-- What a cutoff reads, and the pitches closed: no operation on the way of a cutoff changes any of it but the list of its own kind. -/
structure CutFrame where
  img : ImgSt
  coord : Nat
  variant : Nat
  step : Nat
  closed : List Nat
  pclosed : List Nat

/-- What a cutoff finds of it. -/
def State.cutFrame (s : State) : CutFrame := ⟨s.img, s.coord, s.seq.variant, s.seq.step, s.seq.closed, s.seq.pclosed⟩

section
variable (s : State)

@[simp] theorem State.onSlice_cutFrame (i : Nat) (f : Slice → Slice) : (s.onSlice i f).cutFrame = s.cutFrame := rfl

@[simp] theorem State.onOpen_cutFrame (sl p k : Nat) (f : Opening → Opening) : (s.onOpen sl p k f).cutFrame = s.cutFrame := rfl

@[simp] theorem State.onGroup_cutFrame (g : Nat) (f : GroupQ → GroupQ) : (s.onGroup g f).cutFrame = s.cutFrame := rfl

@[simp] theorem State.raise_cutFrame (c src q a b : Nat) : (s.raise c src q a b).cutFrame = s.cutFrame := by simp [State.cutFrame, State.coord]

@[simp] theorem State.bump_cutFrame (off u n : Nat) : (s.bump off u n).cutFrame = s.cutFrame := by simp [State.cutFrame, State.coord]

@[simp] theorem State.dev_cutFrame (d : Dev) : (s.dev d).cutFrame = s.cutFrame := by simp [State.cutFrame, State.coord]

@[simp] theorem State.onRec_cutFrame (f : StepRec → StepRec) : (s.onRec f).cutFrame = s.cutFrame := rfl

@[simp] theorem State.slotCrc_cutFrame (p k r c : Nat) (b : Bool) : (s.slotCrc p k r c b).cutFrame = s.cutFrame := rfl

@[simp] theorem State.setBuf_cutFrame (sl u : Nat) (st : BufSt) (c : Chunk) : (s.setBuf sl u st c).cutFrame = s.cutFrame := by
  unfold State.setBuf; split <;> rfl

@[simp] theorem State.missSlot_cutFrame (sl p k r : Nat) : (s.missSlot sl p k r).cutFrame = s.cutFrame := by
  unfold State.missSlot; dsimp only; split <;> rfl

@[simp] theorem State.slotDev_cutFrame (sl c d p k r v : Nat) : (s.slotDev sl c d p k r v).cutFrame = s.cutFrame := by
  simp only [State.slotDev, State.dev_cutFrame, apply_ite State.cutFrame, State.missSlot_cutFrame, ite_self]

@[simp] theorem State.saturated_cutFrame (sl row d p k n : Nat) : (s.saturated sl row d p k n).cutFrame = s.cutFrame := by
  simp only [State.saturated, apply_ite State.cutFrame, State.dev_cutFrame, State.bump_cutFrame, ite_self]

@[simp] theorem State.judge_cutFrame (sl u : Nat) : (s.judge sl u).cutFrame = s.cutFrame := by
  unfold State.judge
  dsimp only
  split
  · simp only [apply_ite State.cutFrame, State.onSlice_cutFrame, State.setBuf_cutFrame, ite_self]
  · rfl

@[simp] theorem State.gap_cutFrame (sl p k : Nat) : (s.gap sl p k).cutFrame = s.cutFrame := by
  unfold State.gap
  split
  · rfl
  · simp only [State.raise_cutFrame, State.dev_cutFrame]
    rfl

@[simp] theorem State.prusikAsk_cutFrame (r : Pitch) (p : Nat) (e : PrusikEnt) : (s.prusikAsk r p e).cutFrame = s.cutFrame := by
  unfold State.prusikAsk; split <;> rfl

@[simp] theorem State.settleSlot_cutFrame (sl : Nat) (o : Opening) (x : InSlot) : (s.settleSlot sl o x).1.cutFrame = s.cutFrame := by
  unfold State.settleSlot
  dsimp only
  split
  · simp only [apply_ite State.cutFrame, State.slotDev_cutFrame, State.slotCrc_cutFrame, ite_self]
  · simp
  · simp

@[simp] theorem State.formChunk_cutFrame (sl : Nat) (o : Opening) (ins : List Input) (m : Bool) : (s.formChunk sl o ins m).1.cutFrame = s.cutFrame := by
  have hdrop (l : List Input) : (l.foldl (fun s i => (s.slotDev sl 0x0C 0 o.pitch o.chunk i.rank 0).slotCrc o.pitch o.chunk i.rank 0 false) s).cutFrame =
      s.cutFrame := foldl_keeps State.cutFrame _ (fun s i => by simp) l s
  simp only [State.formChunk, apply_ite State.cutFrame, State.slotDev_cutFrame, State.raise_cutFrame, State.saturated_cutFrame, hdrop, ite_self]

@[simp] theorem State.finalise_cutFrame (sl : Nat) (o : Opening) : (s.finalise sl o).cutFrame = s.cutFrame := by
  have hslots (l : List InSlot) (a : State × List Input × Bool) : (l.foldl (fun (a : State × List Input × Bool) x =>
      ((a.1.settleSlot sl o x).1, a.2.1 ++ (a.1.settleSlot sl o x).2.1, a.2.2 || (a.1.settleSlot sl o x).2.2)) a).1.cutFrame = a.1.cutFrame := by
    refine foldl_keeps (fun a : State × List Input × Bool => a.1.cutFrame) _ (fun a x => ?_) l a
    exact a.1.settleSlot_cutFrame sl o x
  unfold State.finalise
  dsimp only
  split <;> simp only [State.setBuf_cutFrame, State.onOpen_cutFrame, State.formChunk_cutFrame, hslots]

@[simp] theorem State.finaliseWhole_cutFrame (sl : Nat) (o : Opening) (x : InSlot) : (s.finaliseWhole sl o x).cutFrame = s.cutFrame := by
  unfold State.finaliseWhole; dsimp only; split <;> simp

@[simp] theorem State.cutWhole_cutFrame (sl : Nat) (o : Opening) : (s.cutWhole sl o).cutFrame = s.cutFrame := by
  unfold State.cutWhole
  dsimp only
  split
  · simp only [apply_ite State.cutFrame, State.gap_cutFrame, State.judge_cutFrame, State.missSlot_cutFrame, State.onOpen_cutFrame,
      State.prusikAsk_cutFrame, ite_self]
  · simp

/-- The cairns of a pitch are of one slice after the other; they leave the sequencers and the image. -/
theorem State.pitchCairns_keeps {β : Type} (g : State → β) (hg : ∀ (u : State) c src q a b, g (u.raise c src q a b) = g u) (p : Nat) :
    g (s.pitchCairns p) = g s := by
  refine foldl_keeps g _ (fun s sl => ?_) _ _
  simp only [apply_ite g, hg, ite_self]

/-! ### Picots at a cutoff -/

@[simp] theorem State.onPicot_cutFrame (p : Nat) (f : PicotSt → PicotSt) : (s.onPicot p f).cutFrame = s.cutFrame := rfl

@[simp] theorem State.showPicot_cutFrame (p : Nat) : (s.showPicot p).cutFrame = s.cutFrame := by
  unfold State.showPicot; split <;> simp

@[simp] theorem State.recordMax_cutFrame (p : PicotSt) : (s.recordMax p).cutFrame = s.cutFrame := by
  unfold State.recordMax
  split
  · rfl
  · refine foldl_keeps State.cutFrame _ (fun s i => ?_) _ _
    dsimp only
    split <;> rfl

@[simp] theorem State.takeDecision_cutFrame (d : Decision) : (s.takeDecision d).cutFrame = s.cutFrame := by
  have hspikes (u : State) (l : List Nat) : ({ u with spikes := l } : State).cutFrame = u.cutFrame := rfl
  have hreg (u : State) (off v : Nat) : (u.setReg off v).cutFrame = u.cutFrame := rfl
  simp only [State.takeDecision, apply_ite State.cutFrame, State.raise_cutFrame, State.dev_cutFrame, State.bump_cutFrame, hreg, hspikes,
    State.onRec_cutFrame, ite_self]

@[simp] theorem State.decideIfDue_cutFrame : s.decideIfDue.cutFrame = s.cutFrame := by
  simp only [State.decideIfDue, apply_ite State.cutFrame, State.takeDecision_cutFrame, ite_self]

@[simp] theorem State.endPicot_cutFrame (p : Nat) : (s.endPicot p).cutFrame = s.cutFrame := by
  unfold State.endPicot
  split
  · rfl
  · simp only [apply_ite State.cutFrame, State.decideIfDue_cutFrame, State.recordMax_cutFrame, State.showPicot_cutFrame, State.onPicot_cutFrame,
      ite_self]

@[simp] theorem State.judgePicot_cutFrame (p upto : Nat) : (s.judgePicot p upto).cutFrame = s.cutFrame := by
  unfold State.judgePicot
  split
  · rfl
  · exact foldl_keeps State.cutFrame _ (fun s e => State.slotDev_cutFrame _ _ _ _ _ _ _ _) _ _

@[simp] theorem State.closePicot_cutFrame (p : Nat) : (s.closePicot p).cutFrame = s.cutFrame := by
  unfold State.closePicot
  split
  · rfl
  · simp only [apply_ite State.cutFrame, State.endPicot_cutFrame, State.judgePicot_cutFrame, ite_self]

@[simp] theorem State.loseClipsOf_cutFrame (gone : Nat → Bool) : (s.loseClipsOf gone).cutFrame = s.cutFrame := by
  unfold State.loseClipsOf
  split
  · rfl
  · refine (State.decideIfDue_cutFrame _).trans (foldl_keeps State.cutFrame _ (fun s e => ?_) _ _)
    split <;> rfl

/-! ### Gaps stay -/

@[simp] theorem State.setBuf_gaps (sl u : Nat) (st : BufSt) (c : Chunk) : (s.setBuf sl u st c).seq.gaps = s.seq.gaps := by
  unfold State.setBuf; split <;> rfl

@[simp] theorem State.judge_gaps (sl u : Nat) : (s.judge sl u).seq.gaps = s.seq.gaps := by
  unfold State.judge
  dsimp only
  split
  · split
    · exact State.setBuf_gaps _ _ _ _ _
    · rfl
  · rfl

variable {s}

theorem State.mem_gap_self (sl p k : Nat) : (p, k) ∈ (s.gap sl p k).seq.gaps := by
  unfold State.gap
  split
  · next h => simpa using h
  · simp

theorem State.mem_gap {g : Nat × Nat} (h : g ∈ s.seq.gaps) (sl p k : Nat) : g ∈ (s.gap sl p k).seq.gaps := by
  unfold State.gap
  split
  · exact h
  · simp [h]

theorem State.mem_cutWhole {g : Nat × Nat} (h : g ∈ s.seq.gaps) (sl : Nat) (o : Opening) : g ∈ (s.cutWhole sl o).seq.gaps := by
  have hjudged : g ∈ ((s.judge sl o.buf).gap sl o.pitch o.chunk).seq.gaps := State.mem_gap (by simpa using h) _ _ _
  have hask (r : Pitch) (e : PrusikEnt) : (s.prusikAsk r o.pitch e).seq.gaps = s.seq.gaps := by unfold State.prusikAsk; split <;> rfl
  unfold State.cutWhole
  dsimp only
  split
  · split
    · exact hjudged
    · unfold State.missSlot
      dsimp only
      split <;> exact (hask _ _).symm ▸ h
  · exact hjudged

/-! ### The cutoff of a pitch (R154, R183) -/

/-- A chunk that no input came for, and no prusik source is asked for: at its cutoff it is a gap (R154). -/
theorem State.mem_cutWhole_self {u : State} (hu : u.cutFrame = s.cutFrame) {sl : Nat} {o : Opening}
    (h : s.pricking.prusikAt (s.pricking.pitchAt o.pitch) o.chunk ((s.sources (s.pricking.pitchAt o.pitch) o.chunk).headD 0) = none) :
    (o.pitch, o.chunk) ∈ (u.cutWhole sl o).seq.gaps := by
  have himg : u.image = s.image := congrArg (fun f => f.img.run.getD default) hu
  have hpricking : u.pricking = s.pricking := by
    have hvar : u.seq.variant = s.seq.variant := congrArg CutFrame.variant hu
    rw [State.pricking, State.pricking, himg, hvar]
  have hsources (r : Pitch) (k : Nat) : u.sources r k = s.sources r k := by
    have hcoord : u.coord = s.coord := congrArg CutFrame.coord hu
    rw [State.sources, State.sources, himg, hcoord]
  rw [← hpricking, ← hsources] at h
  simp only [State.cutWhole, h]
  exact State.mem_gap_self _ _ _

/-- A chunk of a pitch at the pitch's cutoff: where none has come it is cut. -/
def State.cutOpening (s : State) (e : Nat × Opening) : State := if e.2.inputs = [] ∧ !e.2.final then s.cutWhole e.1 e.2 else s

@[simp] theorem State.cutOpening_cutFrame (s : State) (e : Nat × Opening) : (s.cutOpening e).cutFrame = s.cutFrame := by
  simp only [State.cutOpening, apply_ite State.cutFrame, State.cutWhole_cutFrame, ite_self]

theorem State.mem_cutOpening {g : Nat × Nat} (h : g ∈ s.seq.gaps) (e : Nat × Opening) : g ∈ (s.cutOpening e).seq.gaps := by
  unfold State.cutOpening
  split
  · exact State.mem_cutWhole h _ _
  · exact h

/-- The chunks of a pitch cut one after the other: what was a gap is one, and each that is cut becomes one. -/
theorem State.mem_cutOpenings {l : List (Nat × Opening)} {u : State} (hu : u.cutFrame = s.cutFrame) {g : Nat × Nat}
    (h : g ∈ u.seq.gaps ∨ ∃ e ∈ l, e.2.inputs = [] ∧ e.2.final = false ∧ g = (e.2.pitch, e.2.chunk) ∧
      s.pricking.prusikAt (s.pricking.pitchAt e.2.pitch) e.2.chunk ((s.sources (s.pricking.pitchAt e.2.pitch) e.2.chunk).headD 0) = none) :
    g ∈ (l.foldl State.cutOpening u).seq.gaps := by
  induction l generalizing u with
  | nil => simpa using h
  | cons e l ih =>
    refine ih ((State.cutOpening_cutFrame u e).trans hu) ?_
    rcases h with h | ⟨y, hy, hin, hfin, hg, hp⟩
    · exact .inl (State.mem_cutOpening h e)
    · rcases List.mem_cons.1 hy with rfl | hy
      · refine .inl ?_
        rw [State.cutOpening, if_pos ⟨hin, by simp [hfin]⟩, hg]
        exact State.mem_cutWhole_self hu hp
      · exact .inr ⟨y, hy, hin, hfin, hg, hp⟩

/-- The state once a pitch is noted as closed, before its chunks are judged. -/
def State.cutNoted (s : State) (p : Nat) : State :=
  State.onGroup { s with seq := { s.seq with
      closed := s.seq.closed ++ [p], asm := s.seq.asm.filter (fun a => !(a.pitch == p && decide (a.type ≤ 1))) } }
    (s.pricking.pitchAt p).group (fun q => { q with pitch := p })

theorem State.cutPitch_due {p : Nat} (h : s.cutoffDue p = true) : ∃ w, (s.cutPitch p = w ∨ s.cutPitch p = w.pitchCairns p) ∧
    w.cutFrame = (s.cutNoted p).cutFrame ∧
    ((s.pricking.pitchAt p).kind = 1 ∨ (s.pricking.pitchAt p).kind = 4 → w = ((s.cutNoted p).openings p).foldl State.cutOpening (s.cutNoted p)) := by
  have hdue : (!s.cutoffDue p) = false := by simp [h]
  simp only [State.cutPitch, hdue, Bool.false_eq_true, if_false]
  refine ⟨_, (ite_eq_or_eq _ _ _).symm, ?_, fun hk => if_pos hk⟩
  split
  · exact foldl_keeps State.cutFrame _ State.cutOpening_cutFrame _ _
  · split
    · simp only [State.loseClipsOf_cutFrame, State.closePicot_cutFrame]
      rfl
    · rfl

theorem exec_pitchCutoff {p : Nat} (h : s.cutoffDue p = true) : ∃ t, exec (.pitchCutoff p) s = .next t ∧ t.seq.closed = s.seq.closed ++ [p] ∧
    ((s.pricking.pitchAt p).kind = 1 ∨ (s.pricking.pitchAt p).kind = 4 → ∀ sl < 8, ∀ o ∈ (s.slice sl).opens, o.pitch = p →
      o.step = s.seq.step → o.void = false → o.inputs = [] → o.final = false →
      s.pricking.prusikAt (s.pricking.pitchAt p) o.chunk ((s.sources (s.pricking.pitchAt p) o.chunk).headD 0) = none → (p, o.chunk) ∈ t.seq.gaps) := by
  obtain ⟨w, hw, hframe, hwhole⟩ := State.cutPitch_due h
  have hseq : (s.cutPitch p).seq = w.seq := by
    rcases hw with hw | hw
    · rw [hw]
    · rw [hw]
      exact State.pitchCairns_keeps w State.seq (fun u c src q a b => State.raise_seq u c src q a b) p
  refine next_after _ s (s.cutPitch p) _ rfl fun t ht => ⟨?_, ?_⟩
  · rw [ht.seq]
    show (s.cutPitch p).seq.closed = _
    rw [hseq]
    exact congrArg CutFrame.closed hframe
  · rintro hk sl hsl o ho rfl hstep hvoid hin hfin hp
    rw [ht.seq]
    show (o.pitch, o.chunk) ∈ (s.cutPitch o.pitch).seq.gaps
    rw [hseq, hwhole hk]
    refine State.mem_cutOpenings (s := s.cutNoted o.pitch) rfl (.inr ⟨(sl, o), ?_, hin, hfin, rfl, hp⟩)
    refine List.mem_flatMap.2 ⟨sl, List.mem_range.2 hsl, List.mem_map.2 ⟨o, List.mem_filter.2 ⟨ho, ?_⟩, rfl⟩⟩
    simp only [hvoid, Bool.not_false, and_true, true_and, decide_eq_true_eq]
    exact hstep

/-! ### The prusik cutoff (R149) -/

theorem exec_prusikCutoff {p : Nat} (h : s.prusikDue p = true) :
    ∃ t, exec (.prusikCutoff p) s = .next t ∧ t.seq.pclosed = s.seq.pclosed ++ [p] := by
  refine next_after _ s (s.cutPrusik p) _ rfl fun t ht => ?_
  have hdue : (!s.prusikDue p) = false := by simp [h]
  have hframe : (s.cutPrusik p).cutFrame = ({ s with seq := { s.seq with pclosed := s.seq.pclosed ++ [p] } } : State).cutFrame := by
    simp only [State.cutPrusik, hdue, Bool.false_eq_true, if_false]
    refine (State.pitchCairns_keeps _ State.cutFrame (fun u c src q a b => u.raise_cutFrame c src q a b) p).trans
      (foldl_keeps State.cutFrame _ (fun u e => ?_) _ _)
    split
    · rfl
    · split
      · exact u.finalise_cutFrame _ _
      · split
        · exact u.finaliseWhole_cutFrame _ _ _
        · rfl
  rw [ht.seq]
  exact congrArg CutFrame.pclosed hframe

end

/-! ### Token windows (R259, R261) -/

/-- What the close of a token window leaves: the run, its streams and slices, and the sequencers but for the counts of their misses;
and the windows closed. -/
structure WindowFrame where
  power : Power
  belay : Belay
  req : Requests
  img : ImgSt
  slices : List Slice
  seq : Seq
  closed : List Nat

/-- What the close of a token window finds of it. -/
def State.windowFrame (s : State) : WindowFrame :=
  ⟨s.power, s.belay, s.req, s.img, s.slices, { s.seq with misses := [] }, s.tok.closed⟩

section
variable (s : State)

theorem State.windowFrame_closed : s.windowFrame.closed = s.tok.closed := rfl

@[simp] theorem State.hbmWrite_windowFrame (a : Nat) (bs : List Byte) : (s.hbmWrite a bs).windowFrame = s.windowFrame := rfl

@[simp] theorem State.setChoice_windowFrame (l mb t c : Nat) (f : Bool) (st : Nat) : (s.setChoice l mb t c f st).windowFrame = s.windowFrame := rfl

@[simp] theorem State.tally_windowFrame (k sl p n : Nat) : (s.tally k sl p n).windowFrame = s.windowFrame := rfl

@[simp] theorem State.logTokens_windowFrame (k l mb b : Nat) (v : Bool) (bits : List Bool) :
    (s.logTokens k l mb b v bits).windowFrame = s.windowFrame := rfl

@[simp] theorem State.tokenCount_windowFrame (i l n : Nat) : (s.tokenCount i l n).windowFrame = s.windowFrame := by
  simp [State.tokenCount, State.windowFrame]

@[simp] theorem State.raise_windowFrame (c src q a b : Nat) : (s.raise c src q a b).windowFrame = s.windowFrame := by
  simp [State.windowFrame]

/-- A fold whose steps leave it leaves it. -/
theorem foldl_windowFrame {α : Type} {f : State → α → State} (h : ∀ s x, (f s x).windowFrame = s.windowFrame) (l : List α) (s : State) :
    (l.foldl f s).windowFrame = s.windowFrame := foldl_keeps State.windowFrame f h l s

@[simp] theorem State.dropUnsent_windowFrame (p : Nat) : (s.dropUnsent p).windowFrame = s.windowFrame := by
  refine foldl_windowFrame (fun u pin => foldl_windowFrame (fun v x => ?_) _ _) _ _
  split <;> rfl

@[simp] theorem State.tokenCairns_windowFrame (p : Nat) : (s.tokenCairns p).windowFrame = s.windowFrame := by
  refine foldl_windowFrame (fun u sl => ?_) _ _
  simp only [apply_ite State.windowFrame, State.raise_windowFrame, ite_self]

variable {s}

/-- A landing window that closes is noted, and closing it touches no stream (R259). -/
theorem State.closeLanding_windowFrame {p : Nat} (h : p ∉ s.tok.closed) :
    (s.closeLanding p).windowFrame = { s.windowFrame with closed := s.tok.closed ++ [p] } := by
  unfold State.closeLanding
  rw [if_neg (by simpa using h)]
  refine (foldl_windowFrame (fun s w => ?_) _ _).trans rfl
  have hwords (u : State) (ns ms : List Nat) (g : State → Nat → State → Nat → State) (hg : ∀ v j u r, (g v j u r).windowFrame = u.windowFrame) :
      (ns.foldl (fun v j => ms.foldl (g v j) v) u).windowFrame = u.windowFrame :=
    foldl_windowFrame (fun v j => foldl_windowFrame (hg v j) ms v) ns u
  have hitems (u : State) (ns : List Nat) (k l m : Nat) (v : Nat → Bool) (b : State → Nat → List Bool) :
      (ns.foldl (fun u r => u.logTokens k l m r (v r) (b u r)) u).windowFrame = u.windowFrame :=
    foldl_windowFrame (fun u r => u.logTokens_windowFrame k l m r (v r) (b u r)) ns u
  have hvisits (u : State) (ns : List Nat) (g : State → Nat → Tab Nat) :
      (ns.foldl (fun u j => { u with tok := { u.tok with visits := g u j } }) u).windowFrame = u.windowFrame := by
    refine foldl_windowFrame (fun _ _ => ?_) ns u
    rfl
  dsimp only
  split
  · rw [hvisits, hitems, State.tally_windowFrame, State.tokenCount_windowFrame, hwords]
    exact fun _ _ _ _ => rfl
  · rw [hitems, State.tally_windowFrame, State.tokenCount_windowFrame, hwords]
    exact fun _ _ _ _ => rfl

/-- A window that is closed does not close again. -/
theorem State.closeLanding_closed {p : Nat} (h : p ∈ s.tok.closed) : s.closeLanding p = s := if_pos (by simpa using h)

/-- The cutoff of a return window notes it (R261). -/
theorem State.closeReturn_windowFrame {p : Nat} (h : p ∉ s.tok.closed) :
    (s.closeReturn p).windowFrame = { s.windowFrame with closed := s.tok.closed ++ [p] } := by
  unfold State.closeReturn
  rw [if_neg (by simpa using h)]
  refine (foldl_windowFrame (fun s w => ?_) _ _).trans rfl
  have hlost (u : State) (l : List (Nat × Nat × Nat)) (k mb : Nat) (f : Bool) :
      (l.foldl (fun u c => u.setChoice k mb c.1 c.2.1 f 5) u).windowFrame = u.windowFrame := by
    refine foldl_windowFrame (fun _ _ => ?_) l u
    rfl
  simp only [State.tally_windowFrame, State.tokenCount_windowFrame, State.logTokens_windowFrame, hlost]

theorem State.not_closed_of_tokenDue {p : Nat} {ret : Bool} (h : s.tokenDue p ret = true) : p ∉ s.tok.closed := by
  simp only [State.tokenDue, Bool.and_eq_true, Bool.not_eq_true'] at h
  simpa using h.2

theorem exec_tokenWindowCutoff {p : Nat} (h : s.tokenDue p false = true) :
    ∃ t, exec (.tokenWindowCutoff p) s = .next t ∧ t.tok.closed = s.tok.closed ++ [p] := by
  refine next_after _ s (s.cutTokens p) _ rfl fun t ht => ?_
  have hclosed : (s.dropUnsent p).tok.closed = s.tok.closed := congrArg WindowFrame.closed (s.dropUnsent_windowFrame p)
  have hframe := State.closeLanding_windowFrame (s := s.dropUnsent p) (p := p) (by rw [hclosed]; exact State.not_closed_of_tokenDue h)
  rw [ht.tok, State.cutTokens, if_pos h, ← State.windowFrame_closed, State.tokenCairns_windowFrame, hframe, hclosed]

theorem exec_returnCutoff {p : Nat} (h : s.tokenDue p true = true) :
    ∃ t, exec (.returnCutoff p) s = .next t ∧ t.tok.closed = s.tok.closed ++ [p] := by
  refine next_after _ s (s.cutReturn p) _ rfl fun t ht => ?_
  rw [ht.tok, State.cutReturn, if_pos h, ← State.windowFrame_closed, State.tokenCairns_windowFrame,
    State.closeReturn_windowFrame (State.not_closed_of_tokenDue h)]

end

/-! ### Pins of step gate mode (R193) -/

section
variable {s u : State} {st : Nat} {x : Issue}

/-- Two states alike but for closed windows run the same streams. -/
theorem State.streamRuns_congr (h : { u.windowFrame with closed := [] } = { s.windowFrame with closed := [] }) :
    u.streamRuns st = s.streamRuns st := by
  have hp : u.power = s.power := congrArg WindowFrame.power h
  have hr : u.req = s.req := congrArg WindowFrame.req h
  have hi : u.img = s.img := congrArg WindowFrame.img h
  have hs : u.slices = s.slices := congrArg WindowFrame.slices h
  have hq : ({ u.seq with misses := [] } : Seq) = { s.seq with misses := [] } := congrArg WindowFrame.seq h
  have hrun : u.seq.running = s.seq.running := (congrArg Seq.running hq :)
  have hgate : u.seq.gateWait = s.seq.gateWait := (congrArg Seq.gateWait hq :)
  have hissue : u.seq.issue = s.seq.issue := (congrArg Seq.issue hq :)
  have hpos : u.seq.pos = s.seq.pos := (congrArg Seq.pos hq :)
  have hsec : u.seq.sec = s.seq.sec := (congrArg Seq.sec hq :)
  have hvar : u.seq.variant = s.seq.variant := (congrArg Seq.variant hq :)
  simp only [State.streamRuns, State.isRunning, State.slice, State.gateAhead, State.relaxed, State.nextStatic, State.pricking, State.image,
    hp, hr, hi, hs, hrun, hgate, hissue, hpos, hsec, hvar]

/-- The windows that a RETURN waits for, closed one after the other (R193). -/
theorem foldl_closeLanding_windowFrame (l : List Nat) (s : State) :
    { (l.foldl (fun s p => s.closeLanding p) s).windowFrame with closed := [] } = { s.windowFrame with closed := [] } :=
  foldl_keeps (fun s : State => { s.windowFrame with closed := [] }) _ (fun s p => by
    by_cases h : p ∈ s.tok.closed
    · rw [State.closeLanding_closed h]
    · rw [State.closeLanding_windowFrame h]) l s

theorem State.dueIssue_some (h : s.dueIssue st = some x) : s.streamRuns st = true ∧ s.seq.issue.getD st [] = [] := by
  unfold State.dueIssue at h
  split at h
  · split at h
    · next hc =>
      cases h
      simp only [Bool.and_eq_true, beq_iff_eq] at hc
      obtain ⟨⟨⟨-, hruns⟩, -⟩, hempty⟩ := hc
      exact ⟨hruns, hempty⟩
    · cases h
  · cases h

/-- A stream that runs is that of an engine that runs, and its slice is not fenced (R475). -/
theorem State.streamRuns_true (h : s.streamRuns st = true) : s.isRunning = true ∧ (st < 8 → (s.slice st).fenced = false) := by
  simp only [State.streamRuns, Bool.and_eq_true, Bool.not_eq_true', Bool.and_eq_false_iff, decide_eq_false_iff_not] at h
  obtain ⟨⟨⟨⟨hrun, -⟩, -⟩, hfence⟩, -⟩ := h
  exact ⟨hrun, fun hst => hfence.resolve_left (by omega)⟩

/-- Outside replay no fence is forced. -/
theorem State.latchLate_live (hp : s.req.replay = false) (hr : s.streamRuns st = true) : s.latchLate st x =
    { (s.latch st x) with seq := { (s.latch st x).seq with delay := s.seq.delay.modify st (· + (s.count - x.at_)) } } := by
  simp [State.latchLate, State.forcedFence, hp, hr]

/-- A pin latched late, out of a state whose streams are those of `s`: it waits in its latch, and its stream is delayed as much. -/
theorem latched_late {c : Instr} (hd : s.dueIssue st = some x) (hp : s.req.replay = false) (hi : st < s.seq.issue.length)
    (hl : st < s.seq.delay.length) (hu : { u.windowFrame with closed := [] } = { s.windowFrame with closed := [] })
    (hc : exec c s = answer s (u.latchLate st x)) (hhbm : x.pin.op ≠ 13 → u.hbm = s.hbm) :
    ∃ t, exec c s = .next t ∧ t.seq.issue.getD st [] = [x] ∧ t.seq.delay.getD st 0 = s.seq.delay.getD st 0 + (s.belay.count - x.at_) ∧
      t.seq.flights = s.seq.flights ∧ (x.pin.op ≠ 13 → t.hbm = s.hbm) := by
  obtain ⟨hruns, hempty⟩ := State.dueIssue_some hd
  have hruns' : u.streamRuns st = true := (State.streamRuns_congr hu).trans hruns
  obtain ⟨hrun, hfence⟩ := State.streamRuns_true hruns'
  have hreq : u.req = s.req := congrArg WindowFrame.req hu
  have hbelay : u.belay = s.belay := congrArg WindowFrame.belay hu
  have hseq : ({ u.seq with misses := [] } : Seq) = { s.seq with misses := [] } := congrArg WindowFrame.seq hu
  have hissue : u.seq.issue = s.seq.issue := (congrArg Seq.issue hseq :)
  have hdelay : u.seq.delay = s.seq.delay := (congrArg Seq.delay hseq :)
  have hflights : u.seq.flights = s.seq.flights := (congrArg Seq.flights hseq :)
  rw [State.latchLate_live (by rw [hreq]; exact hp) hruns'] at hc
  refine next_after c s _ _ hc fun t ht => ⟨?_, ?_, ?_, fun hop => ?_⟩
  · rw [ht.issue hrun st hfence]
    have hempty' : s.seq.issue[st] = [] := by rw [← getD_eq _ [] _ hi]; exact hempty
    simp [State.latch, hissue, List.getD_eq_getElem?_getD, hi, hempty']
  · rw [ht.seq]
    simp [State.count, hdelay, hbelay, List.getD_eq_getElem?_getD, hl]
  · rw [ht.seq]
    exact hflights
  · rw [ht.hbm]
    exact hhbm hop

theorem exec_gatedPinReady (hd : s.dueIssue st = some x) (hr : s.pinReady st x = true) :
    exec (.gatedPinReady st) s = answer s (s.latchLate st x) := by
  have heq : s.gatedReady st = s.latchLate st x := by simp only [State.gatedReady, hd, hr, if_true]
  exact congrArg (answer s) heq

/-- A pin that has waited long enough issues all the same; the windows that a RETURN waits for close first (R193). -/
theorem exec_gateWaitTimeout (hd : s.dueIssue st = some x) (hp : s.req.replay = false) (ht : x.at_ + 2 ^ 24 ≤ s.belay.count) (hop : x.pin.op ≠ 16) :
    ∃ u : State, exec (.gateWaitTimeout st) s = answer s (u.latchLate st x) ∧
      { u.windowFrame with closed := [] } = { s.windowFrame with closed := [] } ∧ (x.pin.op ≠ 13 → u.hbm = s.hbm) := by
  have hdiverge : s.diverge = s := by simp [State.diverge, hp]
  have heq : s.gateTimeout st = State.latchLate (if x.pin.op = 13 then
      ((List.range s.pricking.pitches.length).filter (fun p => (s.served p false).contains (x.pin.layer, x.pin.mb, x.pin.pass))).foldl
        (fun s p => s.closeLanding p) s else s) st x := by
    have hno : ¬(s.count < x.at_ + 2 ^ 24 ∨ x.pin.op = 16) := by
      rintro (h | h)
      · exact absurd ht (Nat.not_le.2 h)
      · exact hop h
    simp only [State.gateTimeout, hd, if_neg hno, hdiverge]
  refine ⟨_, congrArg (answer s) heq, ?_, fun h13 => by rw [if_neg h13]⟩
  split
  · exact foldl_closeLanding_windowFrame _ _
  · rfl

end

/-- Settles O38: a cutoff leaves what it reads, so each chunk is judged as the first one, and a late pin is latched out of a state whose
streams are as they were. -/
theorem cutoffsAndGatedPins : Obligations.CutoffsAndGatedPins := by
  unfold Obligations.CutoffsAndGatedPins
  refine ⟨fun s p => ⟨exec_pitchCutoff, exec_prusikCutoff, exec_tokenWindowCutoff, exec_returnCutoff⟩, ?_⟩
  rintro s st x hd hp hi hl c (⟨rfl, hr⟩ | ⟨rfl, ht, hop⟩)
  · exact latched_late hd hp hi hl rfl (exec_gatedPinReady hd hr) fun _ => rfl
  · obtain ⟨u, hc, hu, hhbm⟩ := exec_gateWaitTimeout hd hp ht hop
    exact latched_late hd hp hi hl hu hc hhbm

end Sys2Proof.Machine

/-! The five kinds of SEND: what each puts in flight on a port that is free (R131, R150, R169, R186, R295). -/

namespace Sys2Proof.Machine

/-! ### A port taken -/

section
variable (s : State) (st : Nat) (x : Issue)

/-- Taking a port changes windows and holds alone. -/
theorem State.takePort_frame : (s.takePort st x).slices = s.slices ∧ (s.takePort st x).pending = s.pending ∧
    ({ (s.takePort st x).seq with holds := s.seq.holds } : Seq) = s.seq := by
  unfold State.takePort
  split
  · exact ⟨rfl, rfl, rfl⟩
  · split <;> exact ⟨rfl, rfl, rfl⟩

@[simp] theorem State.takePort_pinFrame : (s.takePort st x).pinFrame = s.pinFrame := by
  unfold State.takePort
  split
  · rfl
  · split <;> rfl

theorem State.takePort_slice (i : Nat) : (s.takePort st x).slice i = s.slice i := by
  rw [State.slice, (s.takePort_frame st x).1, State.slice]

theorem State.takePort_holds {sl unit : Nat} {c : Chunk} (h : Holds s sl unit c) : Holds (s.takePort st x) sl unit c := by
  obtain ⟨⟨b, hb, hready, hc⟩, hpicots⟩ := h
  have hseq : (s.takePort st x).seq.picots = s.seq.picots := (congrArg Seq.picots (s.takePort_frame st x).2.2 :)
  exact ⟨⟨b, by rw [State.buf, State.takePort_slice]; exact hb, hready, hc⟩, hseq ▸ hpicots⟩

end

/-! ### The pins -/

section
variable {s u : State} {st : Nat} {x : Issue} {rest : List Issue}

/-- A chunk that leaves the package goes to the next package on its way, if the port is up, as packets (R131). -/
theorem State.sendChunk_port (hport : x.pin.portq ≠ 36) (c : Chunk) (upds : List Upd) : u.sendChunk st x c upds =
    u.flyHeld st x false ((if u.upTowards x.pin.portq (u.sendDest (u.pitchOf x.pin) x.pin.portq x.pin.chunk) then
        [.send x.pin.portq (chunkPackets 0 (u.pitchOf x.pin).group u.coord (u.sendDest (u.pitchOf x.pin) x.pin.portq x.pin.chunk)
          x.pin.pitch x.pin.chunk u.seq.step (c.data ++ trailerBytes c x.pin.pitch x.pin.chunk))]
      else []) ++ upds) := if_neg hport

/-- A data SEND of a READY buffer sends its chunk (R169). -/
theorem State.sendDataPin_whole (hlive : u.req.replay = false) (hgone : x.gone = false) (hport : u.portBusy st x = false)
    (hres : u.resBusy (pinRes st x.pin) = false) {c : Chunk} (hc : Holds u st x.pin.buf c) :
    u.sendDataPin st x = (u.takePort st x).sendChunk st x c (releaseUpd st x.pin) := by
  have hcond : firstRow (u.portBusy st x || u.resBusy (pinRes st x.pin)) false (!u.readable st x.pin.buf) = 0 := by
    rw [hport, hres, readable_of_holds hc]; rfl
  have hsource : (u.takePort st x).sendSource st x.pin = (some c, none) := by
    obtain ⟨⟨b, hb, hready, rfl⟩, -⟩ := u.takePort_holds st x hc
    simp [State.sendSource, hb, hready]
  simp only [State.sendDataPin, State.judgeRead_of_holds hc, hcond]
  rw [State.issuePin_whole hlive hgone, if_neg Bool.false_ne_true]
  simp only [hsource, List.append_nil]

theorem State.sendForwardWindowPin_whole (hlive : u.req.replay = false) (hgone : x.gone = false) (hport : u.portBusy st x = false) :
    u.sendForwardWindowPin st x = (u.takePort st x).flyHeld st x false [] := by
  simp only [State.sendForwardWindowPin, hport]
  exact State.issuePin_whole hlive hgone st _

/-- A buffer that an answer window names is held to the window's end (R150). -/
def State.holdAnswer (u : State) (st : Nat) (p : Pin) : State := u.onSlice st (fun sl => { sl with bufs := sl.bufs.map (fun e =>
  if e.1 = p.buf then (e.1, { e.2 with
    holdUntil := Nat.max e.2.holdUntil (u.count + (20 + crossing st p.portq + pinWire u.image u.pricking p)) }) else e) })

/-- An answer window that no request waits for holds its port and its buffer (R149, R150). -/
theorem State.sendPrusikAnswerWindowPin_idle (hlive : u.req.replay = false) (hgone : x.gone = false) (hport : u.portBusy st x = false)
    (hidle : (u.slice st).prusik = []) :
    u.sendPrusikAnswerWindowPin st x = ((u.takePort st x).holdAnswer st x.pin).flyHeld st x false [] := by
  have hnone : ((((u.takePort st x).holdAnswer st x.pin).flyHeld st x false []).slice st).prusik = [] := by
    refine (getD_map_modify_of_keeps (g := Slice.prusik) (fun _ => ?_) (u.takePort st x).slices st st Slice.reset).trans ?_
    · rfl
    · exact (congrArg Slice.prusik (u.takePort_slice st x st)).trans hidle
  simp only [State.sendPrusikAnswerWindowPin, hport]
  refine (State.issuePin_whole hlive hgone st _).trans ?_
  rw [if_neg Bool.false_ne_true]
  unfold State.holdAnswer at hnone ⊢
  simp only [hnone, List.find?_nil]

/-- A SEND out of memory sends the bytes of its object (R295). -/
theorem State.memorySourcedSendPin_whole (hlive : u.req.replay = false) (hgone : x.gone = false) (hport : u.portBusy st x = false)
    (hmovers : u.resBusy [.movers st] = false) {c : Chunk} (hc : (u.takePort st x).memChunk x.pin = some c) :
    u.memorySourcedSendPin st x = ((u.takePort st x).occupy [.movers st] (u.takePort st x).belay.count
      ((u.takePort st x).belay.count + (u.takePort st x).latency st x.pin)).sendChunk st x c [] := by
  have hcount : (u.takePort st x).belay.count = u.count := State.count_congr (u.takePort_pinFrame st x)
  have hlat := State.latency_congr (u.takePort_pinFrame st x) st x.pin
  have hc' : ((u.takePort st x).occupy [.movers st] u.count (u.count + u.latency st x.pin)).memChunk x.pin = some c := hc
  simp only [State.memorySourcedSendPin, hport, hmovers]
  refine (State.issuePin_whole hlive hgone st _).trans ?_
  rw [if_neg Bool.false_ne_true]
  rw [hc', hcount, hlat]

theorem exec_sendData (h : PinDue s st x rest) (hk : x.pin.isSend 0 = true) : exec (.sendData st) s = answer s ((Taken s st x).sendDataPin st x) :=
  congrArg (answer s) (runPin_of_pinDue h hk _)

theorem exec_sendForwardWindow (h : PinDue s st x rest) (hk : x.pin.isSend 1 = true) :
    exec (.sendForwardWindow st) s = answer s ((Taken s st x).sendForwardWindowPin st x) := congrArg (answer s) (runPin_of_pinDue h hk _)

theorem exec_sendPrusikAnswerWindow (h : PinDue s st x rest) (hk : x.pin.isSend 2 = true) :
    exec (.sendPrusikAnswerWindow st) s = answer s ((Taken s st x).sendPrusikAnswerWindowPin st x) := congrArg (answer s) (runPin_of_pinDue h hk _)

theorem exec_sendArmGroundQueue (h : PinDue s st x rest) (hk : x.pin.isSend 3 = true) :
    exec (.sendArmGroundQueue st) s = answer s ((Taken s st x).sendArmGroundQueuePin st x) := congrArg (answer s) (runPin_of_pinDue h hk _)

theorem exec_memorySourcedSend (h : PinDue s st x rest) (hk : x.pin.isMemSend = true) :
    exec (.memorySourcedSend st) s = answer s ((Taken s st x).memorySourcedSendPin st x) := congrArg (answer s) (runPin_of_pinDue h hk _)

end

/-- Settles O24: each kind of SEND that is due runs whole, and leaves the queue of commands. -/
theorem sends : Obligations.Sends := by
  rintro s u v st x rest h rfl rfl hport
  have hdue := h
  obtain ⟨-, -, -, hgone, hlive⟩ := h
  have hlive : (Taken s st x).req.replay = false := by simp [hlive]
  have hpend : ((Taken s st x).takePort st x).pending = s.pending := ((Taken s st x).takePort_frame st x).2.1.trans (taken_pending s st x)
  refine ⟨fun c hk h36 hres hc => ?_, fun hk => ?_, fun hk hidle => ?_, fun hk => ?_, fun c hk h36 hmovers hc => ?_⟩
  · have hexec := exec_sendData hdue hk
    rw [State.sendDataPin_whole hlive hgone hport hres hc, State.sendChunk_port h36] at hexec
    exact next_settle _ s _ hexec ((State.flyHeld_pending ..).trans hpend)
  · have hexec := exec_sendForwardWindow hdue hk
    rw [State.sendForwardWindowPin_whole hlive hgone hport] at hexec
    exact next_settle _ s _ hexec ((State.flyHeld_pending ..).trans hpend)
  · have hexec := exec_sendPrusikAnswerWindow hdue hk
    rw [State.sendPrusikAnswerWindowPin_idle hlive hgone hport (by rw [← State.takePort_slice]; exact hidle)] at hexec
    exact next_settle _ s _ hexec ((State.flyHeld_pending ..).trans hpend)
  · have hexec := exec_sendArmGroundQueue hdue hk
    rw [State.sendArmGroundQueuePin, State.issuePin_whole hlive hgone] at hexec
    exact next_settle _ s _ hexec ((State.flyHeld_pending ..).trans (taken_pending s st x))
  · have hexec := exec_memorySourcedSend hdue hk
    rw [State.memorySourcedSendPin_whole hlive hgone hport hmovers hc] at hexec
    refine next_settle _ s _ hexec ?_
    rw [State.sendChunk_port h36]
    exact (State.flyHeld_pending ..).trans hpend

end Sys2Proof.Machine

/-! REDUCE of a chunk whose every source has been accepted, and of a void one (R133, R148, R202). -/

namespace Sys2Proof.Machine

/-! ### What judging and forming leave -/

section
variable (s : State)

@[simp] theorem State.raise_pinFrame (c src q a b : Nat) : (s.raise c src q a b).pinFrame = s.pinFrame := by simp [State.pinFrame]

@[simp] theorem State.onOpen_pinFrame (sl p k : Nat) (f : Opening → Opening) : (s.onOpen sl p k f).pinFrame = s.pinFrame := rfl

@[simp] theorem State.slotCrc_pinFrame (p k r c : Nat) (b : Bool) : (s.slotCrc p k r c b).pinFrame = s.pinFrame := rfl

@[simp] theorem State.slotDev_pinFrame (sl c d p k r v : Nat) : (s.slotDev sl c d p k r v).pinFrame = s.pinFrame := by
  have hmiss : (s.missSlot sl p k r).pinFrame = s.pinFrame := by unfold State.missSlot; dsimp only; split <;> rfl
  simp only [State.slotDev, State.dev_pinFrame, apply_ite State.pinFrame, hmiss, ite_self]

@[simp] theorem State.judgeVoid_pinFrame (sl : Nat) (o : Opening) : (s.judgeVoid sl o).pinFrame = s.pinFrame := by
  refine foldl_keeps State.pinFrame _ (fun s rank => ?_) _ _
  dsimp only
  split <;> simp

@[simp] theorem State.claimMissing_pinFrame (sl u n : Nat) : (s.claimMissing sl u n).pinFrame = s.pinFrame := by
  simp only [State.claimMissing, apply_ite State.pinFrame, State.claim_pinFrame, ite_self]

end

/-- A fold that takes one item for each key collects the items in order; of its state it changes what `r` says. -/
theorem foldl_collect {σ ρ α β κ : Type} {F : σ × List α × β → κ → σ × List α × β} {find : κ → Option α} {mk : ρ → σ} {b : β}
    (hstep : ∀ r acc k i, find k = some i → ∃ r', F (mk r, acc, b) k = (mk r', acc ++ [i], b)) {ks : List κ} {is : List α}
    (h : ks.map find = is.map some) (r : ρ) (acc : List α) : ∃ r', ks.foldl F (mk r, acc, b) = (mk r', acc ++ is, b) := by
  induction ks generalizing is r acc with
  | nil =>
    obtain rfl : is = [] := by simpa using h.symm
    exact ⟨r, by simp⟩
  | cons k ks ih =>
    cases is with
    | nil => simp at h
    | cons i is =>
      simp only [List.map_cons, List.cons.injEq] at h
      obtain ⟨r₁, hF⟩ := hstep r acc k i h.1
      obtain ⟨r₂, hrest⟩ := ih h.2 r₁ (acc ++ [i])
      exact ⟨r₂, by rw [List.foldl_cons, hF, hrest, List.append_assoc]; rfl⟩

section
variable {s u : State} {sl : Nat} {o : Opening}

/-- A slot whose input came in time is added (row 1 of Table 4-6). -/
theorem State.verdict_add (hlive : s.req.replay = false) {rank : Nat} {i : Input} (hi : o.inputs.find? (fun i => i.rank = rank ∧ !i.carried) = some i) :
    s.verdict o rank = .add i := by
  simp only [State.verdict, hlive, Bool.false_and, Bool.false_eq_true, if_false, hi]

/-- The state with another step record. -/
def State.withRec (s : State) (r : StepRec) : State := { s with srec := r }

/-- Judging the slots of a chunk whose every input came in time records them in the step, and changes nothing else. -/
theorem State.judgeSlots_whole (hlive : s.req.replay = false) {ins : List Input}
    (hin : (s.slotSources (s.pricking.pitchAt o.pitch) o.chunk o.loaded).map (fun k => o.inputs.find? (fun i => i.rank = k ∧ !i.carried)) = ins.map some)
    (hfresh : ∀ i ∈ o.inputs, i.carried = false) : ∃ r, s.judgeSlots sl o = (s.withRec r, ins, false, []) := by
  have hcarried : o.inputs.filter (·.carried) = [] := List.filter_eq_nil_iff.2 fun i hi => by simp [hfresh i hi]
  unfold State.judgeSlots
  rw [hcarried]
  refine foldl_collect (mk := s.withRec) (fun r acc k i hi => ?_) hin s.srec []
  refine ⟨r.slotCrc (slotKey o.pitch o.chunk k) i.crc false, ?_⟩
  dsimp only
  rw [State.verdict_add (s := s.withRec r) hlive hi]
  rfl

/-- Forming the output under an exponent that is agreed: the chunk is that of the exact sum, and what else it changes is in the step's
record, the counters and the log. -/
theorem State.formChunk_agreed {ins : List Input} {e : Int} (he : s.outExp o ins = some e) (missing : Bool) : ∃ w : State,
    s.formChunk sl o ins missing = (w, (formOutput (s.pricking.pitchAt o.pitch) s.seq.step e
      (match s.pricking.payload o.pitch o.chunk with | some y => y.set == 1 | none => (o.own.map (·.wide)).getD false)
      (s.image.lastScatter (s.pricking.pitchAt o.pitch)) (missing || o.ownMissing) o.own ins).chunk) ∧ w.pinFrame = s.pinFrame := by
  simp only [State.formChunk, he, reduceCtorEq, if_false, decide_false, Bool.or_false, Option.getD_some]
  refine ⟨_, rfl, ?_⟩
  simp only [apply_ite State.pinFrame, State.slotDev_pinFrame, State.raise_pinFrame, State.saturated_pinFrame, ite_self]

end

/-! ### The pin -/

section
variable {s u : State} {st : Nat} {x : Issue} {rest : List Issue} {o : Opening}

/-- The REDUCE of a chunk whose every input came in time puts the sum of the inputs and its own contribution in flight. -/
theorem State.reduceChunk_whole (hlive : u.req.replay = false) (hpitch : o.pitch = x.pin.pitch) {b : Buf} (hb : u.buf st o.buf = some b)
    {ins : List Input} {e : Int} {c : Chunk}
    (hin : (u.slotSources (u.pitchOf x.pin) o.chunk o.loaded).map (fun k => o.inputs.find? (fun i => i.rank = k ∧ !i.carried)) = ins.map some)
    (hfresh : ∀ i ∈ o.inputs, i.carried = false) (he : u.pitchExp o.pitch o.chunk = some e)
    (hc : (formOutput (u.pitchOf x.pin) u.seq.step e
      (match u.pricking.payload o.pitch o.chunk with | some y => y.set == 1 | none => (o.own.map (·.wide)).getD false)
      (u.image.lastScatter (u.pitchOf x.pin)) o.ownMissing o.own ins).chunk = some c) : ∃ w : State, w.pinFrame = u.pinFrame ∧
        u.reduceChunk st x o = w.flyHeld st x false (.buf st o.buf .ready c :: releaseUpd st x.pin) := by
  have hrecord : u.pitchOf x.pin = u.pricking.pitchAt o.pitch := by rw [State.pitchOf, hpitch]
  rw [hrecord] at hin hc
  generalize hv : (u.addWork st (elemAdds (u.pitchOf x.pin).owidth (u.pitchOf x.pin).elems)).setBuf st o.buf .filling b.chunk = v
  have hb' : (u.addWork st (elemAdds (u.pitchOf x.pin).owidth (u.pitchOf x.pin).elems)).buf st o.buf = some b := hb
  have hframe : v.pinFrame = u.pinFrame := by rw [← hv]; simp
  have hv' := hv
  rw [State.setBuf_held hb'] at hv'
  obtain ⟨r, hjudge⟩ := State.judgeSlots_whole (s := v) (sl := st) (o := o) (by rw [← hv']; exact hlive) (by rw [← hv']; exact hin) hfresh
  have hexp : (v.withRec r).outExp o ins = some e := by
    have he' : (v.withRec r).pitchExp o.pitch o.chunk = some e := by rw [← hv']; exact he
    simp only [State.outExp, he']
  obtain ⟨w, hform, hw⟩ := State.formChunk_agreed (sl := st) hexp false
  have hsum : (formOutput ((v.withRec r).pricking.pitchAt o.pitch) (v.withRec r).seq.step e
      (match (v.withRec r).pricking.payload o.pitch o.chunk with | some y => y.set == 1 | none => (o.own.map (·.wide)).getD false)
      ((v.withRec r).image.lastScatter ((v.withRec r).pricking.pitchAt o.pitch)) (false || o.ownMissing) o.own ins).chunk = some c := by
    rw [← hv']; exact hc
  rw [hsum] at hform
  refine ⟨w.onOpen st o.pitch o.chunk (fun o => { o with reduced := true, final := true, inputs := ins }), hw.trans hframe, ?_⟩
  simp only [State.reduceChunk, hb', hv, hjudge, hform, if_true]

/-- The REDUCE of a chunk that stands runs whole. -/
theorem State.reducePin_whole (hlive : u.req.replay = false) (hgone : x.gone = false) (hopen : u.openOf st x.pin.pitch x.pin.chunk = some o)
    (harray : u.arrayBehind st (elemAdds (u.pitchOf x.pin).owidth (u.pitchOf x.pin).elems) = false) (hvoid : o.void = false) {b : Buf}
    (hb : u.buf st o.buf = some b) (hst : b.st ≠ .filling) : u.reducePin st x = u.reduceChunk st x o := by
  have hread : u.readable st o.buf = true := by simp [State.readable, hb, hst]
  simp only [State.reducePin, hopen, harray, hvoid, hread, Bool.or_true, Bool.not_true]
  refine (State.issuePin_whole hlive hgone st _).trans ?_
  simp

/-- The REDUCE of a chunk whose EXPECT ran void leaves its buffer MISSING (R202, Table 5-13). -/
theorem State.reducePin_void (hlive : u.req.replay = false) (hgone : x.gone = false) (hopen : u.openOf st x.pin.pitch x.pin.chunk = some o)
    (harray : u.arrayBehind st (elemAdds (u.pitchOf x.pin).owidth (u.pitchOf x.pin).elems) = false) (hvoid : o.void = true) :
    ∃ w : State, w.pinFrame = u.pinFrame ∧
      u.reducePin st x = w.flyHeld st x false (.buf st o.buf .missing default :: releaseUpd st x.pin) := by
  refine ⟨((u.judgeVoid st o).onOpen st o.pitch o.chunk (fun o => { o with reduced := true, final := true })).claimMissing st o.buf
    (u.pitchOf x.pin).expectUnits, by simp, ?_⟩
  simp only [State.reducePin, hopen, harray, hvoid, Bool.true_or, Bool.not_true]
  refine (State.issuePin_whole hlive hgone st _).trans ?_
  simp

theorem exec_reduce (h : PinDue s st x rest) (hop : x.pin.op = 3) : exec (.reduce st) s = answer s ((Taken s st x).reducePin st x) :=
  congrArg (answer s) (runPin_of_pinDue h (by simp [hop]) _)

end

/-- Settles O26: the pin that is due runs whole and judges every slot by its input, or runs on a void chunk. -/
theorem reductions : Obligations.Reductions := by
  rintro s u st x rest r o h rfl hop rfl hpitch hopen harray
  have hexec := exec_reduce h hop
  obtain ⟨-, -, -, hgone, hlive⟩ := h
  have hlive : (Taken s st x).req.replay = false := by simp [hlive]
  refine ⟨fun ins e c hvoid ⟨b, hb, hst⟩ hin hfresh he hc => ?_, fun hvoid => ?_⟩
  · obtain ⟨w, hframe, hw⟩ := State.reduceChunk_whole (st := st) hlive hpitch hb hin hfresh he hc
    rw [State.reducePin_whole hlive hgone hopen harray hvoid hb hst, hw] at hexec
    exact next_after _ s _ _ hexec fun t ht => inFlight_flyHeld (hframe.trans (taken_pinFrame ..)) ht
  · obtain ⟨w, hframe, hw⟩ := State.reducePin_void hlive hgone hopen harray hvoid
    rw [hw] at hexec
    exact next_after _ s _ _ hexec fun t ht => inFlight_flyHeld (hframe.trans (taken_pinFrame ..)) ht

end Sys2Proof.Machine

/-! The five kinds of DELIVER: what the completion of each makes visible (R158, R159, R160, R171, R186). -/

namespace Sys2Proof.Machine

section
variable {s u : State} {st : Nat} {x : Issue} {rest : List Issue} {c : Chunk}

/-! ### The pins -/

/-- A DELIVER of a buffer that holds a chunk runs on that chunk. -/
theorem State.deliver_whole (hlive : u.req.replay = false) (hgone : x.gone = false) (hc : Holds u st x.pin.buf c) {busy notFree : State → Bool}
    (hbusy : busy u = false) (hfree : notFree u = false) (run : State → Option Chunk → State × List Upd) :
    u.deliver st x busy notFree run = (run u (some c)).1.flyHeld st x false ((run u (some c)).2 ++ releaseUpd st x.pin) := by
  simp only [State.deliver, State.judgeRead_of_holds hc, hbusy, hfree, readable_of_holds hc]
  refine (State.issuePin_whole hlive hgone st _).trans ?_
  simp only [Bool.false_eq_true, if_false, State.gapIf_of_holds hc, chunkAt_of_holds hc]

/-- What a DELIVER to a station makes visible changes the counters and deviations alone. -/
@[simp] theorem State.stationUpds_pinFrame (p : Pin) (oc : Option Chunk) : (u.stationUpds st p oc).1.pinFrame = u.pinFrame :=
  u.saturated_pinFrame ..

@[simp] theorem State.hbmUpds_pinFrame (p : Pin) (oc : Option Chunk) : (u.hbmUpds st p oc).1.pinFrame = u.pinFrame := by
  cases oc <;> (unfold State.hbmUpds; dsimp only; split)
  · rfl
  · rfl
  · rfl
  · simp only [apply_ite Prod.fst, apply_ite State.pinFrame, State.saturated_pinFrame, ite_self]

/-- A block that the chunk carries has its slot among what is made visible, with its squares unless it is MISSING. -/
theorem State.mem_stationUpds {p : Pin} {oc : Option Chunk} {e : Nat × StSlot} (he : e ∈ (u.stationWrites st p oc).1) :
    Upd.slot p.portq e.1 e.2 ∈ (u.stationUpds st p oc).2 ∧ (e.2.missing = false →
      Upd.norm p.portq (u.image.optim.entries.get default e.2.tensor).nset 0 e.2.tensor (sumNat (e.2.data.map squareUnits)) ∈
        (u.stationUpds st p oc).2) := by
  refine ⟨List.mem_append_left _ (List.mem_flatMap.2 ⟨e, he, List.mem_cons_self⟩), fun hpresent => ?_⟩
  refine List.mem_append_left _ (List.mem_flatMap.2 ⟨e, he, List.mem_cons_of_mem _ ?_⟩)
  simp [hpresent]

/-- A DELIVER to a table's bank installs the first bytes of its chunk. -/
theorem State.hbmUpds_install {p : Pin} (hlive : c.null = false) {i : Nat} (hi : u.installTarget st (u.pricking.mdescAt p.arg) = some i) :
    u.hbmUpds st p (some c) = (u, [.install st i (some (c.data.take (u.pricking.mdescAt p.arg).length))]) := by
  simp only [State.hbmUpds, hi, hlive, Bool.false_eq_true, if_false]

/-- A DELIVER to HBM writes the bytes of the descriptor, converted where both are of KIND 0. -/
theorem State.hbmUpds_mem {p : Pin} (hlive : c.null = false) (hi : u.installTarget st (u.pricking.mdescAt p.arg) = none)
    (h2 : (u.pitchOf p).kind ≠ 2) (h3 : (u.pitchOf p).kind ≠ 3) : (u.hbmUpds st p (some c)).2 =
      [.mem (u.pricking.mdescAt p.arg).base (if c.kind = 0 ∧ (u.pricking.mdescAt p.arg).kind = 0 then
          ((u.gradients st p.pitch p.chunk c).1.flatMap (leBytes 4)).take ((u.pricking.mdescAt p.arg).length / 4 * 4)
        else c.data.take (u.pricking.mdescAt p.arg).length)] := by
  simp only [State.hbmUpds, hi, h2, h3, or_self, if_false, hlive, Bool.false_eq_true]
  split <;> rfl

/-- DELIVER_TO_HBM is a DELIVER whether or not a table's bank is meant: of a buffer that holds a chunk. -/
theorem State.deliverToHbmPin_whole (hlive : u.req.replay = false) (hgone : x.gone = false) (hc : Holds u st x.pin.buf c)
    (hmovers : u.resBusy [.movers st] = false) : u.deliverToHbmPin st x =
      (u.hbmUpds st x.pin (some c)).1.flyHeld st x false ((u.hbmUpds st x.pin (some c)).2 ++ releaseUpd st x.pin) := by
  unfold State.deliverToHbmPin
  dsimp only
  split
  next i hi =>
    simp only [State.judgeRead_of_holds hc, hmovers, readable_of_holds hc]
    refine (State.issuePin_whole hlive hgone st _).trans ?_
    simp only [Bool.false_eq_true, if_false, State.gapIf_of_holds hc, chunkAt_of_holds hc]
  next => exact State.deliver_whole hlive hgone hc hmovers rfl _

/-- A copy of bytes that read well writes them at the second descriptor (R186). -/
theorem State.deliverCopyPin_whole (hlive : u.req.replay = false) (hgone : x.gone = false) (hmovers : u.resBusy [.movers st] = false)
    (hgood : u.hbmFaulty (u.pricking.mdescAt x.pin.arg).base
      (Nat.min (u.pricking.mdescAt x.pin.arg).length (u.pricking.mdescAt (x.pin.arg + 1)).length) = false) : u.deliverCopyPin st x =
      u.flyHeld st x false [.mem (u.pricking.mdescAt (x.pin.arg + 1)).base (u.hbmRead (u.pricking.mdescAt x.pin.arg).base
        (Nat.min (u.pricking.mdescAt x.pin.arg).length (u.pricking.mdescAt (x.pin.arg + 1)).length))] := by
  simp only [State.deliverCopyPin, hmovers]
  refine (State.issuePin_whole hlive hgone st _).trans ?_
  simp only [Bool.false_eq_true, if_false, hgood]

/-! ### The rows -/

theorem exec_deliverToStation (h : PinDue s st x rest) (hk : x.pin.isToStation = true) :
    exec (.deliverToStation st) s = answer s ((Taken s st x).deliverToStationPin st x) := congrArg (answer s) (runPin_of_pinDue h hk _)

theorem exec_deliverToHbm (h : PinDue s st x rest) (hk : x.pin.isDeliver 32 = true) :
    exec (.deliverToHbm st) s = answer s ((Taken s st x).deliverToHbmPin st x) := congrArg (answer s) (runPin_of_pinDue h hk _)

theorem exec_deliverToComputeScratch (h : PinDue s st x rest) (hk : x.pin.isDeliver 33 = true) :
    exec (.deliverToComputeScratch st) s = answer s ((Taken s st x).deliverToComputeScratchPin st x) :=
  congrArg (answer s) (runPin_of_pinDue h hk _)

theorem exec_deliverToHeatTable (h : PinDue s st x rest) (hk : x.pin.isDeliver 34 = true) :
    exec (.deliverToHeatTable st) s = answer s ((Taken s st x).deliverToHeatTablePin st x) := congrArg (answer s) (runPin_of_pinDue h hk _)

theorem exec_deliverCopy (h : PinDue s st x rest) (hk : x.pin.isCopy = true) :
    exec (.deliverCopy st) s = answer s ((Taken s st x).deliverCopyPin st x) := congrArg (answer s) (runPin_of_pinDue h hk _)

/-- A command that puts the pin in flight from a state that differs in none of what a pin may not change. -/
theorem inFlight_of_exec {i : Instr} {w : State} {upds : List Upd} (hexec : exec i s = answer s (w.flyHeld st x false upds))
    (hw : w.pinFrame = (Taken s st x).pinFrame) : ∃ t, exec i s = .next t ∧ InFlight s st x upds t :=
  next_after _ s _ _ hexec fun _ ht => inFlight_flyHeld (hw.trans (taken_pinFrame ..)) ht

end

/-- Settles O29: a DELIVER of a chunk that stands runs on that chunk, whatever its destination. -/
theorem deliveries : Obligations.Deliveries := by
  rintro s u st x rest md h rfl rfl
  have hdue := h
  obtain ⟨-, -, -, hgone, hlive⟩ := h
  have hlive : (Taken s st x).req.replay = false := by simp [hlive]
  refine ⟨fun c hc => ⟨fun hk hfree => ?_, fun hk hmovers hnull => ?_, fun hk => ?_, fun hk hnull => ?_⟩, fun hk hmovers hgood => ?_⟩
  · have hunused : (((Taken s st x).stationWrites st x.pin none).1.any fun e => (Taken s st x).slotInUse x.pin.portq e.1) = false :=
      List.any_eq_false.2 fun e he => by simp [hfree e he]
    have hexec := exec_deliverToStation hdue hk
    rw [State.deliverToStationPin, State.deliver_whole hlive hgone hc rfl hunused] at hexec
    obtain ⟨t, ht, hflight⟩ := inFlight_of_exec hexec (by simp)
    refine ⟨t, _, ht, hflight, fun e he => ?_⟩
    obtain ⟨hslot, hnorm⟩ := State.mem_stationUpds he
    exact ⟨List.mem_append_left _ hslot, fun hpresent => List.mem_append_left _ (hnorm hpresent)⟩
  · have hexec := exec_deliverToHbm hdue hk
    rw [State.deliverToHbmPin_whole hlive hgone hc hmovers] at hexec
    obtain ⟨t, ht, hflight⟩ := inFlight_of_exec hexec (by simp)
    refine ⟨fun i hi => ⟨t, ht, ?_⟩, fun hi h2 h3 => ⟨t, ht, ?_⟩⟩
    · rwa [State.hbmUpds_install hnull hi] at hflight
    · rwa [State.hbmUpds_mem hnull hi h2 h3] at hflight
  · have hexec := exec_deliverToComputeScratch hdue hk
    rw [State.deliverToComputeScratchPin, State.deliver_whole hlive hgone hc rfl rfl] at hexec
    exact inFlight_of_exec hexec rfl
  · have hexec := exec_deliverToHeatTable hdue hk
    rw [State.deliverToHeatTablePin, State.deliver_whole hlive hgone hc rfl rfl] at hexec
    obtain ⟨t, ht, hflight⟩ := inFlight_of_exec hexec rfl
    refine ⟨t, ht, ?_⟩
    simpa [State.heatUpds, hnull] using hflight
  · have hexec := exec_deliverCopy hdue hk
    rw [State.deliverCopyPin_whole hlive hgone hmovers hgood] at hexec
    have hbytes : (Taken s st x).hbmRead = s.hbmRead := congrArg (fun f : PinFrame => Memory.readN hbmBlank f.hbm) (taken_pinFrame s st x)
    rw [hbytes] at hexec
    exact inFlight_of_exec hexec rfl

end Sys2Proof.Machine

/-! The pins of selection: HEAT, its settle, SELECT with WIDE set and SELECT (R93, R98, R103, R107, R168). -/

namespace Sys2Proof.Machine

/-! ### Counts aside -/

/-- A state but for its counters and what the step's record has counted and entered. -/
def State.uncounted (s : State) : State := { s with counters := [], srec := StepRec.reset }

@[simp] theorem State.bump_uncounted (s : State) (off u n : Nat) : (s.bump off u n).uncounted = s.uncounted := by
  unfold State.bump State.total
  split <;> rfl

/-! ### What the operations of selection leave as it was -/

section
variable (s : State) (sl t b : Nat)

@[simp] theorem State.onTensor_pinFrame (f : TensorSt → TensorSt) : (s.onTensor sl t f).pinFrame = s.pinFrame := rfl

@[simp] theorem State.onBlock_pinFrame (e : Nat) (f : BlockSt → BlockSt) : (s.onBlock sl e f).pinFrame = s.pinFrame := rfl

@[simp] theorem State.claimArea_pinFrame (a csize n : Nat) (c : Nat → Chunk) : (s.claimArea sl a csize n c).pinFrame = s.pinFrame :=
  foldl_keeps State.pinFrame _ (fun _ _ => State.claim_pinFrame ..) _ _

@[simp] theorem State.markLate_pinFrame : (s.markLate sl t b).pinFrame = s.pinFrame := by
  simp [State.markLate, apply_ite State.pinFrame]

@[simp] theorem State.readVisits_pinFrame : (s.readVisits sl t).pinFrame = s.pinFrame := by
  unfold State.readVisits
  split <;> rfl

@[simp] theorem State.layAreas_pinFrame (csize chunks unit : Nat) (wide : Bool) : (s.layAreas sl t csize chunks unit wide).pinFrame = s.pinFrame := by
  refine foldl_keeps State.pinFrame _ (fun s j => ?_) _ _
  dsimp only
  split <;> simp [apply_ite State.pinFrame]

@[simp] theorem State.openAreas_pinFrame (p : Pin) : (s.openAreas sl p).pinFrame = s.pinFrame := by
  unfold State.openAreas
  dsimp only
  rw [apply_ite State.pinFrame, State.bump_pinFrame, ite_self]
  split <;> simp [apply_ite State.pinFrame]

@[simp] theorem State.writeBlock_pinFrame (wide : Bool) (ks : List Int) : (s.writeBlock sl t b wide ks).pinFrame = s.pinFrame := by
  unfold State.writeBlock
  dsimp only
  split
  · rfl
  · split
    · rfl
    · split <;> simp [apply_ite State.pinFrame]

@[simp] theorem State.selectOne_pinFrame (void : Bool) : (s.selectOne sl t void b).1.pinFrame = s.pinFrame := by
  unfold State.selectOne
  dsimp only
  split <;> simp [apply_ite State.pinFrame, State.offerMax, State.hbmError]

end

/-! ### Blocks that are complete and can be read -/

section
variable {s u : State} {sl t b : Nat}

/-- The sums of a block are readable where its residual is. -/
theorem State.blockX_unread : (s.blockX sl t b).2.2 = (s.residual t b).2 := by
  unfold State.blockX
  dsimp only
  split <;> rfl

/-- A complete block whose residual can be read gives the local heat of its sums, and only counts (R93). -/
theorem State.heatOf_complete (hdone : (s.block sl ((s.image.policyOf t).entry b)).complete = true) (hread : (s.residual t b).2 = false)
    (eh : Int) : ∃ w : State, w.uncounted = s.uncounted ∧
      s.heatOf sl t b eh = (w, (localHeat (sumNat ((s.blockX sl t b).1.map squareUnits)) eh).1) := by
  rw [← State.blockX_unread (sl := sl)] at hread
  simp only [State.heatOf, hdone, hread, Bool.not_true, Bool.false_eq_true, if_false]
  exact ⟨_, by simp [apply_ite State.uncounted], rfl⟩

/-- The local heats of such blocks, in order. -/
theorem State.foldl_heatOf {eh : Int} {bs : List Nat}
    (h : ∀ b ∈ bs, (u.block sl ((u.image.policyOf t).entry b)).complete = true ∧ (u.residual t b).2 = false) {w : State}
    (hw : w.uncounted = u.uncounted) (acc : List Nat) : ∃ v : State, v.uncounted = u.uncounted ∧
      bs.foldl (fun a b => let r := a.1.heatOf sl t b eh; (r.1, a.2 ++ [r.2])) (w, acc) =
        (v, acc ++ bs.map (fun b => (localHeat (sumNat ((u.blockX sl t b).1.map squareUnits)) eh).1)) := by
  induction bs generalizing w acc with
  | nil => exact ⟨w, hw, by simp⟩
  | cons b bs ih =>
    obtain ⟨hdone, hread⟩ := h b List.mem_cons_self
    have hdone' : (w.block sl ((w.image.policyOf t).entry b)).complete = true :=
      (congrArg (fun s : State => (s.block sl ((s.image.policyOf t).entry b)).complete) hw).trans hdone
    have hread' : (w.residual t b).2 = false := (congrArg (fun s : State => (s.residual t b).2) hw).trans hread
    have hsums : w.blockX sl t b = u.blockX sl t b := (congrArg (fun s : State => s.blockX sl t b) hw :)
    obtain ⟨v, hv, hheat⟩ := State.heatOf_complete hdone' hread' eh
    obtain ⟨v', hv', hrest⟩ := ih (fun b hb => h b (List.mem_cons_of_mem _ hb)) (hv.trans hw)
      (acc ++ [(localHeat (sumNat ((u.blockX sl t b).1.map squareUnits)) eh).1])
    refine ⟨v', hv', ?_⟩
    rw [List.foldl_cons, hheat, hsums]
    simpa using hrest

/-! ### A block of a SELECT -/

/-- A SELECT keeps a residual for each of its blocks. -/
theorem State.selectOne_upds (s : State) (sl t : Nat) (void : Bool) (b : Nat) : ∃ r, (s.selectOne sl t void b).2 = [.resid sl t b r] := ⟨_, rfl⟩

theorem State.mem_foldl_selectOne (sl t : Nat) (void : Bool) {bs : List Nat} (hb : b ∈ bs) (w : State) (acc : List Upd) : ∃ r, Upd.resid sl t b r ∈
    (bs.foldl (fun a b => let q := a.1.selectOne sl t void b; (q.1, a.2 ++ q.2)) (w, acc)).2 := by
  have hkept : ∀ (bs : List Nat) (a : State × List Upd), a.2 ⊆ (bs.foldl (fun a b => let q := a.1.selectOne sl t void b; (q.1, a.2 ++ q.2)) a).2 := by
    intro bs
    induction bs with
    | nil => exact fun a => List.Subset.refl _
    | cons b bs ih =>
      exact fun a => List.Subset.trans (List.subset_append_left _ (a.1.selectOne sl t void b).2)
        (ih ((a.1.selectOne sl t void b).1, a.2 ++ (a.1.selectOne sl t void b).2))
  induction bs generalizing w acc with
  | nil => simp at hb
  | cons c bs ih =>
    rw [List.foldl_cons]
    rcases List.mem_cons.1 hb with rfl | hb
    · obtain ⟨r, hr⟩ := w.selectOne_upds sl t void b
      exact ⟨r, hkept bs _ (by simp [hr])⟩
    · exact ih hb _ _

/-- What a change of a tensor keeps of the settle and of what was heard, a block's selection does not see. -/
theorem State.settled_onTensor {f : TensorSt → TensorSt} (hf : ∀ x, (f x).settled = x.settled) (sl' t' : Nat) :
    ((s.onTensor sl t f).tensor sl' t').settled = (s.tensor sl' t').settled := by
  refine getD_map_modify_of_keeps (g := fun x : Slice => (x.tensors.get default t').settled) (fun x => ?_) s.slices sl sl' Slice.reset
  dsimp only
  rw [Tab.get_put]
  split
  next h => rw [h, hf]
  next => rfl

/-- What of a slice is not its tensors stays. -/
theorem sliceField_onTensor {β : Type} {f : TensorSt → TensorSt} {g : Slice → β} (hg : ∀ x ts, g { x with tensors := ts } = g x) {sl' : Nat} :
    g ((s.onTensor sl t f).slice sl') = g (s.slice sl') := by
  refine getD_map_modify_of_keeps (g := g) (fun x => ?_) s.slices sl sl' Slice.reset
  exact hg ..

theorem State.tensor_onTensor {f : TensorSt → TensorSt} (h : sl < s.slices.length) : (s.onTensor sl t f).tensor sl t = f (s.tensor sl t) := by
  rw [State.tensor, State.onTensor, State.onSlice_slice s h, if_pos rfl]
  simp only [Tab.get_put, if_true]
  rfl

theorem State.selectBlock_onTensor {f : TensorSt → TensorSt} (hf : ∀ x, (f x).settled = x.settled) (sl' t' b : Nat) (xs : List Nat)
    (nul void unread : Bool) : (s.onTensor sl t f).selectBlock sl' t' b xs nul void unread = s.selectBlock sl' t' b xs nul void unread := by
  have hwide : (s.onTensor sl t f).wideSet sl' t' = s.wideSet sl' t' := by simp only [State.wideSet, State.settled_onTensor hf]
  have hmain : (s.onTensor sl t f).mainSet sl' t' = s.mainSet sl' t' := by simp only [State.mainSet, State.settled_onTensor hf]; rfl
  have hblocks : ((s.onTensor sl t f).slice sl').blocks = (s.slice sl').blocks :=
    sliceField_onTensor (g := Slice.blocks) fun _ _ => rfl
  have hheat : ((s.onTensor sl t f).slice sl').heat = (s.slice sl').heat :=
    sliceField_onTensor (g := Slice.heat) fun _ _ => rfl
  simp only [State.selectBlock, State.block, hwide, hmain, hblocks, hheat]
  rfl

theorem State.sendsNull_onTensor {f : TensorSt → TensorSt} (hf : ∀ x, (f x).lacking = x.lacking) (t' unit : Nat) :
    (s.onTensor sl t f).sendsNull t' unit = s.sendsNull t' unit := by
  have hlacks : (s.onTensor sl t f).slices.any (fun x => (x.tensors.get default t').lacking) =
      s.slices.any (fun x => (x.tensors.get default t').lacking) := by
    have hkeeps : ∀ x : Slice, (({ x with tensors := x.tensors.put t (f (x.tensors.get default t)) } : Slice).tensors.get default t').lacking =
        (x.tensors.get default t').lacking := by
      intro x
      dsimp only
      rw [Tab.get_put]
      split
      next h => rw [h, hf]
      next => rfl
    simpa [State.onTensor, State.onSlice] using congrArg (fun l : List Bool => l.any id) (map_modify_of_keeps hkeeps s.slices sl)
  simp only [State.sendsNull, hlacks]
  rfl

/-- A complete block whose residual can be read keeps what R103 leaves of its sums. -/
theorem State.selectOne_complete (hdone : (s.block sl ((s.image.policyOf t).entry b)).complete = true) (hread : (s.residual t b).2 = false) :
    (s.selectOne sl t false b).2 = [.resid sl t b (s.selectBlock sl t b (s.blockX sl t b).1
      (s.noVisit sl t || s.sendsNull t ((s.image.policyOf t).unitOf b)) false false).2.resid] := by
  rw [← State.blockX_unread (sl := sl)] at hread
  have hcounted : ∀ n, ((s.bump 4 (unitOfBlock (s.image.policyOf t) t b) n).offerMax sl t b (s.blockX sl t b).1).selectBlock sl t b (s.blockX sl t b).1
      (s.noVisit sl t || ((s.bump 4 (unitOfBlock (s.image.policyOf t) t b) n).offerMax sl t b (s.blockX sl t b).1).sendsNull t
        ((s.image.policyOf t).unitOf b)) false false =
      s.selectBlock sl t b (s.blockX sl t b).1 (s.noVisit sl t || s.sendsNull t ((s.image.policyOf t).unitOf b)) false false := by
    intro n
    rw [State.offerMax, State.selectBlock_onTensor, State.sendsNull_onTensor]
    · exact (congrArg (fun w : State => w.selectBlock sl t b (s.blockX sl t b).1
        (s.noVisit sl t || w.sendsNull t ((s.image.policyOf t).unitOf b)) false false) (s.bump_uncounted _ _ n) :)
    · exact fun _ => rfl
    · exact fun _ => rfl
  simp only [State.selectOne, hdone, hread, Bool.not_true, Bool.false_eq_true, false_and, and_false, if_false, hcounted]

end

/-! ### The pins -/

section
variable {s u : State} {st : Nat} {x : Issue} {rest : List Issue}

/-- HEAT of complete blocks claims its area and puts the runs of its blocks' heats in flight (R93, R502). -/
theorem State.heatPin_complete (hlive : u.req.replay = false) (hgone : x.gone = false) (hres : u.resBusy (pinRes st x.pin) = false)
    (hroom : u.areaFree st x.pin.buf x.pin.portq (ceilDiv (2 * x.pin.arg) (csizeBytes x.pin.portq)) = true) {eh : Int}
    (heh : u.heatExp x.pin.pitch = some eh)
    (h : ∀ b ∈ (u.image.policyOf x.pin.pitch).pinBlocks st x.pin.chunk x.pin.arg,
      (u.block st ((u.image.policyOf x.pin.pitch).entry b)).complete = true ∧ (u.residual x.pin.pitch b).2 = false) :
    ∃ w : State, w.pinFrame = u.pinFrame ∧ u.heatPin st x = w.flyHeld st x false
      ((((List.range (ceilDiv (2 * x.pin.arg) (csizeBytes x.pin.portq))).map (fun j => (areaUnit x.pin.buf x.pin.portq j).1)).zip
        (pieces (csizeBytes x.pin.portq / 2) (((u.image.policyOf x.pin.pitch).pinBlocks st x.pin.chunk x.pin.arg).map (fun b =>
          (localHeat (sumNat ((u.blockX st x.pin.pitch b).1.map squareUnits)) (u.heatExpRaw x.pin.pitch)).1)))).map (fun e =>
            Upd.buf st e.1 .ready (heatChunk (u.image.policyOf x.pin.pitch) u.seq.step (some eh) (u.heatExpRaw x.pin.pitch) e.2
              (csizeBytes x.pin.portq / 2)))) := by
  obtain ⟨v, hv, hheats⟩ := State.foldl_heatOf (eh := u.heatExpRaw x.pin.pitch) h rfl []
  have hblocks : u.heatBlocks st x.pin = (v, _) := hheats
  refine ⟨v.claimArea st x.pin.buf x.pin.portq (ceilDiv (2 * x.pin.arg) (csizeBytes x.pin.portq)) (fun _ => default),
    (State.claimArea_pinFrame ..).trans (congrArg State.pinFrame hv :), ?_⟩
  simp only [State.heatPin, hres, hroom, Bool.not_true]
  refine (State.issuePin_whole hlive hgone st _).trans ?_
  simp only [Bool.false_eq_true, if_false, hblocks, heh, Option.isNone_some, heatChunks, List.zip_map_right, List.map_map, List.nil_append]
  rfl

/-- The settle fixes the tensor's sets on the slice by the codes (R98). -/
theorem State.heatSettlePin_whole (hlive : u.req.replay = false) (hgone : x.gone = false) (hres : u.resBusy (pinRes st x.pin) = false) :
    ∃ w : State, w.pinFrame = u.pinFrame ∧ u.heatSettlePin st x = w.flyHeld st x false
      [.settle st x.pin.pitch (settledOn (u.image.policyOf x.pin.pitch) st (settleOf (u.image.policyOf x.pin.pitch) (u.heatCodes x.pin.pitch)))] := by
  simp only [State.heatSettlePin, hres]
  rw [show firstRow false false false = 0 from rfl, State.issuePin_whole hlive hgone, if_neg Bool.false_ne_true]
  exact ⟨_, State.onTensor_pinFrame .., rfl⟩

/-- SELECT with WIDE set claims its area and gives it to the tensor (R168). -/
theorem State.selectWidePin_whole (hlive : u.req.replay = false) (hgone : x.gone = false)
    (hroom : u.areaFree st x.pin.buf x.pin.portq x.pin.arg = true) : u.selectWidePin st x =
      ((u.claimArea st x.pin.buf x.pin.portq x.pin.arg (fun _ => default)).onTensor st x.pin.pitch
        (fun t => { t with side := some (x.pin.buf, x.pin.portq, x.pin.arg) })).fly st x 0 false [] := by
  simp only [State.selectWidePin, hroom]
  exact (State.issuePin_whole hlive hgone st _).trans (if_neg Bool.false_ne_true)

/-- The state in which a SELECT that is not void takes its blocks: its tensor's areas are open. -/
def State.opened (u : State) (st : Nat) (p : Pin) : State := if (u.tensor st p.pitch).main.isNone then u.openAreas st p else u

/-- What the blocks of a SELECT that is not void leave. -/
def State.selectAll (u : State) (st : Nat) (p : Pin) : State × List Upd :=
  ((u.image.policyOf p.pitch).pinBlocks st p.chunk p.arg).foldl (fun a b => let q := a.1.selectOne st p.pitch false b; (q.1, a.2 ++ q.2))
    (u.opened st p, [])

theorem State.selectAll_pinFrame (u : State) (st : Nat) (p : Pin) : (u.selectAll st p).1.pinFrame = u.pinFrame := by
  refine (foldl_keeps (fun a : State × List Upd => a.1.pinFrame) _ (fun a b => ?_) _ _).trans ?_
  · exact State.selectOne_pinFrame ..
  · simp [State.opened, apply_ite State.pinFrame]

/-- SELECT of a tensor whose area is open or free and whose settle stands takes its blocks in order (R103, R107). -/
theorem State.selectPin_whole (hlive : u.req.replay = false) (hgone : x.gone = false) (hres : u.resBusy (pinRes st x.pin) = false)
    (hroom : (u.tensor st x.pin.pitch).main.isSome = true ∨
      u.areaFree st x.pin.buf x.pin.portq ((u.image.policyOf x.pin.pitch).mainChunks st (csizeBytes x.pin.portq)) = true)
    (hsettled : u.needsSettle st x.pin.pitch = false ∨
      ((u.tensor st x.pin.pitch).settled.isSome = true ∧ (u.tensor st x.pin.pitch).voidSettle = false)) :
    u.selectPin st x = (u.selectAll st x.pin).1.flyHeld st x false ((u.selectAll st x.pin).2 ++
      (u.selectAll st x.pin).1.selectCloses st x ((u.image.policyOf x.pin.pitch).pinBlocks st x.pin.chunk x.pin.arg)) := by
  have hfree : ((u.tensor st x.pin.pitch).main.isSome ||
      u.areaFree st x.pin.buf x.pin.portq ((u.image.policyOf x.pin.pitch).mainChunks st (csizeBytes x.pin.portq))) = true := by simpa using hroom
  have hready : (!u.needsSettle st x.pin.pitch || (u.tensor st x.pin.pitch).settled.isSome || (u.tensor st x.pin.pitch).voidSettle) = true := by
    rcases hsettled with h | ⟨h, -⟩ <;> simp [h]
  have hwhole : (u.needsSettle st x.pin.pitch && (u.tensor st x.pin.pitch).voidSettle) = false := by
    rcases hsettled with h | ⟨-, h⟩ <;> simp [h]
  simp only [State.selectPin, hres, hfree, hready, Bool.not_true]
  refine (State.issuePin_whole hlive hgone st _).trans ?_
  simp only [hwhole, Bool.or_self, Bool.false_eq_true, if_false]
  rfl

/-! ### The rows -/

theorem exec_heat (h : PinDue s st x rest) (hop : x.pin.op = 7) (haux : x.pin.aux = false) :
    exec (.heat st) s = answer s ((Taken s st x).heatPin st x) := congrArg (answer s) (runPin_of_pinDue h (by simp [hop, haux]) _)

theorem exec_heatSettle (h : PinDue s st x rest) (hop : x.pin.op = 7) (haux : x.pin.aux = true) :
    exec (.heatSettle st) s = answer s ((Taken s st x).heatSettlePin st x) := congrArg (answer s) (runPin_of_pinDue h (by simp [hop, haux]) _)

theorem exec_selectWide (h : PinDue s st x rest) (hop : x.pin.op = 6) (hwide : x.pin.wide = true) :
    exec (.selectWide st) s = answer s ((Taken s st x).selectWidePin st x) := congrArg (answer s) (runPin_of_pinDue h (by simp [hop, hwide]) _)

theorem exec_select (h : PinDue s st x rest) (hop : x.pin.op = 6) (hwide : x.pin.wide = false) :
    exec (.select st) s = answer s ((Taken s st x).selectPin st x) := congrArg (answer s) (runPin_of_pinDue h (by simp [hop, hwide]) _)

end

section
variable {s : State} {st : Nat} {x : Issue} {rest : List Issue}

/-- The fences of the slices, in order. -/
def State.fences (s : State) : List Bool := s.slices.map (·.fenced)

theorem State.claimArea_fences (s : State) (sl a csize n : Nat) (c : Nat → Chunk) : (s.claimArea sl a csize n c).fences = s.fences := by
  refine foldl_keeps State.fences _ (fun s j => ?_) _ _
  refine map_modify_of_keeps (g := Slice.fenced) (fun _ => ?_) s.slices sl
  rfl

theorem taken_fences : (Taken s st x).fences = s.fences := by
  unfold Taken State.noteLast
  split
  · refine map_modify_of_keeps (g := Slice.fenced) (fun _ => ?_) s.slices st
    rfl
  · rfl

theorem State.onTensor_fences (s : State) (sl t : Nat) (f : TensorSt → TensorSt) : (s.onTensor sl t f).fences = s.fences := by
  refine map_modify_of_keeps (g := Slice.fenced) (fun _ => ?_) s.slices sl
  rfl

theorem State.length_of_fences {s u : State} (h : u.fences = s.fences) : u.slices.length = s.slices.length := by
  simpa [State.fences] using congrArg List.length h

theorem State.fenced_of_fences {s u : State} (h : u.fences = s.fences) (i : Nat) : (u.slice i).fenced = (s.slice i).fenced := by
  have hfence : ∀ w : State, (w.slice i).fenced = w.fences.getD i Slice.reset.fenced := fun w => (List.getD_map _ _ Slice.fenced).symm
  rw [hfence, hfence, h]

/-- A SELECT with WIDE set is in flight at once, and its tensor has the side area. -/
theorem inFlight_selectWide (h : PinDue s st x rest) (hop : x.pin.op = 6) (hwide : x.pin.wide = true)
    (hroom : (Taken s st x).areaFree st x.pin.buf x.pin.portq x.pin.arg = true) (hst : st < s.slices.length)
    (hfenced : (s.slice st).fenced = false) : ∃ t, exec (.selectWide st) s = .next t ∧
      (t.tensor st x.pin.pitch).side = some (x.pin.buf, x.pin.portq, x.pin.arg) ∧
      t.seq.flights = s.seq.flights ++ [⟨s.belay.count, st, x.sec, x.index, x.pin, false, s.belay.count, []⟩] := by
  have hexec := exec_selectWide h hop hwide
  obtain ⟨-, -, -, hgone, hlive⟩ := h
  rw [State.selectWidePin_whole (by simp [hlive]) hgone hroom] at hexec
  refine next_after _ s _ _ hexec fun t ht => ?_
  generalize hv : (Taken s st x).claimArea st x.pin.buf x.pin.portq x.pin.arg (fun _ => default) = v at ht
  have hfences : v.fences = s.fences := by rw [← hv, State.claimArea_fences, taken_fences]
  have hframe : v.pinFrame = s.pinFrame := by rw [← hv, State.claimArea_pinFrame, taken_pinFrame]
  generalize hf : (fun y : TensorSt => { y with side := some (x.pin.buf, x.pin.portq, x.pin.arg) }) = f at ht
  refine ⟨?_, ?_⟩
  · have hkept := ht.slice st (((State.fenced_of_fences (State.onTensor_fences v st x.pin.pitch f) st).trans
      (State.fenced_of_fences hfences st)).trans hfenced)
    have htensor := State.tensor_onTensor (f := f) (t := x.pin.pitch) ((State.length_of_fences hfences).symm ▸ hst)
    rw [State.tensor, hkept]
    refine (congrArg TensorSt.side htensor).trans ?_
    rw [← hf]
  · refine (congrArg PinFrame.flights ht.pinFrame).trans ?_
    have hcount : v.count = s.belay.count := State.count_congr hframe
    have hflights : v.seq.flights = s.seq.flights := State.flights_congr hframe
    rw [← hcount, ← hflights]
    rfl

end

/-- Settles O31: HEAT, the settle and SELECT run whole; a SELECT of one complete block whose area is open reads its sums as they stand. -/
theorem selections : Obligations.Selections := by
  rintro s u st x rest pol h rfl rfl
  have hdue := h
  obtain ⟨-, -, -, hgone, hlive⟩ := h
  have hlive : (Taken s st x).req.replay = false := by simp [hlive]
  refine ⟨?_, fun hop haux hres => ?_, fun hop hwide hroom hst hfenced => inFlight_selectWide hdue hop hwide hroom hst hfenced,
    fun hop hwide hres hroom hsettled => ?_⟩
  · rintro n eh hop haux rfl hres hroom heh hblocks
    have hexec := exec_heat hdue hop haux
    obtain ⟨w, hw, hpin⟩ := State.heatPin_complete hlive hgone hres hroom heh hblocks
    exact inFlight_of_exec (hpin ▸ hexec) hw
  · have hexec := exec_heatSettle hdue hop haux
    obtain ⟨w, hw, hpin⟩ := State.heatSettlePin_whole hlive hgone hres
    exact inFlight_of_exec (hpin ▸ hexec) hw
  · have hexec := exec_select hdue hop hwide
    rw [State.selectPin_whole hlive hgone hres hroom hsettled] at hexec
    obtain ⟨t, ht, hflight⟩ := inFlight_of_exec hexec (State.selectAll_pinFrame ..)
    refine ⟨⟨t, _, ht, hflight, fun b hb => ?_⟩, fun b hb hmain hdone hread => ?_⟩
    · obtain ⟨r, hr⟩ := State.mem_foldl_selectOne st x.pin.pitch false hb ((Taken s st x).opened st x.pin) []
      exact ⟨r, List.mem_append_left _ hr⟩
    · have hopen : (Taken s st x).opened st x.pin = Taken s st x := if_neg (by simpa [Option.isSome_iff_ne_none] using hmain)
      have hall : ((Taken s st x).selectAll st x.pin).2 = ((Taken s st x).selectOne st x.pin.pitch false b).2 := by
        rw [State.selectAll, hb, hopen]
        rfl
      rw [hall, State.selectOne_complete hdone hread] at hflight
      exact ⟨t, _, ht, hflight⟩

end Sys2Proof.Machine

/-! Gradient and token tiles at the ingress ports (R81, R88, R92, R243, Table 3-2). -/

namespace Sys2Proof.Machine

/-! ### What is recorded of a tile -/

/-- A state but for its counters, its cairn log and what the step's record holds. -/
def State.unlogged (s : State) : State := { s.uncounted with cairn := default }

section
variable (s : State)

@[simp] theorem State.bump_unlogged (off u n : Nat) : (s.bump off u n).unlogged = s.unlogged :=
  (congrArg (fun w : State => ({ w with cairn := default } : State)) (s.bump_uncounted off u n) :)

@[simp] theorem State.onRec_unlogged (f : StepRec → StepRec) : (s.onRec f).unlogged = s.unlogged := rfl

@[simp] theorem State.raise_unlogged (c src q a b : Nat) : (s.raise c src q a b).unlogged = s.unlogged := rfl

@[simp] theorem State.intakeItem_unlogged (t b mb : Nat) (after earlier ooo : Bool) :
    (s.intakeItem t b mb after earlier ooo).unlogged = s.unlogged := rfl

end

/-! ### A tile into the residual store or the intake area -/

section
variable {s : State} {sl t b : Nat}

theorem State.hbmError_unlogged (s : State) (src a : Nat) : (s.hbmError src a).unlogged = s.unlogged := s.raise_unlogged ..

/-- A tile added into the residual store changes that block of HBM, and counts (R88). -/
theorem State.addResidual_eq (s : State) (sl t b : Nat) (g : List Nat) : ∃ w : State, w.unlogged = s.unlogged ∧
    s.addResidual sl t b g = w.setResidual t b (addTile (s.residual t b).1 g).1 := by
  refine ⟨_, ?_, rfl⟩
  simp [apply_ite State.unlogged, State.hbmError_unlogged]

/-- The state once a tile's elements have been counted, and its summary where it disagrees reported (R76). -/
def State.tileSeen (s : State) (sl : Nat) (h : TileHead) (nf : Nat) : State :=
  let s := ((s.bump 0x40 (unitWord h.tensor 0 0) 1).bump 0x2C (unitWord h.tensor 0 0) nf).onRec (fun r => { r with nfLocal := r.nfLocal + nf })
  if nf ≠ h.nf then s.raise 0x12 (sliceSource 1 sl) 0 h.tensor (nf % 2 ^ 16 + h.nf * 2 ^ 16) else s

@[simp] theorem State.tileSeen_unlogged (s : State) (sl : Nat) (h : TileHead) (nf : Nat) : (s.tileSeen sl h nf).unlogged = s.unlogged := by
  simp [State.tileSeen, apply_ite State.unlogged]

theorem State.block_onBlock {e : Nat} {f : BlockSt → BlockSt} (hin : sl < s.slices.length) : (s.onBlock sl e f).block sl e = f (s.block sl e) := by
  rw [State.block, State.onBlock, State.onSlice_slice s hin, if_pos rfl]
  simp only [Tab.get_put, if_true]
  rfl

theorem State.onBlock_fenced (e : Nat) (f : BlockSt → BlockSt) (j : Nat) : ((s.onBlock sl e f).slice j).fenced = (s.slice j).fenced := by
  refine getD_map_modify_of_keeps (g := Slice.fenced) (fun _ => ?_) s.slices sl j Slice.reset
  rfl

theorem State.onBlock_tiles (e : Nat) (f : BlockSt → BlockSt) (j : Nat) : ((s.onBlock sl e f).slice j).tiles = (s.slice j).tiles := by
  refine getD_map_modify_of_keeps (g := Slice.tiles) (fun _ => ?_) s.slices sl j Slice.reset
  rfl

theorem State.forcedLate_live (hlive : s.req.replay = false) : s.forcedLate t b = false := by simp [State.forcedLate, hlive]

/-- A tile of the step that no SELECT has come before is added, or staged, and recorded (R76, R87, R88). -/
theorem State.takeTile_unselected {h : TileHead} {payload : List Byte} (hlive : s.req.replay = false)
    (hfirst : (s.block sl ((s.image.policyOf h.tensor).entry h.block)).selected = false) : ∃ w : State, w.unlogged = s.unlogged ∧
      s.takeTile sl h payload false =
        if (s.image.policyOf h.tensor).acc then w.addResidual sl h.tensor h.block (tileElems h.fmt h.count payload).1
        else if h.fmt > 3 then w
        else w.onSlice sl (fun x => { x with tiles := x.tiles ++ [⟨h.tensor, h.block, (tileElems h.fmt h.count payload).1⟩] }) := by
  have hseen := s.tileSeen_unlogged sl h (tileElems h.fmt h.count payload).2
  have hlate : (s.tileSeen sl h (tileElems h.fmt h.count payload).2).forcedLate h.tensor h.block = false :=
    State.forcedLate_live ((congrArg (fun w : State => w.req.replay) hseen).trans hlive)
  refine ⟨(s.tileSeen sl h (tileElems h.fmt h.count payload).2).intakeItem h.tensor h.block h.mb false false
    (s.block sl ((s.image.policyOf h.tensor).entry h.block)).outOfOrder, by simp, ?_⟩
  unfold State.tileSeen at hlate
  simp only [State.takeTile, hfirst, hlate, Bool.not_false, Bool.true_and, Bool.false_and, Bool.false_or, Bool.false_eq_true, if_false, or_false]
  rfl

end

/-! ### A gradient tile by Table 3-2 -/

section
variable {s : State} {sl : Nat} {h : TileHead} {payload : List Byte}

/-- The first condition of 1 to 6 of Table 3-2 that a tile fails, or 0. -/
def tileFault (pol : Policy) (sl step : Nat) (h : TileHead) : Nat :=
  if h.kind = 2 ∨ h.kind = 3 then 1 else if h.tensor ≥ 65536 ∨ pol.mode = 0 then 2 else if h.block ≥ pol.n then 3
  else if (pol.home h.block).1 ≠ sl then 4 else if h.count ≠ pol.blockElems h.block then 5
  else if tagOrder h.tag step = .later then 6 else 0

/-- A check that rejects for `k`, before checks that reject for `n` where that is not 0. -/
theorem ite_rejects {σ : Type} {c : Prop} [Decidable c] {f : Nat → σ} {r : σ} {k n : Nat} (hrest : n ≠ 0 → r = f n)
    (hn : (if c then k else n) ≠ 0) : (if c then f k else r) = f (if c then k else n) := by
  by_cases hc : c
  · rw [if_pos hc, if_pos hc]
  · rw [if_neg hc] at hn
    rw [if_neg hc, if_neg hc, hrest hn]

/-- A tile that fails one of them is rejected for it. -/
theorem State.gradientTile_fault (hf : tileFault (s.image.policyOf h.tensor) sl s.seq.step h ≠ 0) :
    s.gradientTile sl h payload = s.tileReject sl h.tensor h.block (tileFault (s.image.policyOf h.tensor) sl s.seq.step h) := by
  refine ite_rejects (f := s.tileReject sl h.tensor h.block) (fun hn => ?_) hf
  refine ite_rejects (f := s.tileReject sl h.tensor h.block) (fun hn => ?_) hn
  refine ite_rejects (f := s.tileReject sl h.tensor h.block) (fun hn => ?_) hn
  refine ite_rejects (f := s.tileReject sl h.tensor h.block) (fun hn => ?_) hn
  refine ite_rejects (f := s.tileReject sl h.tensor h.block) (fun hn => ?_) hn
  exact ite_rejects (f := s.tileReject sl h.tensor h.block) (fun hn => absurd rfl hn) hn

section
variable (hk : h.kind = 0) (ht : h.tensor < 65536) (hmode : (s.image.policyOf h.tensor).mode ≠ 0) (hb : h.block < (s.image.policyOf h.tensor).n)
  (hhome : ((s.image.policyOf h.tensor).home h.block).1 = sl) (hcount : h.count = (s.image.policyOf h.tensor).blockElems h.block)
  (htag : tagOrder h.tag s.seq.step = .same) (hlive : s.req.replay = false)
include hk ht hmode hb hhome hcount htag hlive

/-- A tile of the step of a tensor with ACC set whose micro-batch is accepted is taken (R90). -/
theorem State.gradientTile_taken {n : BlockSt} (hacc : (s.image.policyOf h.tensor).acc = true)
    (hn : (s.block sl ((s.image.policyOf h.tensor).entry h.block)).accept (s.image.policyOf h.tensor).mbs h.mb h.final = some n) :
    ∃ w : State, w.unlogged = s.unlogged ∧
      s.gradientTile sl h payload = (w.onBlock sl ((s.image.policyOf h.tensor).entry h.block) (fun _ => n)).takeTile sl h payload false := by
  have hlate := State.forcedLate_live hlive (t := h.tensor) (b := h.block)
  simp only [State.gradientTile, hk, hmode, hhome, hcount, htag, hacc, hn, hlate, Nat.not_le.2 ht, Nat.not_le.2 hb, Bool.not_false, Bool.and_true,
    reduceCtorEq, OfNat.zero_ne_ofNat, ne_eq, not_true_eq_false, or_self, if_false, if_true]
  exact ⟨_, by simp [apply_ite State.unlogged], rfl⟩

/-- Before the block's SELECT it is added into the residual store, and its block has advanced (R88). -/
theorem State.gradientTile_added {n : BlockSt} (hacc : (s.image.policyOf h.tensor).acc = true) (hin : sl < s.slices.length)
    (hn : (s.block sl ((s.image.policyOf h.tensor).entry h.block)).accept (s.image.policyOf h.tensor).mbs h.mb h.final = some n)
    (hfirst : n.selected = false) : ∃ v : State, v.unlogged = (s.onBlock sl ((s.image.policyOf h.tensor).entry h.block) (fun _ => n)).unlogged ∧
      s.gradientTile sl h payload =
        v.setResidual h.tensor h.block (addTile (s.residual h.tensor h.block).1 (tileElems h.fmt h.count payload).1).1 := by
  obtain ⟨w, hw, htaken⟩ := State.gradientTile_taken (payload := payload) hk ht hmode hb hhome hcount htag hlive hacc hn
  have hadvanced : (w.onBlock sl ((s.image.policyOf h.tensor).entry h.block) (fun _ => n)).unlogged =
      (s.onBlock sl ((s.image.policyOf h.tensor).entry h.block) (fun _ => n)).unlogged :=
    (congrArg (fun y : State => y.onBlock sl ((s.image.policyOf h.tensor).entry h.block) (fun _ => n)) hw :)
  rw [htaken]
  generalize w.onBlock sl ((s.image.policyOf h.tensor).entry h.block) (fun _ => n) = w₁ at hadvanced ⊢
  have hpol : w₁.image.policyOf h.tensor = s.image.policyOf h.tensor := (congrArg (fun y : State => y.image.policyOf h.tensor) hadvanced :)
  have hblock : w₁.block sl ((s.image.policyOf h.tensor).entry h.block) = n :=
    (congrArg (fun y : State => y.block sl ((s.image.policyOf h.tensor).entry h.block)) hadvanced :).trans
      (State.block_onBlock (f := fun _ => n) hin)
  obtain ⟨w₂, hw₂, hplace⟩ := State.takeTile_unselected (s := w₁) (sl := sl) (h := h) (payload := payload)
    ((congrArg (fun y : State => y.req.replay) hadvanced).trans hlive) (by rw [hpol, hblock, hfirst])
  obtain ⟨v, hv, hadd⟩ := w₂.addResidual_eq sl h.tensor h.block (tileElems h.fmt h.count payload).1
  have hresidual : w₂.residual h.tensor h.block = s.residual h.tensor h.block :=
    (congrArg (fun y : State => y.residual h.tensor h.block) (hw₂.trans hadvanced) :)
  refine ⟨v, hv.trans (hw₂.trans hadvanced), ?_⟩
  rw [hplace, hpol, if_pos hacc, hadd, hresidual]

/-- A tile of the step of a tensor without ACC, the first of its block, is staged where the intake area has room (R92). -/
theorem State.gradientTile_staged (hacc : (s.image.policyOf h.tensor).acc = false) (hmb : h.mb = 0) (hfinal : h.final = true)
    (hin : sl < s.slices.length) (hnew : (s.block sl ((s.image.policyOf h.tensor).entry h.block)).complete = false)
    (hfirst : (s.block sl ((s.image.policyOf h.tensor).entry h.block)).selected = false) (hfmt : h.fmt ≤ 3)
    (hroom : s.intakeFull sl h.tensor h.block = false) :
    ∃ v : State, v.unlogged = (s.onBlock sl ((s.image.policyOf h.tensor).entry h.block) (fun x => { x with complete := true })).unlogged ∧
      s.gradientTile sl h payload =
        v.onSlice sl (fun x => { x with tiles := x.tiles ++ [⟨h.tensor, h.block, (tileElems h.fmt h.count payload).1⟩] }) := by
  have hlate := State.forcedLate_live hlive (t := h.tensor) (b := h.block)
  have htaken : s.gradientTile sl h payload =
      (s.onBlock sl ((s.image.policyOf h.tensor).entry h.block) (fun x => { x with complete := true })).takeTile sl h payload false := by
    simp only [State.gradientTile, hk, hmode, hhome, hcount, htag, hacc, hmb, hfinal, hnew, hroom, hlate, Nat.not_le.2 ht, Nat.not_le.2 hb,
      Bool.not_false, Bool.not_true, reduceCtorEq, OfNat.zero_ne_ofNat, ne_eq, not_true_eq_false, or_self, and_false,
      Bool.false_eq_true, if_false]
  have hblock := State.block_onBlock hin (e := (s.image.policyOf h.tensor).entry h.block) (f := fun x => { x with complete := true })
  obtain ⟨v, hv, hplace⟩ := State.takeTile_unselected (s := s.onBlock sl ((s.image.policyOf h.tensor).entry h.block) (fun x => { x with complete := true }))
    (sl := sl) (h := h) (payload := payload) hlive ((congrArg BlockSt.selected hblock).trans hfirst)
  exact ⟨v, hv, htaken.trans (hplace.trans ((if_neg (Bool.eq_false_iff.1 hacc)).trans (if_neg (Nat.not_lt.2 hfmt))))⟩

end

/-! ### The row -/

/-- A tile at a port of the engine, outside RUNNING or fenced, is counted and discarded (Table 14-25). -/
theorem State.tile_stopped {header : BitVec 128} (hup : s.coreUp = true) (hsl : sl < 8)
    (hstop : s.power.st ≠ .running ∨ (s.slice sl).fenced = true) : s.tile sl header payload = s.bump 0x3A0 noUnit 1 := by
  have hstop' : !s.isRunning ∨ (s.slice sl).fenced = true := by simpa [State.isRunning] using hstop
  rw [State.tile, if_neg (by simp [hup, hsl]), if_pos hstop']

section
variable {header : BitVec 128} (hrun : s.power.st = .running) (hfence : (s.slice sl).fenced = false) (hsl : sl < 8)
include hrun hfence hsl

/-- A tile at a port of a running engine goes by its kind. -/
theorem State.tile_running : s.tile sl header payload = if (TileHead.parse header).kind = 1 then s.tokenTile sl (TokHead.parse header) payload
    else s.tileInOrder (sl, header, payload) := by
  simp [State.tile, State.coreUp, State.isRunning, hrun, hfence, Nat.not_le.2 hsl]

/-- A gradient tile is judged as it comes while no record is replayed. -/
theorem State.tile_gradient (hlive : s.req.replay = false) (hwait : s.req.replayWait = []) (hk : (TileHead.parse header).kind ≠ 1)
    (hkept : (s.gradientTile sl (TileHead.parse header) payload).req = s.req) :
    s.tile sl header payload = s.gradientTile sl (TileHead.parse header) payload := by
  rw [State.tile_running hrun hfence hsl, if_neg hk]
  simp only [State.tileInOrder, State.orderedTile, hlive, Bool.false_and, Bool.false_eq_true, if_false, if_true, hkept, hwait, List.length_nil,
    State.waitingTiles]

end

end

/-! ### A token tile by Table 7-4 -/

/-- A vector tile of a token of the first batch that is in order and in time is staged (R243). -/
theorem State.tokenTile_staged {s : State} {sl : Nat} {k : TokHead} {payload : List Byte} {l : Nat} {d : Routed} (hl : l = (k.stream - 0x10000) / 2)
    (hd : d = s.image.layerOf l) (hlive : s.req.replay = false) (hlow : 0x10000 ≤ k.stream) (hhigh : k.stream ≤ 0x10000 + 8191)
    (hvalid : d.valid = true) (hsub : k.sub = 0) (hfmt : k.fmt = d.vfmt) (hfinal : k.final = false) (hresv : k.resv = 0)
    (hhome : sl = d.homeSlice k.mb) (hcount : k.count = d.h) (htag : tagOrder k.tag s.seq.step = .same) (hindex : k.index < d.tmax)
    (hbatch : k.batch = 0) (hnew : ∀ y ∈ s.tok.last, y.layer = l → y.mb = k.mb → y.sub ≠ 0) (hearly : s.tokLate d l k (k.stream % 2) = false) :
    ∃ last tiles, s.tokenTile sl k payload = { s with tok := { s.tok with
      last, tiles := tiles ++ [⟨l, k.mb, k.batch, 0, k.stream % 2, k.index, k.choice, k.position, payload⟩] } } := by
  subst hl hd
  have hfirst : ∀ q r : TokLast → Bool, s.tok.last.any (fun x => (x.layer == (k.stream - 0x10000) / 2 && x.mb == k.mb && x.sub == 0 &&
      x.pass == k.stream % 2) && q x && r x) = false := by
    intro q r
    refine List.any_eq_false.2 fun x hx => ?_
    have := hnew x hx
    simp only [Bool.and_eq_true, beq_iff_eq]
    tauto
  have hfirst' : ∀ r : TokLast → Bool, s.tok.last.any (fun x => (x.layer == (k.stream - 0x10000) / 2 && x.mb == k.mb && x.sub == 0 &&
      x.pass == k.stream % 2) && r x) = false := fun r => by simpa using hfirst (fun _ => true) r
  have hlow' : ¬k.stream < 0x10000 := Nat.not_lt.2 hlow
  have hhigh' : ¬k.stream > 0x10000 + 8191 := Nat.not_lt.2 hhigh
  have hindex' : ¬k.index ≥ (s.image.layerOf ((k.stream - 0x10000) / 2)).tmax := Nat.not_le.2 hindex
  simp only [State.tokenTile, hlow', hhigh', hindex', hvalid, hsub, hfmt, hfinal, hresv, ← hhome, hcount, htag, hbatch, hearly, hlive,
    hfirst, hfirst']
  simp

/-! ### The statement -/

section
variable {s : State} {sl : Nat} {header : BitVec 128} {payload : List Byte} {h : TileHead} (hh : h = TileHead.parse header)
include hh

/-- A gradient tile of a running engine that is judged and taken into a state whose slice is not fenced. -/
theorem exec_gradientTile (hrun : s.power.st = .running) (hfence : (s.slice sl).fenced = false) (hsl : sl < 8) (hlive : s.req.replay = false)
    (hwait : s.req.replayWait = []) (hk : h.kind ≠ 1) {e : State} (he : s.gradientTile sl h payload = e) (hreq : e.req = s.req) :
    exec (.gradientTile sl header payload) s = answer s e := by
  subst hh
  refine congrArg (answer s) ((State.tile_gradient hrun hfence hsl hlive hwait hk ?_).trans he)
  rw [he, hreq]

end

/-- Settles O40: a tile is discarded at a stopped port, rejected for the first condition it fails, or taken. -/
theorem tiles : Obligations.Tiles := by
  rintro s sl header payload h pol hh rfl hsl hslices
  have hin : sl < s.slices.length := hslices.symm ▸ hsl
  refine ⟨?_, fun hrun hfence hlive hwait hk => ⟨?_, ?_⟩, ?_⟩
  · rintro c (rfl | rfl) hup hstop
    · exact next_settle _ s _ (congrArg (answer s) (State.tile_stopped hup hsl hstop)) (State.bump_pending ..)
    · exact next_settle _ s _ (congrArg (answer s) (State.tile_stopped hup hsl hstop)) (State.bump_pending ..)
  · rintro reason rfl hf
    refine next_settle _ s _ (exec_gradientTile hh hrun hfence hsl hlive hwait hk (State.gradientTile_fault hf) ?_) ?_
    · simp
    · simp
  · rintro blk hk ht hmode hb hhome hcount htag rfl hfirst
    refine ⟨fun n hacc hn => ?_, fun hacc hmb hfinal hnew hfmt hroom => ?_⟩
    · obtain ⟨v, hv, htile⟩ := State.gradientTile_added (payload := payload) hk ht hmode hb hhome hcount htag hlive hacc hin hn
        (by rw [BlockSt.accept_some hn]; exact hfirst)
      have hreq : v.req = s.req := (congrArg State.req hv :)
      have hhbm : v.hbm = s.hbm := (congrArg State.hbm hv :)
      have hpol : v.image.policyOf h.tensor = s.image.policyOf h.tensor := (congrArg (fun y : State => y.image.policyOf h.tensor) hv :)
      have hslice : v.slice sl = (s.onBlock sl ((s.image.policyOf h.tensor).entry h.block) (fun _ => n)).slice sl :=
        (congrArg (fun y : State => y.slice sl) hv :)
      have hopen : (v.slice sl).fenced = false := by rw [hslice, State.onBlock_fenced, hfence]
      refine next_after _ s _ _ (exec_gradientTile hh hrun hfence hsl hlive hwait (by simp [hk]) htile hreq) fun t ht => ⟨?_, ?_⟩
      · rw [State.block, ht.slice sl hopen]
        refine (congrArg (fun y : Slice => y.blocks.get default _) hslice).trans ?_
        exact State.block_onBlock (f := fun _ => n) hin
      · rw [ht.hbm, State.setResidual, hpol, ← hhbm]
        rfl
    · obtain ⟨v, hv, htile⟩ := State.gradientTile_staged (payload := payload) hk ht hmode hb hhome hcount htag hlive hacc hmb hfinal hin hnew
        hfirst hfmt hroom
      have hreq : v.req = s.req := (congrArg State.req hv :)
      have hslices' : v.slices = (s.onBlock sl ((s.image.policyOf h.tensor).entry h.block) (fun x => { x with complete := true })).slices :=
        (congrArg State.slices hv :)
      generalize hf : (fun x : BlockSt => { x with complete := true }) = f at hslices'
      have hslice : v.slice sl = (s.onBlock sl ((s.image.policyOf h.tensor).entry h.block) f).slice sl :=
        congrArg (fun l : List Slice => l.getD sl Slice.reset) hslices'
      have hstaged := v.onSlice_slice (i := sl) (by simpa [hslices', State.onBlock, State.onSlice] using hin)
        (fun x => { x with tiles := x.tiles ++ [⟨h.tensor, h.block, (tileElems h.fmt h.count payload).1⟩] }) sl
      rw [if_pos rfl] at hstaged
      refine next_after _ s _ _ (exec_gradientTile hh hrun hfence hsl hlive hwait (by simp [hk]) htile hreq) fun t ht => ?_
      have hopen : (v.slice sl).fenced = false := by rw [hslice, State.onBlock_fenced, hfence]
      have hkept := (ht.slice sl ((congrArg Slice.fenced hstaged).trans hopen)).trans hstaged
      refine ⟨?_, ?_, ht.hbm.trans (congrArg State.hbm hv :)⟩
      · rw [State.block, hkept]
        refine (congrArg (fun y : Slice => y.blocks.get default _) hslice).trans ?_
        rw [← hf]
        exact State.block_onBlock (f := fun x => { x with complete := true }) hin
      · rw [hkept]
        exact congrArg (· ++ _) ((congrArg Slice.tiles hslice).trans (State.onBlock_tiles ..))
  · rintro k l d rfl hl hd hrun hfence hlive hk hlow hhigh hvalid hsub hfmt hfinal hresv hhome hcount htag hindex hbatch hnew hearly
    obtain ⟨last, tiles, htile⟩ := State.tokenTile_staged (payload := payload) hl hd hlive hlow hhigh hvalid hsub hfmt hfinal hresv hhome hcount
      htag hindex hbatch hnew hearly
    subst hh
    have htoken := State.tile_running (header := header) (payload := payload) hrun hfence hsl
    rw [if_pos hk, htile] at htoken
    refine next_after _ s _ _ (congrArg (answer s) htoken) fun t ht => ⟨?_, ht.hbm, ht.srec_entries⟩
    rw [ht.tok]
    exact List.mem_append_right _ List.mem_cons_self

end Sys2Proof.Machine

/-! Packets of chunks: forwarded, staged and judged (R131, R136, R148, R176, R178, R328). -/

namespace Sys2Proof.Machine

/-! ### The row -/

section
variable {s u : State} {p : Nat} {pkt : List Byte} {h : PktHead}

/-- The packet of a chunk that waits at a port is taken, and handled. -/
theorem exec_chunk (ha : Arrives s u p pkt 0x01 h) {e : State} (he : u.chunkIn p pkt = e) : exec (.chunk p pkt) s = nextOf s e :=
  congrArg (answer s) ((received_of_arrives ha _).trans he)

/-- A packet for another package is forwarded, or discarded (R131, R328). -/
theorem State.chunkIn_elsewhere (hh : h = PktHead.parse pkt) (hdst : h.dst ≠ u.coord) : u.chunkIn p pkt = u.relayChunk p h pkt := by
  subst hh
  exact if_pos hdst

/-! ### A packet for this package -/

/-- The first packet of a chunk for which nothing waits is discarded. -/
theorem State.chunkIn_unawaited (hh : h = PktHead.parse pkt) (hdst : h.dst = u.coord) (hfirst : h.first = true) (hvc : h.vc = 0)
    (hnone : u.chunkOpening p h = none) : u.chunkIn p pkt = u := by
  subst hh
  refine (if_neg (not_not.2 hdst)).trans (if_pos ⟨hfirst, ?_⟩)
  simp [hvc, hnone]

section
variable (hfirst : h.first = true) (hasm : u.seq.asm = [])
include hfirst hasm

/-- Where nothing is being put together, a packet that is a whole chunk leaves nothing to put together. -/
theorem State.piece_whole (hlast : h.last = true) (body : List Byte) : u.piece p h body = (u, some body) := by
  have hnothing : ({ u with seq := { u.seq with asm := [] } } : State) = u := by rw [← hasm]
  simp [State.piece, hfirst, hlast, hasm, hnothing]

/-- The first of several packets is what there is of the chunk so far. -/
theorem State.piece_begun (hlast : h.last = false) (body : List Byte) : u.piece p h body =
    ({ u with seq := { u.seq with asm := [⟨p, h.vc, h.pitch, h.chunk, h.src, body⟩] } }, none) := by
  simp [State.piece, hfirst, hlast, hasm]

variable (hh : h = PktHead.parse pkt) (hdst : h.dst = u.coord)
include hh hdst

theorem State.chunkIn_begun (hvc : h.vc = 0) (hwait : (u.chunkOpening p h).isSome = true) (hlast : h.last = false) :
    u.chunkIn p pkt = { u with seq := { u.seq with asm := [⟨p, 0, h.pitch, h.chunk, h.src, packetPayload pkt⟩] } } := by
  have hpiece := State.piece_begun (p := p) hfirst hasm hlast (packetPayload pkt)
  rw [hvc] at hpiece
  subst hh
  simp only [State.chunkIn, hdst, hfirst, hvc, hwait, hpiece, if_true, if_false, ne_eq, not_true_eq_false, Bool.not_true, Bool.false_eq_true, and_false]

/-- A chunk that is whole at once is judged by the opening that waits for it (R136). -/
theorem State.chunkIn_whole (hvc : h.vc = 0) (hlast : h.last = true) {sl : Nat} {o : Opening} (ho : u.chunkOpening p h = some (sl, o)) :
    u.chunkIn p pkt = u.acceptChunk sl o h.src (packetPayload pkt) := by
  have hpiece := State.piece_whole (p := p) hfirst hasm hlast (packetPayload pkt)
  subst hh
  simp only [State.chunkIn, hdst, hfirst, hvc, ho, hpiece, if_true, if_false, ne_eq, not_true_eq_false, Bool.not_true, Bool.false_eq_true, and_false,
    Option.isSome_some]

/-- The packet of a picot's round is its input. -/
theorem State.chunkIn_picot (hvc : h.vc ≠ 0) (hlast : h.last = true) (hwait : (u.picot h.pitch).isSome = true) :
    u.chunkIn p pkt = u.picotInput h.src h.pitch h.chunk (packetPayload pkt) := by
  have hpiece := State.piece_whole (p := p) hfirst hasm hlast (packetPayload pkt)
  subst hh
  simp only [State.chunkIn, hdst, hfirst, hvc, hwait, hpiece, if_true, if_false, ne_eq, not_true_eq_false, not_false_eq_true, Bool.not_true,
    Bool.false_eq_true, and_false]

end

end

/-! ### A whole chunk judged -/

section
variable {u : State} {sl src rank : Nat} {o : Opening} {whole : List Byte} {c : Chunk} {i : Input} {t : Trailer}

/-- An input of this step that a scatter chunk still takes (R148). -/
theorem State.acceptInput_taken (hopen : o.step = u.seq.step) (hstep : i.chunk.step = u.seq.step) (hreduced : o.reduced = false)
    (hnew : ∀ y ∈ o.inputs, y.rank = i.rank → y.carried = true) : u.acceptInput sl o i =
      (u.onOpen sl o.pitch o.chunk (fun o => { o with inputs := o.inputs ++ [i] })).addWork sl
        (if i.chunk.null then 0 else elemAdds (u.pricking.pitchAt o.pitch).owidth i.chunk.elems) := by
  have hfresh : ¬o.inputs.any (fun x => x.rank = i.rank ∧ !x.carried) = true := by
    simpa using hnew
  refine (if_neg (not_not.2 ⟨hstep, hopen⟩)).trans ((if_neg hfresh).trans (if_pos ?_))
  simp [hreduced]

/-- The chunk of a gather that still waits for it, and is no prusik copy, makes its buffer READY (R176). -/
theorem State.acceptWhole_taken (hopen : o.step = u.seq.step) (hstep : i.chunk.step = u.seq.step) (hprusik : i.chunk.prusik = false)
    (hfinal : o.final = false) (hnew : o.inputs = []) (hwait : o.slots ≠ [] ∨ (o.reduced = false ∧ o.pitch ∉ u.seq.closed)) :
    u.acceptWhole sl o i = (u.setBuf sl o.buf .ready i.chunk).onOpen sl o.pitch o.chunk (fun o => { o with inputs := [i], reduced := true }) := by
  have hunjudged : ¬(o.inputs ≠ [] ∨ o.final = true ∨ (o.slots = [] ∧ (o.reduced = true ∨ u.seq.closed.contains o.pitch = true))) := by
    rcases hwait with hslots | ⟨hreduced, hclosed⟩
    · simp [hnew, hfinal, hslots]
    · simp [hnew, hfinal, hreduced, hclosed]
  have hchunk : ({ i.chunk with prusik := false, dev := i.chunk.dev || i.chunk.prusik } : Chunk) = i.chunk := by
    rw [hprusik, Bool.or_false, ← hprusik]
  have hcopy : ∀ q : Prop, ¬(i.chunk.prusik = true ∧ q) := by simp [hprusik]
  unfold State.acceptWhole
  dsimp only
  rw [if_neg (hcopy _), if_neg (hcopy _), if_neg (hcopy _), if_neg (not_not.2 ⟨hstep, hopen⟩), if_neg hunjudged, hchunk]

section
variable (hvoid : o.void = false) (hrank : rank = u.image.rankOf (u.pricking.pitchAt o.pitch).group src)
  (ht : t = Trailer.parse (whole.drop (whole.length - 32)))
include hvoid hrank ht

/-- A chunk that passes its checks and is no prusik copy is an input, or the chunk of a gather (R136). -/
theorem State.acceptChunk_ok (hprusik : c.prusik = false)
    (hok : u.checkChunk sl o.pitch o.chunk (o.scatter || o.coded) (if o.scatter then u.pitchExp o.pitch o.chunk else none) whole = .ok c) :
    u.acceptChunk sl o src whole =
      if o.scatter then u.acceptInput sl o ⟨rank, t.crc, c, false⟩ else u.acceptWhole sl o ⟨rank, t.crc, c, false⟩ := by
  subst hrank ht
  simp only [State.acceptChunk, hvoid, hok, hprusik, Bool.false_eq_true, if_false]

/-- A chunk of a scatter that fails its CRC raises CHUNK-CHECK, and its input counts as failed. -/
theorem State.acceptChunk_badCrc (hcrc : crc32c (whole.take (whole.length - 32) ++ (whole.drop (whole.length - 32)).take 8 ++
      (whole.drop (whole.length - 32)).drop 12) ≠ t.crc) (hopen : o.step = u.seq.step) (hscatter : o.scatter = true) (hreduced : o.reduced = false)
    (htag : tagOrder t.tag u.seq.step = .same) : u.acceptChunk sl o src whole =
      (u.raise 0x04 (sliceSource 4 sl) 0 (o.pitch + rank * 2 ^ 16) o.chunk).onOpen sl o.pitch o.chunk
        (fun o => { o with fails := o.fails ++ [(rank, 0x0D, 0x04)] }) := by
  subst hrank ht
  have hfault : ∀ decode expect, u.checkChunk sl o.pitch o.chunk decode expect whole = .error .check := fun _ _ => if_pos (Or.inr hcrc)
  simp only [State.acceptChunk, hvoid, hfault, State.chunkFailed, State.raise_seq, hscatter, htag, hopen, hreduced, ChunkFault.dev,
    Bool.false_eq_true, if_false, if_true, Bool.not_false, and_self]

end

end

/-- Settles O42: what a packet's destination, its channel and the opening that waits for it decide, each case with its equation. -/
theorem chunksReceived : Obligations.ChunksReceived := by
  rintro s u p pkt h ha
  have hh : h = PktHead.parse pkt := ha.2.2
  refine ⟨fun hdst => ⟨fun out hout => exec_chunk ha ?_, fun hpassed => exec_chunk ha ?_⟩, fun hdst hvc hfirst hasm => ⟨fun hnone => ?_,
    fun e he hlast => ?_, ?_⟩, fun hdst hvc hfirst hlast hasm hwait => exec_chunk ha (State.chunkIn_picot hfirst hasm hh hdst hvc hlast hwait)⟩
  · rw [State.chunkIn_elsewhere hh hdst, State.relayChunk, hout]
  · rw [State.chunkIn_elsewhere hh hdst, State.relayChunk, hpassed]
    rfl
  · exact exec_chunk ha (State.chunkIn_unawaited hh hdst hfirst hvc hnone)
  · exact exec_chunk ha (State.chunkIn_begun hfirst hasm hh hdst hvc (by simp [he]) hlast)
  · rintro sl o whole ho hlast rfl hvoid hopen
    have hwhole := State.chunkIn_whole hfirst hasm hh hdst hvc hlast ho
    refine ⟨?_, ?_⟩
    · rintro c i hok hprusik hstep rfl
      have haccept := hwhole.trans (State.acceptChunk_ok hvoid rfl rfl hprusik hok)
      refine ⟨fun hscatter hreduced hnew => exec_chunk ha (haccept.trans ?_), fun hgather hfinal hnew hslots => exec_chunk ha (haccept.trans ?_)⟩
      · rw [if_pos hscatter, State.acceptInput_taken hopen hstep hreduced hnew]
      · rw [if_neg (by simp [hgather]), State.acceptWhole_taken hopen hstep hprusik hfinal hnew hslots]
    · rintro r rfl - hcrc hscatter hreduced htag
      exact exec_chunk ha (hwhole.trans (State.acceptChunk_badCrc hvoid rfl rfl hcrc hopen hscatter hreduced htag))

end Sys2Proof.Machine

/-! Prusik requests and token chunks on the links (R149, R150, R258, R259, R260, R323, Table 7-11). -/

namespace Sys2Proof.Machine

/-! ### A prusik request that a port delivers (R149, R323) -/

section
variable {s u : State} {p : Nat} {pkt : List Byte} {h : PktHead}

theorem exec_prusikReq (ha : Arrives s u p pkt 0x03 h) {e : State} (he : u.prusikIn p pkt = e) : exec (.prusikReq p pkt) s = nextOf s e :=
  congrArg (answer s) ((received_of_arrives ha _).trans he)

/-- A request for another package goes on by displacement (R323). -/
theorem State.prusikIn_elsewhere (hh : h = PktHead.parse pkt) (hdst : h.dst ≠ u.coord) {out : Nat} (hout : u.onward p h = some out) :
    u.prusikIn p pkt = u.onPort out (fun q => { q with prusik := q.prusik ++ [(u.count, pkt)] }) := by
  subst hh
  simp only [State.prusikIn, hdst, hout, ne_eq, not_false_eq_true, if_true]

/-- A request of another step does nothing. -/
theorem State.prusikIn_stale (hh : h = PktHead.parse pkt) (hdst : h.dst = u.coord) (hstep : h.seq ≠ u.seq.step % 2 ^ 16) : u.prusikIn p pkt = u := by
  subst hh
  exact (if_neg (not_not.2 hdst)).trans (if_pos hstep)

/-- The request that a packet holds. -/
def prusikOf (h : PktHead) (pkt : List Byte) : PrusikHeld :=
  ⟨h.pitch, h.chunk, h.src, bytesAt (packetPayload pkt) 0 2, bytesAt (packetPayload pkt) 2 3, h.group, false⟩

/-- Two requests are for the same slot. -/
def PrusikHeld.same (y r : PrusikHeld) : Bool := y.from_ == r.from_ && y.rpitch == r.rpitch && y.rchunk == r.rchunk

/-- A slice holds a request once. -/
def Slice.hold (r : PrusikHeld) (x : Slice) : Slice :=
  if x.prusik.any (fun y => y.same r) then x else { x with prusik := x.prusik ++ [r] }

/-- A request of the step is held on each slice whose stream has the answer window (R150). -/
theorem State.prusikIn_held (hh : h = PktHead.parse pkt) (hdst : h.dst = u.coord) (hstep : h.seq = u.seq.step % 2 ^ 16) :
    u.prusikIn p pkt = (u.answerSlices h.pitch h.chunk).foldl (fun s sl => s.onSlice sl (Slice.hold (prusikOf h pkt))) u := by
  subst hh
  exact (if_neg (not_not.2 hdst)).trans (if_neg (not_not.2 hstep))

theorem Slice.hold_prusik (r : PrusikHeld) (x : Slice) :
    (x.hold r).prusik = x.prusik ++ if ∀ y ∈ x.prusik, ¬(y.from_ = r.from_ ∧ y.rpitch = r.rpitch ∧ y.rchunk = r.rchunk) then [r] else [] := by
  unfold Slice.hold
  split
  next hsame =>
    obtain ⟨y, hy, hyr⟩ := List.any_eq_true.1 hsame
    rw [if_neg, List.append_nil]
    exact fun hnone => hnone y hy (by simpa [PrusikHeld.same, and_assoc] using hyr)
  next hnone =>
    rw [if_pos]
    exact fun y hy hyr => hnone (List.any_eq_true.2 ⟨y, hy, by simpa [PrusikHeld.same, and_assoc] using hyr⟩)

theorem Slice.hold_fenced (r : PrusikHeld) (x : Slice) : (x.hold r).fenced = x.fenced := by
  unfold Slice.hold
  split <;> rfl

/-- Slices changed one after another, no slice twice: each of them has the change, and the others stay. -/
theorem State.foldl_onSlice_slice {f : Slice → Slice} {ks : List Nat} (hks : ks.Nodup) (s : State) {j : Nat} (hj : j < s.slices.length) :
    (ks.foldl (fun s k => s.onSlice k f) s).slice j = if j ∈ ks then f (s.slice j) else s.slice j := by
  induction ks generalizing s with
  | nil => simp
  | cons k ks ih =>
    obtain ⟨hk, hks⟩ := List.nodup_cons.1 hks
    have hj' : j < (s.onSlice k f).slices.length := by rwa [State.onSlice, List.length_modify]
    rw [List.foldl_cons, ih hks _ hj']
    by_cases hjk : j = k
    · subst hjk
      rw [if_neg hk, if_pos List.mem_cons_self, State.onSlice_slice s hj, if_pos rfl]
    · have hother : (s.onSlice k f).slice j = s.slice j := by
        simp only [State.slice, State.onSlice, List.getD_eq_getElem?_getD, List.getElem?_modify, if_neg (Ne.symm hjk)]
        cases s.slices[j]? <;> rfl
      simp only [List.mem_cons, hjk, false_or, hother]

theorem State.answerSlices_nodup (u : State) (pitch chunk : Nat) : (u.answerSlices pitch chunk).Nodup := List.nodup_range.filter _

/-! ### A prusik request that leaves (R323) -/

variable {due : Nat} {rest : List (Nat × List Byte)}

/-- A request leaves when its tick has come and 64 ticks have passed since the last one. -/
theorem State.prusikSend_due (hq : (s.port p).prusik = (due, pkt) :: rest) (hdue : due ≤ s.count)
    (hrate : ∀ t, (s.port p).prusikTick = some t → t + 64 ≤ s.count)
    (hu : u = s.onPort p (fun q => { q with prusik := rest, prusikTick := some s.count })) :
    s.prusikSend p = (if s.upTowards p (PktHead.parse pkt).dst ∧ ((s.port p).inWindow s.count).isSome then u.linkCount p (packetW pkt) 5 1 else u).transmit
      p [pkt] := by
  have hready : ¬(s.count < due ∨ (match (s.port p).prusikTick with | some t => decide (s.count < t + 64) | none => false) = true) := by
    rintro (hlt | hsoon)
    · omega
    · split at hsoon
      next t ht => have := hrate t ht; simp at hsoon; omega
      next => simp at hsoon
  subst hu
  unfold State.prusikSend
  dsimp only
  rw [hq]
  exact if_neg hready

/-- Before that it waits. -/
theorem State.prusikSend_waits (hq : (s.port p).prusik = (due, pkt) :: rest)
    (hwait : s.count < due ∨ ∃ t, (s.port p).prusikTick = some t ∧ s.count < t + 64) : s.prusikSend p = s := by
  unfold State.prusikSend
  dsimp only
  rw [hq]
  refine if_pos ?_
  rcases hwait with hlt | ⟨t, ht, hsoon⟩
  · exact Or.inl hlt
  · exact Or.inr (by simpa [ht] using hsoon)

end

/-! ### Token chunks (R258, R259, R260) -/

section
variable {s u : State} {p : Nat} {pkt whole data tb : List Byte} {h : PktHead} {t : TokTrailer} {d : Routed} {sl pitch : Nat}

theorem exec_tokens (ha : Arrives s u p pkt 0x02 h) {e : State} (he : u.tokensIn p pkt = e) : exec (.tokens p pkt) s = nextOf s e :=
  congrArg (answer s) ((received_of_arrives ha _).trans he)

/-- A chunk whose LEN reaches its first byte is the only one of its packet (R316). -/
theorem splitChunks_single (n : Nat) (hlen : 32 ≤ whole.length)
    (hone : (TokTrailer.parse (whole.drop (whole.length - 32))).len = whole.length - 32) : splitChunks (n + 1) whole = [whole] := by
  have hall : (TokTrailer.parse (whole.drop (whole.length - 32))).len + 32 ≥ whole.length := by omega
  rw [splitChunks, if_neg (Nat.not_lt.2 hlen)]
  exact if_pos hall

/-- The parts of a token chunk: its payload, the bytes of its trailer, and their fields. -/
def TokenParts (whole data tb : List Byte) (t : TokTrailer) : Prop :=
  data = whole.take (whole.length - 32) ∧ tb = whole.drop (whole.length - 32) ∧ t = TokTrailer.parse tb

variable (hparts : TokenParts whole data tb t)
include hparts

/-- A packet that is one token chunk, of a pitch with no RETURN, lands it. -/
theorem State.tokensIn_lands (hh : h = PktHead.parse pkt) (hdst : h.dst = u.coord) (hfirst : h.first = true) (hlast : h.last = true)
    (hwhole : whole = packetPayload pkt) (hlen : 32 ≤ whole.length) (htlen : t.len = data.length) (hpins : u.tokenPins h.pitch true = []) :
    u.tokensIn p pkt = u.landToken h.pitch whole := by
  obtain ⟨hdata, htb, ht⟩ := hparts
  have hone : (TokTrailer.parse (whole.drop (whole.length - 32))).len = whole.length - 32 := by
    rw [← htb, ← ht, htlen, hdata, List.length_take, Nat.min_eq_left (Nat.sub_le ..)]
  have hsplit := splitChunks_single 129 hlen hone
  subst hwhole hh
  simp only [State.tokensIn, hdst, hfirst, hlast, hsplit, ne_eq, not_true_eq_false, if_false, Bool.not_true, Bool.false_and, Bool.and_false,
    Bool.or_self, Bool.false_eq_true, List.foldl_cons, List.foldl_nil]
  exact if_neg fun hreturn => hreturn.1 hpins

/-- A chunk that comes after its window, or of another step, is only counted. -/
theorem State.landToken_late (hlate : pitch ∈ u.tok.closed ∨ t.tag ≠ u.seq.step % 2 ^ 16) :
    u.landToken pitch whole = u.tokenCount 9 t.layer 1 := by
  obtain ⟨rfl, rfl, rfl⟩ := hparts
  refine if_pos ?_
  simpa using hlate

omit hparts in
/-- What a chunk that fails its CRC counts. -/
theorem State.tokenFailed_check (u : State) (sl pitch src l : Nat) : u.tokenFailed sl pitch src l .check = ({ u.tokenCount 11 l 1 with
    tok := { u.tok with losses := u.tok.losses ++ [(pitch, src)] } } : State).tally 3 sl pitch 1 := by
  have htok : (u.tokenCount 11 l 1).tok = u.tok := u.bump_tok ..
  rw [← htok]
  rfl

/-- A chunk with a bad CRC is counted, and its source has a loss (R258). -/
theorem State.landToken_badCrc (hopen : pitch ∉ u.tok.closed) (hstep : t.tag = u.seq.step % 2 ^ 16)
    (hcrc : crc32c (data ++ tb.drop 4) ≠ bytesAt tb 0 4) : u.landToken pitch whole =
      u.tokenFailed ((u.image.layerOf t.layer).homeSlice t.mb) pitch t.srank t.layer .check := by
  obtain ⟨rfl, rfl, rfl⟩ := hparts
  exact (if_neg (by simp [hopen, hstep])).trans (if_pos hcrc)

omit hparts in
/-- What R258 asks of a chunk of a pitch whatever its TYPE. -/
structure State.TokenPasses (u : State) (pitch : Nat) (data tb : List Byte) (t : TokTrailer) : Prop where
  pitchOpen : pitch ∉ u.tok.closed
  step : t.tag = u.seq.step % 2 ^ 16
  crc : crc32c (data ++ tb.drop 4) = bytesAt tb 0 4
  reserved : tokReservedZero tb = true
  served : (t.layer, t.mb, t.pass) ∈ u.served pitch false
  drank : t.drank = (u.image.group (u.image.layerOf t.layer).group).rank u.coord
  pitch : t.pitch = pitch
  srank : t.srank < u.image.routedG (u.image.layerOf t.layer)
  len : t.len = data.length

variable (hpass : u.TokenPasses pitch data tb t)
include hpass

/-- A count chunk that passes its checks is kept for its source (R259). -/
theorem State.landToken_count (hd : d = u.image.layerOf t.layer) (htype : t.type = 2) (hcoded : t.coded = false)
    (hlength : data.length = 4 * u.image.routedP d) (hexact : u.relaxed = false) : u.landToken pitch whole =
      { u with tok := { u.tok with counts := u.tok.counts ++
        [⟨pitch, t.layer, t.mb, t.pass, t.srank, (List.range (u.image.routedP d)).map (fun j => bytesAt data (4 * j) 4)⟩] } } := by
  obtain ⟨hopen, hstep, hcrc, hzero, hserved, hdrank, hpitch, hsrank, hlen⟩ := hpass
  obtain ⟨rfl, rfl, rfl⟩ := hparts
  subst hd
  refine (if_neg (by simp [hopen, hstep])).trans ((if_neg (not_not.2 hcrc)).trans ((if_neg ?_).trans ((if_pos htype).trans ?_)))
  · simp [hzero, hserved, hdrank, hpitch, Nat.not_le.2 hsrank, hlen, htype, hcoded, hlength]
  · exact if_neg fun h => Bool.false_ne_true (hexact.symm.trans h.1)

/-- A vector that passes its checks is written to its slot with its tag, if the slot has none for this step (R260). -/
theorem State.landToken_vector (hd : d = u.image.layerOf t.layer) (htype : t.type = 0) (hslot : t.slot < d.cap) (hexpert : t.expert < u.image.routedP d)
    (hfmt : t.fmt = d.vfmt) (hcoded : t.coded = false) (hlength : data.length = d.vbytes) (hlive : u.req.replay = false) {q : Nat}
    (hq : q = u.image.queueAt d (d.qIn t.pass) t.mb t.expert) : u.landToken pitch whole =
      if u.tagValid q d t.srank t.slot then u.tokenCount 10 t.layer 1
      else ((u.hbmWrite (q + u.image.vectorOff d t.srank t.slot) data).hbmWrite (q + d.tagOff t.srank t.slot)
        (leBytes 8 (t.token + t.choice * 2 ^ 24 + u.seq.step % 2 ^ 16 * 2 ^ 28 + 2 ^ 63))).tokenCount (7 + t.pass) t.layer 1 := by
  obtain ⟨hopen, hstep, hcrc, hzero, hserved, hdrank, hpitch, hsrank, hlen⟩ := hpass
  obtain ⟨rfl, rfl, rfl⟩ := hparts
  subst hd hq
  refine (if_neg (by simp [hopen, hstep])).trans ((if_neg (not_not.2 hcrc)).trans ((if_neg ?_).trans ((if_neg (by simp [htype])).trans ?_)))
  · simp [hzero, hserved, hdrank, hpitch, Nat.not_le.2 hsrank, hlen, htype, hcoded, hlength, Nat.not_le.2 hslot, Nat.not_le.2 hexpert, hfmt]
  · simp only [hcoded, State.forcedToken, hlive, Bool.false_eq_true, if_false, Bool.not_true]

end

/-- Settles O43: a request is relayed, held or dropped, and leaves at its tick; a token chunk is judged by R258 in order. -/
theorem tokenTraffic : Obligations.TokenTraffic := by
  refine ⟨⟨?_, ?_⟩, ?_⟩
  · rintro s u p pkt h ha
    have hh : h = PktHead.parse pkt := ha.2.2
    have hcount : u.count = s.belay.count := congrArg Belay.count (belay_of_arrives ha)
    refine ⟨fun out hdst hout => ?_, fun hdst hstep => exec_prusikReq ha (State.prusikIn_stale hh hdst hstep), fun hdst hstep => ?_⟩
    · rw [← hcount]
      exact exec_prusikReq ha (State.prusikIn_elsewhere hh hdst hout)
    · refine next_after _ s _ _ (exec_prusikReq ha (State.prusikIn_held hh hdst hstep)) fun t ht sl hopen hsl => ?_
      have hheld := State.foldl_onSlice_slice (f := Slice.hold (prusikOf h pkt)) (u.answerSlices_nodup h.pitch h.chunk) u hsl
      have hfence : (((u.answerSlices h.pitch h.chunk).foldl (fun s sl => s.onSlice sl (Slice.hold (prusikOf h pkt))) u).slice sl).fenced = false := by
        rw [hheld, apply_ite Slice.fenced, Slice.hold_fenced, ite_self, hopen]
      rw [ht.slice sl hfence, hheld, apply_ite Slice.prusik, Slice.hold_prusik]
      split
      next hin => simp only [hin, true_and]; rfl
      next hout => simp only [hout, false_and, if_false, List.append_nil]
  · rintro s u p due pkt rest hq hu
    refine ⟨fun hdue hrate => ?_, fun hwait hi => answer_kept hi (State.prusikSend_waits hq hwait)⟩
    have hsend := State.prusikSend_due hq hdue hrate hu
    refine ⟨fun hnone => ?_, fun w hw hup => ?_⟩
    · rw [if_neg (by simp [State.count, hnone])] at hsend
      exact congrArg (answer s) hsend
    · rw [if_pos ⟨hup, by simp [State.count, hw]⟩] at hsend
      exact congrArg (answer s) hsend
  · rintro s u p pkt h whole data tb t d sl ha hdst hfirst hlast hwhole hlen hdata htb ht htlen hd hsl hpins
    have hparts : TokenParts whole data tb t := ⟨hdata, htb, ht⟩
    have hlands := State.tokensIn_lands (p := p) hparts ha.2.2 hdst hfirst hlast hwhole hlen htlen hpins
    refine ⟨fun hlate => exec_tokens ha (hlands.trans (State.landToken_late hparts hlate)), fun hopen hstep => ⟨fun hcrc => ?_,
      fun hcrc hzero hserved hdrank hpitch hsrank => ?_⟩⟩
    · rw [hsl, hd, ← State.tokenFailed_check]
      exact exec_tokens ha (hlands.trans (State.landToken_badCrc hparts hopen hstep hcrc))
    · have hpass : u.TokenPasses h.pitch data tb t := ⟨hopen, hstep, hcrc, hzero, hserved, hd ▸ hdrank, hpitch, hd ▸ hsrank, htlen⟩
      refine ⟨fun htype hcoded hlength hexact => exec_tokens ha (hlands.trans (State.landToken_count hparts hpass hd htype hcoded hlength hexact)),
        fun q htype hslot hexpert hfmt hcoded hlength hlive hq => ?_⟩
      have hvector := hlands.trans (State.landToken_vector hparts hpass hd htype hslot hexpert hfmt hcoded hlength hlive hq)
      refine ⟨fun htag => exec_tokens ha (hvector.trans (if_pos htag)), fun htag => exec_tokens ha (hvector.trans (if_neg (by simp [htag])))⟩

end Sys2Proof.Machine
